-- ==== Sys2Proof/Word.lean ====
section
/-! DEFINITION. The word types of the package model: what the manual treats as bits. -/
namespace Sys2Proof

/-- Eight bits, the unit of addressing (R10). -/
abbrev Byte := BitVec 8
/-- Sixteen bits: status codes (R171, R393), chip numbers (R26), table entries. -/
abbrev Half := BitVec 16
/-- Thirty-two bits: one register access (R35). -/
abbrev Word := BitVec 32
/-- Sixty-four bits: bell time (R49), tallies (R38), 64-bit register values (R39, R40). -/
abbrev DWord := BitVec 64
/-- A status code (R393). -/
abbrev Status := BitVec 16
/-- A chip number (R26). -/
abbrev Chip := BitVec 16
/-- One 64-byte line, byte 0 in bits [7:0] (R10). -/
abbrev Line := BitVec 512

end Sys2Proof
end

