-- ==== Sys2Proof/Machine/Units.lean ====
section
/-! DEFINITION. The numbered parts of the package (R8), the register pages (R34) and the agents of an access (R31). -/
namespace Sys2Proof.Machine
open Sys2Proof

/-- A core by its physical numbers, die.cluster.core (R8). -/
structure CoreId where
  die : Fin 4
  cluster : Fin 10
  core : Fin 9
  deriving DecidableEq, Repr

/-- One of a core's four task contexts (R131). -/
structure CtxId where
  core : CoreId
  ctx : Fin 4
  deriving DecidableEq, Repr

/-- A bobbin: two per cluster, and the gateway bobbins GB0–GB7 (R8, R195). -/
inductive BobId where
  | cluster (die : Fin 4) (cluster : Fin 10) (b : Fin 2)
  | gateway (n : Fin 8)
  deriving DecidableEq, Repr

/-- Mill Ss.Mm (R8). -/
structure MillId where
  stack : Fin 12
  mill : Fin 8
  deriving DecidableEq, Repr

/-- A store: a core store or a cluster store (R136). -/
inductive StoreId where
  | core (c : CoreId)
  | cluster (die : Fin 4) (cluster : Fin 10)
  deriving DecidableEq, Repr

/-- A register page: the block type code and the instance number of R34. -/
structure Page where
  type : Nat
  inst : Nat
  deriving DecidableEq, Repr

/-- Slot of a core: cluster × 16 + core (R27). -/
def CoreId.slot (c : CoreId) : Nat := c.cluster.val * 16 + c.core.val
/-- Instance number of a bobbin (R34). -/
def BobId.inst : BobId → Nat
  | .cluster d c b => d.val * 32 + c.val * 2 + b.val
  | .gateway n => 0x80 + n.val
/-- The compute die that hosts a stack (R8). -/
def dieOfStack (s : Fin 12) : Fin 4 := ⟨s.val / 3, by omega⟩
/-- The compute die that owns a port (R8). -/
def dieOfPort (p : Fin 32) : Fin 4 := ⟨p.val / 8, by omega⟩
/-- The selvage engine that serves a port (R8). -/
def seOfPort (p : Fin 32) : Fin 16 := ⟨p.val / 2, by omega⟩
/-- The compute die that hosts a selvage engine (R8). -/
def dieOfSe (n : Fin 16) : Fin 4 := ⟨n.val / 4, by omega⟩
/-- Port number d × 8 + k of die d (R8). -/
def portOf (d : Fin 4) (k : Fin 8) : Fin 32 := ⟨d.val * 8 + k.val, by omega⟩

namespace Page
/-- R34. -/
def fuse : Page := ⟨0x01, 0⟩
def sec : Page := ⟨0x02, 0⟩
def reeve : Page := ⟨0x03, 0⟩
def hrth : Page := ⟨0x04, 0⟩
def pwr : Page := ⟨0x05, 0⟩
/-- Die 0–3, HD = 4 (R34). -/
def thrm (i : Fin 5) : Page := ⟨0x06, i.val⟩
def bell : Page := ⟨0x07, 0⟩
def mgmt : Page := ⟨0x08, 0⟩
def dbg : Page := ⟨0x09, 0⟩
def gate : Page := ⟨0x0A, 0⟩
def thim (g : Fin 2) : Page := ⟨0x0B, g.val⟩
def core (c : CoreId) : Page := ⟨0x10 + c.die.val, c.slot⟩
def clst (d : Fin 4) (c : Fin 10) : Page := ⟨0x14, d.val * 16 + c.val⟩
def bob (b : BobId) : Page := ⟨0x15, b.inst⟩
def memc (s : Fin 12) : Page := ⟨0x16, s.val⟩
def mill (m : MillId) : Page := ⟨0x17, m.stack.val * 8 + m.mill.val⟩
def well (d : Fin 4) : Page := ⟨0x18, d.val⟩
def drt (d : Fin 4) : Page := ⟨0x19, d.val⟩
def prk (p : Fin 32) : Page := ⟨0x1A, p.val⟩
def sel (n : Fin 16) : Page := ⟨0x1B, n.val⟩
def lnk (p : Fin 32) : Page := ⟨0x1C, p.val⟩
/-- Die 0–3, HD = 4 (R34). -/
def cmn (i : Fin 5) : Page := ⟨0x1D, i.val⟩
def ledg (d : Fin 4) : Page := ⟨0x1E, d.val⟩
end Page

/-- A Stitch link: the compute-die links, the selvage-engine links and the guest links (R34). -/
inductive StitchId where
  | hub (d : Fin 4)
  | selvage (n : Fin 16)
  | guest (g : Fin 2)
  deriving DecidableEq, Repr

/-- The STCH page of a link (R34). -/
def Page.stch : StitchId → Page
  | .hub d => ⟨0x0C, d.val⟩
  | .selvage n => ⟨0x0C, 0x10 + n.val⟩
  | .guest g => ⟨0x0C, 0x20 + g.val⟩

/-- The page that holds a store's windows and bank registers: CORE or CLST (R158, R159). -/
def StoreId.page : StoreId → Page
  | .core c => .core c
  | .cluster d c => .clst d c

/-- The compute die of a store. -/
def StoreId.die : StoreId → Fin 4
  | .core c => c.die
  | .cluster d _ => d

/-- The power domains of R412. -/
inductive Domain where
  | hearth | hub
  | die (d : Fin 4)
  | stack (n : Fin 12)
  | optics (k : Fin 4)
  deriving DecidableEq, Repr

/-- The agents of R31, as each one reads and writes: the four Reeve cores, the debug port, each guest site's thimble
mailbox, task contexts, bobbins, remote chips and the guest dies. -/
inductive Agent where
  | reeve (n : Fin 4)
  | debug
  | guest (g : Fin 2)
  | task (c : CtxId)
  | bobbin (b : BobId)
  | remote (chip : Chip)
  deriving DecidableEq, Repr

/-- The states of a block (R36, R43). -/
inductive BlockState where
  | off | enabling | enabled | draining | disabled | quarantined | fault
  deriving DecidableEq, Repr

/-- The STATE.state code (R36). -/
def BlockState.code : BlockState → Nat
  | .off => 0 | .enabling => 1 | .enabled => 2 | .draining => 3 | .disabled => 4 | .quarantined => 5 | .fault => 6

end Sys2Proof.Machine
end

