-- ==== Sys2Proof/Syntax.lean ====
section
/-! DEFINITION. The commands of the package and the things they carry. -/
namespace Sys2Proof
open Sys2Proof.Machine

/-- What a read of a store line found (R155): the line's byte offset in the store, the 16-byte word, and whether the
error is a double-bit error (or a poison copy without majority). -/
structure EccFinding where
  off : Nat
  word : Fin 4
  double : Bool
  deriving DecidableEq, Repr


/-- What a read of a DRAM line found (R218, R220): no error, one symbol corrected, or two or more symbols, with the first symbol in
error. -/
inductive LineErr where
  | clean
  | one (symbol : Nat)
  | two (symbol : Nat)
  deriving DecidableEq, Repr


/-- Where a command packet comes from (R370, R421): the first one that has arrived over the optical ports, bytes received on the
management port or on the I3C/SMBus interface, or the first one that Hearth held in P3. -/
inductive CmdSrc where
  | fabric
  | mgmt (bytes : List Byte)
  | i3c (bytes : List Byte)
  | held
  deriving DecidableEq, Repr

/-- What the RSASSA-PSS and SLH-DSA checks of R439 find. -/
structure SigChecks where
  rsa : Bool
  slh : Bool
  deriving DecidableEq, Repr

/-- A request or result ring of manifest section 0x000C (R375). -/
structure RingDef where
  result : Bool
  index : Nat
  base : Nat
  size : Nat
  count : Nat
  head : Nat
  deriving DecidableEq, Repr

/-- A task of manifest section 0x0008 (R378): its phase, logical core and context, its CTX_ENTRY, the six base and bound registers,
the halt policy, the local offset of its epoch word, and its program as bytes at local offsets of its core's store. -/
structure ManTask where
  phase : Nat
  core : CoreId
  ctx : Fin 4
  entry : Word
  pairs : List Word
  policy : Nat
  epochAt : Nat
  program : List (Nat × List Byte)
  deriving DecidableEq, Repr

/-- A window of section 0x0009 (R145, R378): the values of its registers by their offset in its block, and its owner. -/
structure ManWindow where
  phase : Nat
  store : StoreId
  w : Fin 16
  regs : List (Nat × Word)
  owner : Fin 4
  ownerCore : Nat
  deriving DecidableEq, Repr

/-- A mirror entry of section 0x0004 (R400). -/
structure MirrorDef where
  first : Nat
  granules : Nat
  partner : Chip
  role : Nat
  flow : Nat
  own : List Nat
  theirs : List Nat
  deriving DecidableEq, Repr

/-- A flow entry of section 0x0005 (R357): its set, 0-7 for a phase, 16 + n for the change to phase n, 255 for a common one. -/
structure ManFlow where
  set : Nat
  die : Fin 4
  flow : Nat
  data0 : Word
  data1 : Word
  deriving DecidableEq, Repr

/-- The pricking of a port of section 0x0006, for a set named as in section 0x0005: slots and their 16-bit entries. -/
structure ManPricking where
  set : Nat
  port : Fin 32
  entries : List (Nat × Nat)
  deriving DecidableEq, Repr

/-- The group tables of section 0x0007 for a die and phase (R336): entries as table, index and value, and the members on this
package, as index in table 2 and logical core. -/
structure ManGroup where
  phase : Nat
  die : Fin 4
  groups : List Nat
  entries : List (Nat × Nat × Word)
  members : List (Nat × CoreId)
  deriving DecidableEq, Repr

/-- What the sections of a manifest say (R378) whose layout no rule gives. -/
structure Manifest where
  bell : Option (Word × Word × Word)
  topology : List (Fin 32 × Option (Chip × Nat × Word))
  routes : List (Fin 4 × Nat × Word)
  domain : List (Nat × Word)
  mirrors : List MirrorDef
  flows : List ManFlow
  prickings : List ManPricking
  groups : List ManGroup
  tasks : List ManTask
  windows : List ManWindow
  lists : List (Nat × Nat × List Byte)
  rings : List RingDef
  deriving DecidableEq, Repr

/-- An entry that a task has published in a result ring (R376): the request it answers, by ring and sequence, whether it is the
last, and its payload bytes. -/
structure ResultEntry where
  ring : Nat
  reqRing : Nat
  reqSeq : Nat
  last : Bool
  len : Nat
  deriving DecidableEq, Repr

/-- The accesses a guest makes on the memory channel, and those the package makes to it (R455, R460). -/
inductive GuestOp where
  | read (len : Nat)
  | write (bytes : List Byte)
  | atomic (opc : Nat) (wide : Bool) (operand compare : DWord)
  | snoop (modified : Bool)
  | interrupt
  | other
  deriving DecidableEq, Repr

/-- What a self-test of a mill finds (R249): the phase that fails, if one does, and whether the two chains' residues differ. -/
structure TestOutcome where
  phase : Option (Fin 4)
  residue : Bool
  deriving DecidableEq, Repr

/-- The policy triggers of R384 that Caselm acts on by itself. -/
inductive PolicyTrigger where
  /-- A residue mismatch or failed self-test of a core (R129). -/
  | core (c : CoreId)
  /-- The errors of the banks of a store within 24 h (R156). -/
  | store (st : StoreId)
  /-- A mill's residue mismatch or failed self-test (R247). -/
  | mill (m : MillId)
  /-- A stack controller's repair log that has overflowed (R229). -/
  | stack (n : Fin 12)
  deriving DecidableEq, Repr

/-- The sources that wake the package from P3 (R421): a burst or steady light on a port, a management packet, an I3C write, or the fall
of every hub trip sensor below 70 °C. -/
inductive WakeSource where
  | burst (port : Fin 32)
  | light (port : Fin 32)
  | mgmt (bytes : List Byte)
  | i3c (bytes : List Byte)
  | cooled
  deriving DecidableEq, Repr

/-- The rails whose power-good can fall (R475): those of a domain, a guest site's, and the board's own VHRT or VIO. -/
inductive BoardRail where
  | domain (d : Domain)
  | guest (site : Fin 2)
  | always
  deriving DecidableEq, Repr
/-- The commands of the block: one constructor per row of spec/opcode_table.json, in the table's order. The table
gives no operand fields; the operands are the things that the row's rule names as coming from outside the step. -/
inductive Instr where
  /-- REGISTER_WRITE (R35) -/
  | registerWrite (agent : Agent) (addr width : Nat) (value : Word)
  /-- PAIRED_STAGE (R41) -/
  | pairedStage (agent : Agent) (page : Page) (off : Nat) (value : Word)
  /-- PAIRED_COMMIT (R41) -/
  | pairedCommit (agent : Agent) (page : Page) (off : Nat) (value : Word)
  /-- PAIRED_PENDING_EXPIRY (R41) -/
  | pairedPendingExpiry (page : Page) (off : Nat)
  /-- WRITE64_HI_COMMIT (R40) -/
  | write64HiCommit (agent : Agent) (page : Page) (off : Nat) (value : Word)
  /-- TALLY_SNAPSHOT_READ (R38) -/
  | tallySnapshotRead (agent : Agent) (page : Page)
  /-- LATCH_LO_READ (R39) -/
  | latchLoRead (agent : Agent) (page : Page) (off : Nat)
  /-- LATCH_HI_READ (R39) -/
  | latchHiRead (agent : Agent) (page : Page) (off : Nat)
  /-- EVT_STATUS_CLEAR (R37) -/
  | evtStatusClear (agent : Agent) (page : Page) (value arising : Word)
  /-- EVT_FORCE_WRITE (R37) -/
  | evtForceWrite (agent : Agent) (page : Page) (value : Word)
  /-- CTRL_ENABLE (R43) -/
  | ctrlEnable (agent : Agent) (page : Page) (blockCtrl : BitVec 16) (timeout : BitVec 12)
  /-- CTRL_DISABLE (R43) -/
  | ctrlDisable (agent : Agent) (page : Page) (blockCtrl : BitVec 16) (timeout : BitVec 12)
  /-- SELF_CHECK_DONE (R43) -/
  | selfCheckDone (page : Page) (pass : Bool)
  /-- DRAIN_TIMEOUT (R394) -/
  | drainTimeout (page : Page)
  /-- DRAIN_COMPLETE (R394) -/
  | drainComplete (page : Page)
  /-- ROUND_BOUNDARY (R57) -/
  | roundBoundary
  /-- BELL_FRAME_RECEIVE (R53) -/
  | bellFrameReceive (port : Fin 32) (payload : List Byte) (frac : BitVec 4)
  /-- ROUND_JUDGEMENT (R498) -/
  | roundJudgement
  /-- PPS_EDGE (R51) -/
  | ppsEdge (tenmOk : Bool)
  /-- REF_LOST (R56) -/
  | refLost (pps tenm : Bool)
  /-- PRK_TBL_DATA_WRITE (R60) -/
  | prkTblDataWrite (port : Fin 32) (value : Word)
  /-- PRK_SEAL (R62) -/
  | prkSeal (port : Fin 32)
  /-- PRK_UNSEAL (R62) -/
  | prkUnseal (port : Fin 32)
  /-- PRK_SWAP_ARM (R63) -/
  | prkSwapArm (die : Fin 4) (round : BitVec 24) (mask : BitVec 8)
  /-- PRK_SWAP_CANCEL (R63) -/
  | prkSwapCancel (die : Fin 4) (round : BitVec 24)
  /-- PRICKING_SWAP (R63) -/
  | prickingSwap (die : Fin 4)
  /-- FLOW_DATA_COMMIT (R65) -/
  | flowDataCommit (die : Fin 4) (value : Word)
  /-- FLOW_DATA1_READ (R65) -/
  | flowData1Read (agent : Agent) (die : Fin 4)
  /-- TABLE_DATA_READ_INC (R295) -/
  | tableDataReadInc (agent : Agent) (page : Page)
  /-- BUDGET_WAIT_RECHECK (R66) -/
  | budgetWaitRecheck (die : Fin 4)
  /-- LATE_REPORT_RECEIVE (R69) -/
  | lateReportReceive
  /-- ENGINE_INSTR_START (R119) -/
  | engineInstrStart (core : CoreId)
  /-- ENGINE_ROW_DRAIN (R110) -/
  | engineRowDrain (core : CoreId) (residue : Option (Fin 128 × Fin 16))
  /-- ENGINE_PASS_BOUNDARY (R121) -/
  | enginePassBoundary (core : CoreId)
  /-- THROTTLE_PAUSE_END (R426) -/
  | throttlePauseEnd (core : CoreId)
  /-- ENGINE_RETIRE (R124) -/
  | engineRetire (core : CoreId)
  /-- ENGINE_CLOCK_GATE (R122) -/
  | engineClockGate (core : CoreId)
  /-- ENGINE_BIST_END (R128) -/
  | engineBistEnd (core : CoreId) (result : Word)
  /-- CTX_START (R131) -/
  | ctxStart (c : CtxId)
  /-- CTX_STOP (R132) -/
  | ctxStop (c : CtxId)
  /-- CTX_CLEAR (R131) -/
  | ctxClear (c : CtxId)
  /-- CTX_STOP_COMPLETE (R132) -/
  | ctxStopComplete (c : CtxId)
  /-- INSTR_RETIRE (R172) -/
  | instrRetire (c : CtxId) (k : Nat)
  /-- BASE_BOUND_COMMIT (R144) -/
  | baseBoundCommit (c : CtxId) (pair : Fin 6) (value : Word)
  /-- ILV_COMMIT (R138) -/
  | ilvCommit (store : StoreId) (value : Word)
  /-- ILV_FILL_END (R138) -/
  | ilvFillEnd (store : StoreId)
  /-- WIN_OPEN (R145) -/
  | winOpen (store : StoreId) (w : Fin 16) (owner : Fin 4) (ownerCore : BitVec 4)
  /-- WIN_CLOSE (R148) -/
  | winClose (store : StoreId) (w : Fin 16)
  /-- WINDOW_EXPIRY (R148) -/
  | windowExpiry (store : StoreId) (w : Fin 16)
  /-- WINDOW_CLOSED (R148) -/
  | windowClosed (store : StoreId) (w : Fin 16)
  /-- BANK_GATE_COMMIT (R150) -/
  | bankGateCommit (store : StoreId) (value : DWord)
  /-- BANK_SLEEP (R150) -/
  | bankSleep (store : StoreId) (bank : Fin 64)
  /-- GATE_TIMEOUT (R151) -/
  | gateTimeout (store : StoreId) (bank : Fin 64)
  /-- BANK_WAKE_FILL_END (R153) -/
  | bankWakeFillEnd (store : StoreId) (bank : Fin 64)
  /-- STORE_PATROL_READ (R156) -/
  | storePatrolRead (store : StoreId) (found : List EccFinding)
  /-- NOP (R175) -/
  | nop (c : CtxId)
  /-- END (R175) -/
  | endInstr (c : CtxId)
  /-- POLICY (R175) -/
  | policy (c : CtxId)
  /-- BR (R175) -/
  | br (c : CtxId)
  /-- SALU (R175) -/
  | salu (c : CtxId)
  /-- LI (R175) -/
  | li (c : CtxId)
  /-- SLD (R175) -/
  | sld (c : CtxId) (found : List EccFinding)
  /-- SST (R175) -/
  | sst (c : CtxId)
  /-- TSTAT (R172) -/
  | tstat (c : CtxId)
  /-- RDBELL (R175) -/
  | rdbell (c : CtxId)
  /-- RDID (R175) -/
  | rdid (c : CtxId)
  /-- WAIT_BELL (R177) -/
  | waitBell (c : CtxId)
  /-- WAIT_BELL_REACHED (R177) -/
  | waitBellReached (c : CtxId)
  /-- WAIT_WIN (R178) -/
  | waitWin (c : CtxId)
  /-- WAIT_WORD (R179) -/
  | waitWord (c : CtxId)
  /-- WAIT_WORD_RECHECK (R179) -/
  | waitWordRecheck (c : CtxId)
  /-- WAIT_WORD_DEADLINE (R179) -/
  | waitWordDeadline (c : CtxId)
  /-- MMA (R181) -/
  | mma (c : CtxId)
  /-- MMA_SP (R181) -/
  | mmaSp (c : CtxId)
  /-- MMA_AR (R347) -/
  | mmaAr (c : CtxId)
  /-- MMA_RS (R347) -/
  | mmaRs (c : CtxId)
  /-- AG_MMA (R347) -/
  | agMma (c : CtxId)
  /-- DISP_MMA (R348) -/
  | dispMma (c : CtxId)
  /-- MMA_COMB (R347) -/
  | mmaComb (c : CtxId)
  /-- CONV (R184) -/
  | conv (c : CtxId)
  /-- EW (R185) -/
  | ew (c : CtxId)
  /-- CMP (R186) -/
  | cmp (c : CtxId)
  /-- CMP_AL (R186) -/
  | cmpAl (c : CtxId)
  /-- VADD (R187) -/
  | vadd (c : CtxId)
  /-- VSUB (R187) -/
  | vsub (c : CtxId)
  /-- VMUL (R187) -/
  | vmul (c : CtxId)
  /-- VFMA (R187) -/
  | vfma (c : CtxId)
  /-- VMIN (R187) -/
  | vmin (c : CtxId)
  /-- VMAX (R187) -/
  | vmax (c : CtxId)
  /-- VRCP (R187) -/
  | vrcp (c : CtxId)
  /-- VRSQRT (R187) -/
  | vrsqrt (c : CtxId)
  /-- VEXP (R187) -/
  | vexp (c : CtxId)
  /-- VSUM (R187) -/
  | vsum (c : CtxId)
  /-- VRMAX (R187) -/
  | vrmax (c : CtxId)
  /-- VRMIN (R187) -/
  | vrmin (c : CtxId)
  /-- VARGMAX (R187) -/
  | vargmax (c : CtxId)
  /-- VCVT (R187) -/
  | vcvt (c : CtxId)
  /-- VBCAST (R187) -/
  | vbcast (c : CtxId)
  /-- VMERGE (R188) -/
  | vmerge (c : CtxId)
  /-- MOV (R189) -/
  | mov (c : CtxId)
  /-- FILL (R189) -/
  | fill (c : CtxId)
  /-- CLD (R190) -/
  | cld (c : CtxId)
  /-- CST (R190) -/
  | cst (c : CtxId)
  /-- CATOM (R190) -/
  | catom (c : CtxId)
  /-- MILL (R191) -/
  | mill (c : CtxId)
  /-- BOB_PUT (R192) -/
  | bobPut (c : CtxId)
  /-- WIN_OPEN_INSTR (R193) -/
  | winOpenInstr (c : CtxId)
  /-- WIN_CLOSE_INSTR (R194) -/
  | winCloseInstr (c : CtxId)
  /-- POST_CMD_GO (R196) -/
  | postCmdGo (agent : Agent) (bob : BobId) (queue : Fin 16)
  /-- DESCRIPTOR_START (R197) -/
  | descriptorStart (bob : BobId)
  /-- MOVE_FRAME_ACK_RECEIVE (R201) -/
  | moveFrameAckReceive (die : Fin 4)
  /-- ACK_DEADLINE (R201) -/
  | ackDeadline (bob : BobId) (seq : Word)
  /-- DESCRIPTOR_END (R205) -/
  | descriptorEnd (bob : BobId) (queue : Fin 16)
  /-- DONE_HI_READ (R206) -/
  | doneHiRead (agent : Agent) (bob : BobId)
  /-- LAND_FULL_CLEAR (R209) -/
  | landFullClear (gateway : Fin 8) (value : Word)
  /-- MAP_COMMIT (R216) -/
  | mapCommit (value : Word)
  /-- LINE_REQUEST (R220) -/
  | lineRequest (stack : Fin 12) (off : Nat) (data : Option (List Byte)) (tagged : Bool) (mill : Bool) (found : LineErr)
  /-- REPAIR_COPY_END (R226) -/
  | repairCopyEnd (stack : Fin 12) (found : List (Nat × LineErr)) (readBackOk : Bool)
  /-- PATROL_SCRUB (R221) -/
  | patrolScrub (stack : Fin 12) (found : List (Fin 32 × LineErr))
  /-- REFRESH_INTERVAL (R222) -/
  | refreshInterval (stack : Fin 12)
  /-- STACK_TEMP_SAMPLE (R222) -/
  | stackTempSample (stack : Fin 12) (temps : List Nat)
  /-- COMPAT_DUTY_STEP (R223) -/
  | compatDutyStep (stack : Fin 12)
  /-- REPAIR_LOG_POP (R229) -/
  | repairLogPop (agent : Agent) (stack : Fin 12)
  /-- MEMC_TBL_WRITE (R233) -/
  | memcTblWrite (stack : Fin 12) (value : Word)
  /-- MILL_COMMAND_ARRIVE (R244) -/
  | millCommandArrive (mill : MillId) (core : CoreId)
  /-- MILL_ATTEND (R241) -/
  | millAttend (mill : MillId) (found : LineErr)
  /-- MILL_TEST (R249) -/
  | millTest (mill : MillId) (found : TestOutcome)
  /-- MILL_PAGE_DONE (R246) -/
  | millPageDone (mill : MillId) (found : List (Nat × LineErr)) (residue : Bool)
  /-- MILL_COMMAND_END (R247) -/
  | millCommandEnd (mill : MillId)
  /-- SEL_RELOCK (R260) -/
  | selRelock (se : Fin 16) (ring : Fin 64)
  /-- SEL_RECAL (R264) -/
  | selRecal (se : Fin 16)
  /-- SEL_WAKE (R268) -/
  | selWake (port : Fin 32)
  /-- HEATER_FF_UPDATE (R255) -/
  | heaterFfUpdate (se : Fin 16) (sensor0 sensor1 : BitVec 12) (badEntries : List (Fin 64))
  /-- LOCK_LOOP_UPDATE (R256) -/
  | lockLoopUpdate (se : Fin 16) (ring : Fin 64) (trim : Option Int)
  /-- TRIM_SATURATION (R257) -/
  | trimSaturation (se : Fin 16) (ring : Fin 64)
  /-- DRIFT_QUEUE (R257) -/
  | driftQueue (se : Fin 16) (ring : Fin 64)
  /-- DIRECTED_SWEEP_END (R261) -/
  | directedSweepEnd (se : Fin 16) (ring : Fin 64) (found : Option Int)
  /-- SWEEP_RETRY (R261) -/
  | sweepRetry (se : Fin 16) (ring : Fin 64)
  /-- LANE_MARKER_RECEIVE (R274) -/
  | laneMarkerReceive (port : Fin 32) (lane : Fin 16) (marker : DWord)
  /-- PILOT_WRONG_LOCK (R262) -/
  | pilotWrongLock (se : Fin 16) (ring : Fin 64) (pilot : Fin 16)
  /-- MARKER_MISSING (R262) -/
  | markerMissing (port : Fin 32) (lane : Fin 16)
  /-- RECAL_INTERVAL (R264) -/
  | recalInterval (se : Fin 16)
  /-- HELD_RECAL_END (R264) -/
  | heldRecalEnd (se : Fin 16) (ring : Fin 64) (centre : Option Int)
  /-- TRACKING_RECAL_END (R264) -/
  | trackingRecalEnd (se : Fin 16) (ring : Fin 64) (mean : Int)
  /-- LASER_STATUS_WITHDRAWN (R254) -/
  | laserStatusWithdrawn (se : Fin 16)
  /-- LASER_TAP_LOW (R254) -/
  | laserTapLow (se : Fin 16) (tapPower : Half)
  /-- LASER_LINE_DARK (R254) -/
  | laserLineDark (se : Fin 16) (lane : Fin 16)
  /-- RX_LIGHT_LOSS (R266) -/
  | rxLightLoss (port : Fin 32)
  /-- WAKE_BURST_SEND (R268) -/
  | wakeBurstSend (port : Fin 32)
  /-- WAKE_BURST_DETECT (R268) -/
  | wakeBurstDetect (port : Fin 32)
  /-- STEADY_LIGHT_DETECT (R266) -/
  | steadyLightDetect (port : Fin 32)
  /-- WAKING_TIMEOUT (R266) -/
  | wakingTimeout (port : Fin 32)
  /-- SEL_TBL_WRITE (R272) -/
  | selTblWrite (se : Fin 16) (value : Word)
  /-- LINK_WORD_SEND (R275) -/
  | linkWordSend (port : Fin 32)
  /-- LINK_WORD_RECEIVE (R275) -/
  | linkWordReceive (port : Fin 32) (bytes : List Byte)
  /-- FEC_LIMIT_EXCEEDED (R277) -/
  | fecLimitExceeded (port : Fin 32) (lane : Fin 16) (corrected uncorrectable : Nat)
  /-- ALIGN_COMPLETE (R278) -/
  | alignComplete (port : Fin 32)
  /-- ALIGN_TIMEOUT (R278) -/
  | alignTimeout (port : Fin 32)
  /-- TRAINING_FRAME_SEND (R499) -/
  | trainingFrameSend (port : Fin 32)
  /-- TRAINING_FRAME_RECEIVE (R279) -/
  | trainingFrameReceive (port : Fin 32) (payload : List Byte)
  /-- NEGOTIATE_TIMEOUT (R499) -/
  | negotiateTimeout (port : Fin 32)
  /-- LNK_RETRAIN (R278) -/
  | lnkRetrain (port : Fin 32)
  /-- FRAME_TRANSMIT (R61) -/
  | frameTransmit (port : Fin 32)
  /-- FRAME_RECEIVE (R284) -/
  | frameReceive (port : Fin 32) (bytes : List Byte) (uncorrectable : Bool) (frac : BitVec 4)
  /-- RETRY_RESTART (R285) -/
  | retryRestart (port : Fin 32)
  /-- ACK_STALL (R286) -/
  | ackStall (port : Fin 32)
  /-- RETRAIN_LIMIT_EXPIRY (R286) -/
  | retrainLimitExpiry (port : Fin 32)
  /-- AUDIT_FRAME_RECEIVE (R288) -/
  | auditFrameReceive (port : Fin 32) (payload : List Byte)
  /-- TX_MAP_UPDATE (R289) -/
  | txMapUpdate (port : Fin 32)
  /-- CHIP_COMMIT (R293) -/
  | chipCommit (value : Word)
  /-- SLICE_COMMIT (R296) -/
  | sliceCommit (die : Fin 4) (tag : BitVec 6)
  /-- PORT_EN_COMMIT (R306) -/
  | portEnCommit (die : Fin 4) (mask : BitVec 8)
  /-- RT_DATA_COMMIT (R297) -/
  | rtDataCommit (die : Fin 4) (value : Word)
  /-- FRAME_ROUTE (R298) -/
  | frameRoute (die : Fin 4)
  /-- ROUTE_REVERT (R303) -/
  | routeRevert (port : Fin 32)
  /-- CREDIT_HOLD_DROP (R304) -/
  | creditHoldDrop (port : Fin 32)
  /-- IDENTITY_FRAME_SEND (R305) -/
  | identityFrameSend (port : Fin 32)
  /-- IDENTITY_FRAME_RECEIVE (R305) -/
  | identityFrameReceive (port : Fin 32)
  /-- COMMONS_WRITE_RECEIVE (R314) -/
  | commonsWriteReceive (die : Fin 4)
  /-- COMMONS_READ_RECEIVE (R315) -/
  | commonsReadReceive (die : Fin 4)
  /-- COMMONS_ATOMIC_RECEIVE (R322) -/
  | commonsAtomicReceive (die : Fin 4)
  /-- TWIN_ATOMIC_RECEIVE (R324) -/
  | twinAtomicReceive (die : Fin 4)
  /-- TWIN_ACK_RECEIVE (R324) -/
  | twinAckReceive (die : Fin 4)
  /-- COMMONS_RESPONSE_RECEIVE (R316) -/
  | commonsResponseReceive (die : Fin 4)
  /-- REPLY_DEADLINE (R316) -/
  | replyDeadline (seq : Word)
  /-- ATOM_WINDOW_RELEASE (R321) -/
  | atomWindowRelease (die : Fin 4) (chip : Chip)
  /-- ATOM_LIMIT_EXPIRY (R323) -/
  | atomLimitExpiry (id : Nat)
  /-- FLAG_STORE_RELEASE (R318) -/
  | flagStoreRelease (id : Nat)
  /-- FENCE_NOTICE_RECEIVE (R329) -/
  | fenceNoticeReceive (port : Fin 32)
  /-- FENCE_REANNOUNCE (R329) -/
  | fenceReannounce
  /-- FENCE_REQ_WRITE (R328) -/
  | fenceReqWrite (value : Word)
  /-- SAMPLER_PASS_SET (R408) -/
  | samplerPassSet (chip : Chip)
  /-- SAMPLER_PASS_CLEAR (R408) -/
  | samplerPassClear (chip : Chip)
  /-- LQ_CMD_GO (R335) -/
  | lqCmdGo (die : Fin 4) (sourceDie : Fin 4)
  /-- CMN_TBL_WRITE (R334) -/
  | cmnTblWrite (inst : Fin 5) (value : Word)
  /-- GRANT_RECEIVE (R346) -/
  | grantReceive (die : Fin 4)
  /-- CHUNK_SEND (R341) -/
  | chunkSend (die : Fin 4) (chunk : Nat)
  /-- CHUNK_DATA_RECEIVE (R343) -/
  | chunkDataReceive (die : Fin 4)
  /-- CHUNK_CLOSE_RECEIVE (R343) -/
  | chunkCloseReceive (die : Fin 4)
  /-- CHUNK_CLOSE_RESPONSE (R343) -/
  | chunkCloseResponse (die : Fin 4)
  /-- CHUNK_ACK_DEADLINE (R343) -/
  | chunkAckDeadline (die : Fin 4) (seq : Word)
  /-- CHUNK_FOLD_DONE (R345) -/
  | chunkFoldDone (die : Fin 4) (chunk : Nat)
  /-- STAGE_DEADLINE (R341) -/
  | stageDeadline (die : Fin 4) (chunk : Nat)
  /-- COUNT_RECEIVE (R348) -/
  | countReceive (die : Fin 4)
  /-- DIGEST_RECEIVE (R351) -/
  | digestReceive (die : Fin 4)
  /-- VERDICT_RECEIVE (R352) -/
  | verdictReceive (die : Fin 4)
  /-- EARLY_RELEASE (R353) -/
  | earlyRelease (die : Fin 4)
  /-- TALLY_DEADLINE (R350) -/
  | tallyDeadline (die : Fin 4)
  /-- WELL_TBL_WRITE (R355) -/
  | wellTblWrite (die : Fin 4) (value : Word)
  /-- PHASE_CHANGE (R361) -/
  | phaseChange (src : CmdSrc)
  /-- PHASE_STOP_OLD (R361) -/
  | phaseStopOld
  /-- PHASE_RESHARD_POST (R359) -/
  | phaseReshardPost
  /-- PHASE_READY (R361) -/
  | phaseReady (src : CmdSrc)
  /-- PHASE_VERDICT (R361) -/
  | phaseVerdict (src : CmdSrc)
  /-- PHASE_VERDICT_MISSING (R363) -/
  | phaseVerdictMissing
  /-- PHASE_START_NEW (R361) -/
  | phaseStartNew
  /-- RESHARD_RETRY (R363) -/
  | reshardRetry
  /-- IDENTIFY (R374) -/
  | identify (src : CmdSrc)
  /-- TELEMETRY (R386) -/
  | telemetry (src : CmdSrc)
  /-- EVENT_READ (R374) -/
  | eventRead (src : CmdSrc)
  /-- POWER (R415) -/
  | powerCmd (src : CmdSrc)
  /-- IMAGE_BEGIN (R442) -/
  | imageBegin (src : CmdSrc)
  /-- IMAGE_DATA (R442) -/
  | imageData (src : CmdSrc)
  /-- IMAGE_COMMIT (R442) -/
  | imageCommit (src : CmdSrc) (checks : SigChecks) (failures : Fin 3)
  /-- IMAGE_INFO (R442) -/
  | imageInfo (src : CmdSrc)
  /-- ATTEST (R446) -/
  | attest (src : CmdSrc)
  /-- ATTEST_READ (R446) -/
  | attestRead (src : CmdSrc)
  /-- DEBUG_CHALLENGE (R448) -/
  | debugChallenge (src : CmdSrc)
  /-- UNLOCK_DATA (R448) -/
  | unlockData (src : CmdSrc)
  /-- UNLOCK_COMMIT (R448) -/
  | unlockCommit (src : CmdSrc) (checks : SigChecks)
  /-- CERT_READ (R442) -/
  | certRead (src : CmdSrc)
  /-- MANIFEST_BEGIN (R377) -/
  | manifestBegin (src : CmdSrc)
  /-- MANIFEST_DATA (R377) -/
  | manifestData (src : CmdSrc)
  /-- MANIFEST_COMMIT (R379) -/
  | manifestCommit (src : CmdSrc) (sections : Manifest) (ruleFails : Option Nat)
  /-- MANIFEST_WITHDRAW (R381) -/
  | manifestWithdraw (src : CmdSrc)
  /-- START (R374) -/
  | startCmd (src : CmdSrc)
  /-- LOAD (R374) -/
  | loadCmd (src : CmdSrc)
  /-- READ (R374) -/
  | readCmd (src : CmdSrc)
  /-- REQUEST (R375) -/
  | requestCmd (src : CmdSrc)
  /-- RESULT_ACK (R376) -/
  | resultAck (src : CmdSrc)
  /-- LEDGER_QUERY (R374) -/
  | ledgerQuery (src : CmdSrc)
  /-- FENCE (R374) -/
  | fenceCmd (src : CmdSrc)
  /-- MAINT_RESET (R374) -/
  | maintReset (src : CmdSrc)
  /-- SAMPLER_BEGIN (R407) -/
  | samplerBegin (src : CmdSrc)
  /-- SAMPLER_STATE (R407) -/
  | samplerState (src : CmdSrc)
  /-- SAMPLER_RECORD (R407) -/
  | samplerRecord (src : CmdSrc)
  /-- SAMPLER_DIGEST (R409) -/
  | samplerDigest (src : CmdSrc) (digest : DWord) (spot : List Byte)
  /-- SAMPLER_END (R409) -/
  | samplerEnd (src : CmdSrc)
  /-- SAMPLER_REPORT (R406) -/
  | samplerReport (src : Option CmdSrc)
  /-- SAMPLER_PROMOTE (R410) -/
  | samplerPromote (src : CmdSrc)
  /-- SAMPLER_ADMIT (R410) -/
  | samplerAdmit (src : CmdSrc)
  /-- SAMPLER_ADMIT_ROUND (R410) -/
  | samplerAdmitRound
  /-- COMMAND_BAD_HEADER (R371) -/
  | commandBadHeader (src : CmdSrc)
  /-- CMD_FRAGMENT_TIMEOUT (R370) -/
  | cmdFragmentTimeout
  /-- REPLY_CACHE_EXPIRY (R372) -/
  | replyCacheExpiry
  /-- WATCHDOG_RESTART (R367) -/
  | watchdogRestart
  /-- WATCHDOG_EXPIRY (R367) -/
  | watchdogExpiry
  /-- RESULT_POLL (R376) -/
  | resultPoll (entries : List ResultEntry)
  /-- RESULT_RESEND (R376) -/
  | resultResend
  /-- TELEMETRY_SNAPSHOT (R386) -/
  | telemetrySnapshot (failed : List (Page × Nat × Nat × Nat))
  /-- NV_RECORD_WRITE (R390) -/
  | nvRecordWrite (ok : Bool) (retryOk : Bool)
  /-- CASELM_FAULT_POLICY (R384) -/
  | caselmFaultPolicy (trigger : PolicyTrigger)
  /-- STEP_START (R385) -/
  | stepStart (ends : Nat) (copied : Bool)
  /-- TASK_REPLACE (R383) -/
  | taskReplace (core : CoreId)
  /-- CASELM_MIRROR_RESTORE (R230) -/
  | caselmMirrorRestore (stack : Fin 12) (bob : BobId) (agrees : Bool)
  /-- REMIRROR_COPY (R402) -/
  | remirrorCopy (bob : BobId)
  /-- PWR_REQ_COMMIT (R415) -/
  | pwrReqCommit (value : Word)
  /-- POWER_TRANSITION_START (R416) -/
  | powerTransitionStart
  /-- DOMAIN_CUT (R416) -/
  | domainCut (domain : Domain) (readBackOk : Bool)
  /-- POWER_STATE_REACHED (R422) -/
  | powerStateReached
  /-- P1_AUTO_ENTER (R414) -/
  | p1AutoEnter (die : Fin 4)
  /-- WAKE_DETECT (R421) -/
  | wakeDetect (source : WakeSource)
  /-- DOMAIN_RESTORE (R420) -/
  | domainRestore (domain : Domain) (slotOk : Bool)
  /-- SENSOR_SAMPLE (R425) -/
  | sensorSample (inst : Fin 5) (readings : List Int)
  /-- TRIP_COMPUTE_DIE (R428) -/
  | tripComputeDie (die : Fin 4)
  /-- TRIP_HUB (R428) -/
  | tripHub
  /-- TRIP_STACK (R428) -/
  | tripStack (stack : Fin 12)
  /-- TRIP_STACK_RAIL_CUT (R428) -/
  | tripStackRailCut (stack : Fin 12)
  /-- TRIP_SELVAGE (R428) -/
  | tripSelvage (se : Fin 16)
  /-- TRIP_COOLED (R428) -/
  | tripCooled (inst : Fin 5) (slotOk : Bool)
  /-- STACK_TRIP_CLEAR (R430) -/
  | stackTripClear (stack : Fin 12)
  /-- RESET_RELEASE (R434) -/
  | resetRelease (mgmtSel : Bool) (addr : BitVec 3) (memoryOk : Bool)
  /-- RECOVERY_ROM_START (R434) -/
  | recoveryRomStart (checks : SigChecks) (readable octal : Bool)
  /-- CASELM_HANDOVER (R434) -/
  | caselmHandover (reload : List (Page × Nat × Nat × Word)) (bad : List Nat)
  /-- ALIAS_RSA_READY (R445) -/
  | aliasRsaReady
  /-- UNLOCK_EXPIRY (R449) -/
  | unlockExpiry
  /-- STITCH_MESSAGE_RECEIVE (R455) -/
  | stitchMessageReceive (link : StitchId) (header : DWord)
  /-- MODULE_OUT (R454) -/
  | moduleOut (link : StitchId) (m : Fin 16) (failedTraining : Bool) (replays : Nat)
  /-- GUEST_IDENTITY_RECORD (R458) -/
  | guestIdentityRecord (site : Fin 2) (bytes : List Byte)
  /-- GUEST_ID_TIMEOUT (R458) -/
  | guestIdTimeout (site : Fin 2)
  /-- GUEST_ACCESS (R460) -/
  | guestAccess (site : Fin 2) (id off : Nat) (op : GuestOp)
  /-- GUEST_RATE_RELEASE (R461) -/
  | guestRateRelease (site : Fin 2)
  /-- OUTBOUND_GUEST_ACCESS (R460) -/
  | outboundGuestAccess (agent : Agent) (site : Fin 2) (id off : Nat) (op : GuestOp) (answer : Option (Status × List Byte))
  /-- OUTBOUND_REPLY_TIMEOUT (R460) -/
  | outboundReplyTimeout (site : Fin 2) (id : Nat)
  /-- SNOOP_TIMEOUT (R457) -/
  | snoopTimeout (site : Fin 2)
  /-- THIM_WIN_OPEN (R459) -/
  | thimWinOpen (site : Fin 2) (w : Fin 32)
  /-- THIM_WIN_CLOSE (R459) -/
  | thimWinClose (site : Fin 2) (w : Fin 32)
  /-- MB_DOORBELL_SET (R462) -/
  | mbDoorbellSet (agent : Agent) (site : Fin 2) (slot : Fin 16)
  /-- MB_DOORBELL_CLEAR (R462) -/
  | mbDoorbellClear (agent : Agent) (site : Fin 2) (slot : Fin 16)
  /-- GUEST_LINK_DOWN (R463) -/
  | guestLinkDown (site : Fin 2)
  /-- GUEST_ALERT (R468) -/
  | guestAlert (site : Fin 2)
  /-- RST_N_ASSERT (R477) -/
  | rstNAssert
  /-- POWER_GOOD_ACCEPT (R472) -/
  | powerGoodAccept (domain : Domain) (slotOk : Bool)
  /-- RAIL_FAULT (R472) -/
  | railFault (domain : Domain)
  /-- POWER_GOOD_FALL (R475) -/
  | powerGoodFall (rail : BoardRail)
  /-- RAIL_ENABLE_STEP (R474) -/
  | railEnableStep
  /-- RAIL_RERAISE (R475) -/
  | railReraise (domain : Domain)
  /-- REFCLK_LOSS (R478) -/
  | refclkLoss
  /-- DEBUG_IDENT (R486) -/
  | debugIdent (request : List Bool)
  /-- DEBUG_READ32 (R487) -/
  | debugRead32 (request : List Bool) (done : Bool)
  /-- DEBUG_WRITE32 (R487) -/
  | debugWrite32 (request : List Bool) (done : Bool)
  /-- DEBUG_READ_LINE (R486) -/
  | debugReadLine (request : List Bool) (done : Bool)
  /-- DEBUG_ACCESS_TIMEOUT (R486) -/
  | debugAccessTimeout
  /-- DEBUG_FRAMING_RESET (R486) -/
  | debugFramingReset
  /-- DMI_ACCESS (R488) -/
  | dmiAccess (agent : Agent) (addr : Fin 128) (write : Option Word)
  /-- SEQ_HALT (R489) -/
  | seqHalt (agent : Agent)
  /-- SEQ_RESUME (R489) -/
  | seqResume (agent : Agent)
  /-- SEQ_STEP (R489) -/
  | seqStep (agent : Agent)
  /-- JTAG_IDCODE (R491) -/
  | jtagIdcode
  /-- JTAG_SAMPLE_PRELOAD (R491) -/
  | jtagSamplePreload (levels load : List Bool)
  /-- JTAG_EXTEST (R491) -/
  | jtagExtest (load : List Bool)
  /-- JTAG_CLAMP (R491) -/
  | jtagClamp
  /-- JTAG_HIGHZ (R491) -/
  | jtagHighz
  /-- JTAG_PRIVATE (R491) -/
  | jtagPrivate (code : BitVec 8)
  /-- JTAG_BYPASS (R491) -/
  | jtagBypass
  /-- MRG_GO (R492) -/
  | mrgGo (agent : Agent)
  /-- MRG_ABORT (R494) -/
  | mrgAbort (agent : Agent)
  /-- MARGIN_POINT_DONE (R493) -/
  | marginPointDone (failed : List Nat) (wrongLock : Bool)
  /-- MARGIN_RUN_END (R494) -/
  | marginRunEnd (written : List Nat)
  /-- REFERENCE_RESTORED (R56) -/
  | referenceRestored
  /-- LASER_STATUS_ASSERTED (R253) -/
  | laserStatusAsserted (se : Fin 16) (tapPower : Half)
  /-- MODULE_IN (R453) -/
  | moduleIn (link : StitchId) (m : Fin 16)
  /-- MILL_CLOCK_GATE (R250) -/
  | millClockGate (mill : MillId)
  /-- P2_EXIT_START (R420) -/
  | p2ExitStart
  deriving DecidableEq, Repr

end Sys2Proof
end

