-- ==== Sys2Proof/Config.lean ====
section
/-! DEFINITION. The free values: what the manual leaves open is a constant here with no body, so that nothing can be proved of
its value. -/
namespace Sys2Proof

/-- Which of the results that R94's bound allows an rsqrt returns, by its input: one function for every chip (log entry 12). -/
opaque Config.rsqrtPick : Word → Nat
/-- Which of the results that R94's bound allows an exp returns, by its input (log entry 12). -/
opaque Config.expPick : Word → Nat
/-- The departure fraction of a bell frame, in 1/16 tick, by the local count and the port: the manual measures it at the transmitter's PHY and gives no
value (R53; log entry 17). -/
opaque Config.departFrac : Nat → Nat → Nat
/-- Which of the free landing slots an emit fills when the one it names is full, by the local count (R209; log entry 14). -/
opaque Config.slotPick : Nat → Nat
/-- Which of Q8–Q15 a far access joins, by the number of its request (R210; log entry 14). -/
opaque Config.farQueue : Nat → Nat
/-- A byte that nothing in the manual fixes, by a counter of the package's own (log entry 7). -/
opaque Config.freeByte : Nat → Byte
/-- A byte that a guest die answers to a read, by the package's counter and the guest's own offset (R460; log entry 7). -/
opaque Config.guestByte : Nat → Nat → Byte
/-- Which figure of a telemetry group an item number names (R387; log entry 21). -/
opaque Config.teleItem : Nat → Nat → Nat
/-- The stack offsets of the lines that a margin run had written when it ended before its sweep was over (R493): the manual does not fix them (log entry 53). -/
opaque Config.marginLines : Nat → List Nat
/-- The tables of a selvage engine as the factory measured them, by engine, table and index: 0 feed-forward, 1 crosstalk, 2 offset (R255; log entry 49). -/
opaque Config.ringTable : Nat → Nat → Nat → BitVec 16
/-- A word that nothing in the manual fixes, by a counter of the package's own (log entry 7). -/
opaque Config.freeWord : Nat → Word
/-- The fused SHA-384 digests of the key slots, 0-3 for images, 4 and 5 for debug tokens, byte by byte (R440; log entry 3). -/
opaque Config.keyDigest : Nat → Nat → Byte
/-- The SHA-384 of the package's DeviceID SLH-DSA public key, byte by byte (R448; log entry 3). -/
opaque Config.deviceDigest : Nat → Byte
/-- The SHA-384 of the recovery ROM, byte by byte (R446). -/
opaque Config.romDigest : Nat → Byte
/-- The SHA-384 of the fuse page with a mask of revoked slots, byte by byte: the form in which it is hashed is not stated (R446). -/
opaque Config.fuseDigest : Nat → Nat → Byte
/-- The header of the image that the factory wrote, byte by byte (R437; log entry 3). -/
opaque Config.factoryHeader : Nat → Byte
/-- The certificates 0-3 of R442: their lengths, and their bytes by certificate, boot and offset (R445). -/
opaque Config.certLen : Nat → Nat
opaque Config.certByte : Nat → Nat → Nat → Byte

/-- The vendor identity of IDCODE, eleven bits, as fused (R491). -/
opaque Config.jedec : BitVec 11

end Sys2Proof
end

