-- ==== Sys2Proof/Machine/Bits.lean ====
section
/-! DEFINITION. Bit fields, byte order and the checks of R497, used by every family. -/
namespace Sys2Proof.Machine
open Sys2Proof

/-- Bits [hi:lo] of a word, as a number (R10). -/
def bits {w : Nat} (v : BitVec w) (hi lo : Nat) : Nat := (v.toNat >>> lo) % 2 ^ (hi - lo + 1)

/-- One bit of a word. -/
def bit {w : Nat} (v : BitVec w) (i : Nat) : Bool := v.getLsbD i

/-- The word with bits [hi:lo] replaced. -/
def withBits {w : Nat} (v : BitVec w) (hi lo n : Nat) : BitVec w :=
  let m : BitVec w := BitVec.ofNat w ((2 ^ (hi - lo + 1) - 1) <<< lo)
  (v &&& ~~~m) ||| (BitVec.ofNat w ((n % 2 ^ (hi - lo + 1)) <<< lo))

/-- The word with one bit set or cleared. -/
def withBit {w : Nat} (v : BitVec w) (i : Nat) (b : Bool) : BitVec w :=
  if b then v ||| BitVec.ofNat w (2 ^ i) else v &&& ~~~(BitVec.ofNat w (2 ^ i))

/-- The low half of a 64-bit value (R39). -/
def lo32 (v : DWord) : Word := BitVec.ofNat 32 v.toNat
/-- The high half of a 64-bit value (R39). -/
def hi32 (v : DWord) : Word := BitVec.ofNat 32 (v.toNat >>> 32)
/-- The 64-bit value of two halves (R40). -/
def join64 (lo hi : Word) : DWord := BitVec.ofNat 64 (lo.toNat + hi.toNat * 2 ^ 32)

/-- Little-endian value of a list of bytes (R10). -/
def leNat : List Byte → Nat
  | [] => 0
  | b :: r => b.toNat + 256 * leNat r

/-- The n little-endian bytes of a number (R10). -/
def leBytes : Nat → Nat → List Byte
  | 0, _ => []
  | n + 1, v => BitVec.ofNat 8 v :: leBytes n (v / 256)

/-- The field of n bytes that begins at byte i of a byte list, little-endian (R10); a byte past the end counts as 0. -/
def leField (bs : List Byte) (i n : Nat) : Nat := leNat ((bs.drop i).take n)

/-- Byte i of a line. -/
def lineByte (l : Line) (i : Nat) : Byte := BitVec.ofNat 8 (l.toNat >>> (8 * i))
/-- A line from its 64 bytes. -/
def lineOf (bs : List Byte) : Line := BitVec.ofNat 512 (leNat (bs.take 64))
/-- The 64 bytes of a line. -/
def lineBytes (l : Line) : List Byte := leBytes 64 l.toNat

/-- Number of set bits. -/
def popcount : Nat → Nat → Nat
  | 0, _ => 0
  | n + 1, v => v % 2 + popcount n (v / 2)

/-- Indices of the set bits below n, lowest first. -/
def setBits (n v : Nat) : List Nat := (List.range n).filter (fun i => v.testBit i)

/-- One bit step of a reflected CRC-32 (R497). -/
def crc32Bit (c : Nat) : Nat := if c % 2 = 1 then (c >>> 1) ^^^ 0xEDB88320 else c >>> 1
/-- One byte of the IEEE 802.3 CRC-32 of R497, least significant bit first. -/
def crc32Byte (c : Nat) (b : Byte) : Nat :=
  let x := c ^^^ b.toNat
  crc32Bit (crc32Bit (crc32Bit (crc32Bit (crc32Bit (crc32Bit (crc32Bit (crc32Bit x)))))))
/-- The IEEE 802.3 CRC-32 of R497: starts at all ones, reflected, inverted at the end. -/
def crc32 (bs : List Byte) : Word := BitVec.ofNat 32 ((bs.foldl crc32Byte 0xFFFFFFFF) ^^^ 0xFFFFFFFF)

/-- One bit step of the ECMA-182 CRC-64 (R497). -/
def crc64Bit (c : Nat) : Nat :=
  if c.testBit 63 then ((c <<< 1) % 2 ^ 64) ^^^ 0x42F0E1EBA9EA3693 else (c <<< 1) % 2 ^ 64
/-- One byte of the ECMA-182 CRC-64 of R497, most significant bit first. -/
def crc64Byte (c : Nat) (b : Byte) : Nat :=
  let x := c ^^^ (b.toNat <<< 56)
  crc64Bit (crc64Bit (crc64Bit (crc64Bit (crc64Bit (crc64Bit (crc64Bit (crc64Bit x)))))))
/-- The ECMA-182 CRC-64 of R497: starts at 0, not reflected, not inverted. -/
def crc64 (bs : List Byte) : DWord := BitVec.ofNat 64 (bs.foldl crc64Byte 0)

/-- One bit step of the debug port's CRC-8 (R486, R497); the polynomial is the argument. -/
def crc8Bit (poly c : Nat) (b : Bool) : Nat :=
  let top := c.testBit 7 != b
  let s := (c <<< 1) % 256
  if top then s ^^^ poly else s
/-- A CRC-8 over bits in the order in which they are sent, no reflection, no final inversion (R497). -/
def crc8 (poly init : Nat) (bs : List Bool) : Nat := bs.foldl (crc8Bit poly) init

/-- A number's value as a signed integer of w bits. -/
def signed (w : Nat) (n : Nat) : Int := if n % 2 ^ w < 2 ^ (w - 1) then (n % 2 ^ w : Nat) else ((n % 2 ^ w : Nat) : Int) - (2 ^ w : Nat)

/-- The first n elements from a default when the list is short. -/
def nth {α : Type} (l : List α) (i : Nat) (d : α) : α := (l[i]?).getD d

/-- Element i of a list replaced; the list unchanged when it is shorter. -/
def setNth {α : Type} (l : List α) (i : Nat) (v : α) : List α :=
  match l, i with
  | [], _ => []
  | _ :: r, 0 => v :: r
  | x :: r, k + 1 => x :: setNth r k v

end Sys2Proof.Machine
end

