-- ==== Sys2Proof/Machine/Map.lean ====
section
/-! DEFINITION. Finite maps as lists of key and value pairs, the form in which the state holds everything the package
has many of: a key that is not listed has the reader's default. -/
namespace Sys2Proof.Machine

/-- A finite map as plain data. -/
abbrev Map (κ α : Type) := List (κ × α)

/-- The value listed for a key: the first pair with that key. -/
def Map.look {κ α : Type} [DecidableEq κ] (m : Map κ α) (k : κ) : Option α :=
  match m with
  | [] => none
  | (k', v) :: rest => if k' = k then some v else Map.look rest k

/-- The map without a key. -/
def Map.drop {κ α : Type} [DecidableEq κ] (m : Map κ α) (k : κ) : Map κ α :=
  match m with
  | [] => []
  | (k', v) :: rest => if k' = k then Map.drop rest k else (k', v) :: Map.drop rest k

/-- The map with a key's value written, every older value of that key removed. -/
def Map.put {κ α : Type} [DecidableEq κ] (m : Map κ α) (k : κ) (v : α) : Map κ α :=
  (k, v) :: Map.drop m k

/-- The listed value or the default. -/
def Map.getD {κ α : Type} [DecidableEq κ] (m : Map κ α) (k : κ) (d : α) : α :=
  (Map.look m k).getD d

end Sys2Proof.Machine
end

