-- ==== Sys2Proof/Machine/RegMap.lean ====
section
/-! DEFINITION. The block-specific registers of every page type, row by row from the register tables of the manual:
offset, how often the register repeats and at what stride, access, reset value and the bits its fields define. -/
namespace Sys2Proof.Machine
open Sys2Proof

/-- The access codes of R10's table, with the width: rwp64 and ro64 are the 64-bit forms of R39 and R40, cnt a 64-bit
read-only counter, w1 a register whose writes of 1 act (W1S and the mailbox doorbells), ctl WIN_CTL. -/
inductive RegKind where
  | ro | rw | wo | w1c | w1 | rwp | rwp64 | ro64 | cnt | ctl
  deriving DecidableEq, Repr

/-- One row of a register table. -/
structure RegRow where
  off : Nat
  count : Nat
  stride : Nat
  name : String
  kind : RegKind
  reset : Nat
  mask : Nat
  deriving DecidableEq, Repr

/-- Page type FUSE (R458, R471, R5). -/
def rowsFUSE : List RegRow :=
  [⟨0x080, 1, 0, "PART_ID", .ro, 0x10A0010, 0xFFFFFFFF⟩,
    ⟨0x084, 4, 4, "CLST_EN", .ro, 0x3FF, 0x3FF03FF⟩,
    ⟨0x0A0, 4, 4, "VCD", .ro, 0xA, 0xFF⟩,
    ⟨0x100, 12, 4, "GUEST_ID0_", .ro, 0x0, 0xFFFFFFFF⟩,
    ⟨0x140, 12, 4, "GUEST_ID1_", .ro, 0x0, 0xFFFFFFFF⟩]

/-- Page type SEC (R450). -/
def rowsSEC : List RegRow :=
  [⟨0x080, 1, 0, "SEC_STATUS", .ro, 0x80000000, 0xE0FFFFFF⟩,
    ⟨0x084, 1, 0, "KEYS", .ro, 0x11, 0x3F⟩,
    ⟨0x088, 1, 0, "ARB", .ro, 0x0, 0xFF⟩,
    ⟨0x08C, 1, 0, "DBG_SCOPE", .ro, 0x0, 0xFFFFFFFF⟩,
    ⟨0x090, 1, 0, "UNLOCK_END", .ro64, 0x0, 0xFFFFFFFF⟩]

/-- Page type REEVE (R391). -/
def rowsREEVE : List RegRow :=
  [⟨0x080, 1, 0, "REEVE_STATUS", .ro, 0x0, 0xFFFF007F⟩,
    ⟨0x084, 1, 0, "CASELM_VER", .ro, 0x2000001, 0xFFFFFFFF⟩,
    ⟨0x088, 1, 0, "WDOG_CFG", .rwp, 0xA, 0xFF⟩,
    ⟨0x090, 1, 0, "EVT_SEQ", .ro, 0x0, 0xFFFFFFFF⟩,
    ⟨0x094, 1, 0, "NV_SEQ", .ro, 0x0, 0xFFFFFFFF⟩,
    ⟨0x100, 1, 0, "CMD_ACCEPTED", .cnt, 0x0, 0xFFFFFFFF⟩,
    ⟨0x108, 1, 0, "CMD_REFUSED", .cnt, 0x0, 0xFFFFFFFF⟩,
    ⟨0x110, 1, 0, "CMD_BADHDR", .cnt, 0x0, 0xFFFFFFFF⟩,
    ⟨0x118, 1, 0, "CMD_FRAG", .cnt, 0x0, 0xFFFFFFFF⟩,
    ⟨0x120, 1, 0, "CACHE_HITS", .cnt, 0x0, 0xFFFFFFFF⟩,
    ⟨0x128, 1, 0, "EVT_LOST", .cnt, 0x0, 0xFFFFFFFF⟩,
    ⟨0x130, 1, 0, "NV_FAIL", .cnt, 0x0, 0xFFFFFFFF⟩]
  ++ [⟨0x138, 1, 0, "WDOG_EXPIRIES", .cnt, 0x0, 0xFFFFFFFF⟩]

/-- Page type HRTH (R433, R477). -/
def rowsHRTH : List RegRow :=
  [⟨0x080, 1, 0, "HRTH_STATUS", .ro, 0x0, 0x1F1F1F⟩,
    ⟨0x088, 1, 0, "HRTH_CFG", .rwp, 0x7, 0x7⟩,
    ⟨0x090, 1, 0, "WAKE_PORTS", .rwp, 0xFFFFFFFF, 0xFFFFFFFF⟩,
    ⟨0x098, 1, 0, "WAKE_LOG", .ro, 0x0, 0xFF1F0000⟩,
    ⟨0x0A0, 1, 0, "WAKE_TIME", .ro64, 0x0, 0xFFFFFFFF⟩,
    ⟨0x0A8, 1, 0, "RESET_CAUSE", .ro, 0x1, 0xFFFF00FF⟩]

/-- Page type PWR (R432). -/
def rowsPWR : List RegRow :=
  [⟨0x080, 1, 0, "PWR_STATUS", .ro, 0x0, 0xFCFFFFFF⟩,
    ⟨0x088, 1, 0, "PWR_CFG", .rwp, 0x64A00000, 0xFFE00000⟩,
    ⟨0x090, 1, 0, "PWR_REQ", .rwp, 0x0, 0xFFFFFFF7⟩,
    ⟨0x098, 1, 0, "PWR_LAST", .ro, 0x0, 0xFFFF00F7⟩,
    ⟨0x100, 1, 0, "TRANSITIONS", .cnt, 0x0, 0xFFFFFFFF⟩,
    ⟨0x108, 1, 0, "WAKES", .cnt, 0x0, 0xFFFFFFFF⟩,
    ⟨0x110, 1, 0, "WAKE_REPLAYS", .cnt, 0x0, 0xFFFFFFFF⟩,
    ⟨0x118, 1, 0, "RETAIN_FORCED", .cnt, 0x0, 0xFFFFFFFF⟩]

/-- Page type THRM (R431). -/
def rowsTHRM : List RegRow :=
  [⟨0x080, 1, 0, "THRM_STATUS", .ro, 0xF0000000, 0xFCFFFFC0⟩,
    ⟨0x088, 1, 0, "THRM_CFG", .rwp, 0x5F431101, 0xFFFFFF01⟩,
    ⟨0x100, 32, 4, "SENSOR", .ro, 0x0, 0xC0000FFF⟩,
    ⟨0x200, 1, 0, "THROTTLE_TICKS", .cnt, 0x0, 0xFFFFFFFF⟩,
    ⟨0x208, 1, 0, "ALERTS", .cnt, 0x0, 0xFFFFFFFF⟩,
    ⟨0x210, 1, 0, "TRIPS", .cnt, 0x0, 0xFFFFFFFF⟩]

/-- Page type BELL (R49, R53, R54, R58). -/
def rowsBELL : List RegRow :=
  [⟨0x080, 1, 0, "NOW", .ro64, 0x0, 0xFFFFFFFF⟩,
    ⟨0x088, 1, 0, "STATUS", .ro, 0x0, 0xFCFF0F⟩,
    ⟨0x090, 1, 0, "CFG", .rwp, 0x80F000, 0xFFF01F⟩,
    ⟨0x098, 1, 0, "ROOT01", .rwp, 0x0, 0xFFFFFFFF⟩,
    ⟨0x0A0, 1, 0, "ROOT23", .rwp, 0x0, 0xFFFFFFFF⟩,
    ⟨0x0A8, 1, 0, "EPOCH", .rwp64, 0x0, 0xFFFFFFFF⟩,
    ⟨0x200, 32, 8, "DLY", .ro, 0x0, 0xFFFFFFFF⟩,
    ⟨0x204, 32, 8, "OFS", .ro, 0x0, 0xFFFFFFFF⟩]

/-- Page type MGMT (R36 only). -/
def rowsMGMT : List RegRow :=
  []

/-- Page type DBG (R488, R496). -/
def rowsDBG : List RegRow :=
  [⟨0x080, 1, 0, "DBG_STATUS", .ro, 0x0, 0xFE00FFFF⟩,
    ⟨0x090, 1, 0, "SEQ_SEL", .rw, 0x0, 0x3FF0003⟩,
    ⟨0x094, 1, 0, "SEQ_CMD", .wo, 0x0, 0x3⟩,
    ⟨0x098, 1, 0, "SEQ_STATUS", .ro, 0x0, 0xF800FFFF⟩,
    ⟨0x0A0, 4, 8, "SEQ_BP", .rwp, 0x0, 0xFFE3FFFF⟩,
    ⟨0x100, 1, 0, "MRG_TGT", .rwp, 0x0, 0xFFFE0000⟩,
    ⟨0x108, 1, 0, "MRG_CFG", .rwp, 0x402000, 0xC0F0FF00⟩,
    ⟨0x110, 1, 0, "MRG_CMD", .wo, 0x0, 0x3⟩,
    ⟨0x114, 1, 0, "MRG_STATUS", .ro, 0x0, 0xC000FFFF⟩,
    ⟨0x200, 1, 0, "ACCESSES", .cnt, 0x0, 0xFFFFFFFF⟩,
    ⟨0x208, 1, 0, "REFUSED", .cnt, 0x0, 0xFFFFFFFF⟩,
    ⟨0x210, 1, 0, "MARGIN_RUNS", .cnt, 0x0, 0xFFFFFFFF⟩]
  ++ [⟨0x400, 128, 4, "DMI", .rw, 0x0, 0xFFFFFFFF⟩,
    ⟨0x800, 64, 4, "MRG_EDGE", .ro, 0x0, 0xFFFF⟩]

/-- Page type GATE (R36 only). -/
def rowsGATE : List RegRow :=
  []

/-- Page type THIM (R462, R466). -/
def rowsTHIM : List RegRow :=
  [⟨0x080, 1, 0, "THIM_STATUS", .ro, 0x0, 0xC000FFFF⟩,
    ⟨0x088, 1, 0, "THIM_CFG", .rwp, 0x10000000, 0xFF00001F⟩,
    ⟨0x090, 1, 0, "THIM_RATE", .rwp, 0x1F401F40, 0xFFFFFFFF⟩,
    ⟨0x098, 1, 0, "MB_DOORBELL", .w1, 0x0, 0xFFFF⟩,
    ⟨0x100, 1, 0, "ACCESSES", .cnt, 0x0, 0xFFFFFFFF⟩,
    ⟨0x108, 1, 0, "REFUSED", .cnt, 0x0, 0xFFFFFFFF⟩,
    ⟨0x110, 1, 0, "HELD_TICKS", .cnt, 0x0, 0xFFFFFFFF⟩,
    ⟨0x118, 1, 0, "SNOOPS", .cnt, 0x0, 0xFFFFFFFF⟩,
    ⟨0x200, 32, 32, "WCTL", .rwp, 0x0, 0xF800000F⟩,
    ⟨0x208, 32, 32, "GBASE", .rwp, 0x0, 0x1FFFFFFF⟩,
    ⟨0x210, 32, 32, "PBASE", .rwp, 0x0, 0xFFFFFFF⟩,
    ⟨0x218, 32, 32, "SIZE", .rwp, 0x0, 0x1FFFFFFF⟩]
  ++ [⟨0xC00, 256, 4, "MB", .rw, 0x0, 0xFFFFFFFF⟩]

/-- Page type STCH (R465). -/
def rowsSTCH : List RegRow :=
  [⟨0x080, 1, 0, "STCH_STATUS", .ro, 0x0, 0xF800FFFF⟩,
    ⟨0x088, 1, 0, "STCH_CFG", .rwp, 0x0, 0xFFFF⟩,
    ⟨0x100, 1, 0, "FLITS_TX", .cnt, 0x0, 0xFFFFFFFF⟩,
    ⟨0x108, 1, 0, "FLITS_RX", .cnt, 0x0, 0xFFFFFFFF⟩,
    ⟨0x110, 1, 0, "CRC_FAIL", .cnt, 0x0, 0xFFFFFFFF⟩,
    ⟨0x118, 1, 0, "REPLAYS", .cnt, 0x0, 0xFFFFFFFF⟩,
    ⟨0x120, 1, 0, "MOD_OUTS", .cnt, 0x0, 0xFFFFFFFF⟩]

/-- Page type CORE (R130, R158). -/
def rowsCORE : List RegRow :=
  [⟨0x080, 1, 0, "CORE_STATUS", .ro, 0x0, 0x1FF0F⟩,
    ⟨0x088, 1, 0, "CORE_CFG", .rwp, 0x3E801, 0xFFF31⟩,
    ⟨0x090, 1, 0, "BANK_GATE", .rwp, 0x0, 0xFFFFFFFF⟩,
    ⟨0x098, 1, 0, "BANK_ASLEEP", .ro, 0x0, 0xFFFFFFFF⟩,
    ⟨0x09C, 1, 0, "BANK_PEND", .ro, 0x0, 0xFFFFFFFF⟩,
    ⟨0x0A0, 1, 0, "STORE_ERR", .ro, 0x0, 0xFFC007FF⟩,
    ⟨0x0A8, 1, 0, "ECC_CORR", .cnt, 0x0, 0xFFFFFFFF⟩,
    ⟨0x0B0, 1, 0, "ECC_UNCORR", .cnt, 0x0, 0xFFFFFFFF⟩,
    ⟨0x0B8, 1, 0, "WIN_REFUSED", .cnt, 0x0, 0xFFFFFFFF⟩,
    ⟨0x0C0, 1, 0, "ASLEEP_REFUSED", .cnt, 0x0, 0xFFFFFFFF⟩,
    ⟨0x100, 4, 128, "CTX_STATE", .ro, 0x0, 0xF⟩,
    ⟨0x104, 4, 128, "CTX_PC", .ro, 0x0, 0xFFFF⟩]
  ++ [⟨0x108, 4, 128, "CTX_ENTRY", .rwp, 0x0, 0xFFFF⟩,
    ⟨0x110, 4, 128, "CTX_CMD", .wo, 0x0, 0x3⟩,
    ⟨0x118, 4, 128, "CS_BB", .rwp, 0x0, 0x1FF00FF⟩,
    ⟨0x120, 4, 128, "CL_BB", .rwp, 0x0, 0xFFF07FF⟩,
    ⟨0x128, 4, 128, "DR_BASE", .rwp, 0x0, 0xFFFFFF⟩,
    ⟨0x130, 4, 128, "DR_BOUND", .rwp, 0x0, 0x1FFFFFF⟩,
    ⟨0x138, 4, 128, "CM_BASE", .rwp, 0x0, 0xFFFFFFFF⟩,
    ⟨0x140, 4, 128, "CM_BOUND", .rwp, 0x0, 0xFFFFFFFF⟩,
    ⟨0x148, 4, 128, "CTX_INSTR", .cnt, 0x0, 0xFFFFFFFF⟩,
    ⟨0x400, 1, 0, "ENG_STATUS", .ro, 0x0, 0xFFFFFFFF⟩,
    ⟨0x408, 1, 0, "ENG_CFG", .rwp, 0x100, 0xF03⟩,
    ⟨0x410, 1, 0, "ENG_BIST_RESULT", .ro, 0xFFFF00, 0xF0FFFFFF⟩]
  ++ [⟨0x414, 1, 0, "ENG_SPARE", .ro, 0x81808180, 0xFFFFFFFF⟩,
    ⟨0x418, 1, 0, "ENG_RESIDUE", .ro, 0x0, 0x80FFFFFF⟩,
    ⟨0x420, 1, 0, "ENG_INSTR", .cnt, 0x0, 0xFFFFFFFF⟩,
    ⟨0x428, 1, 0, "ENG_ROWCYC", .cnt, 0x0, 0xFFFFFFFF⟩,
    ⟨0x430, 1, 0, "ENG_STALL", .cnt, 0x0, 0xFFFFFFFF⟩,
    ⟨0x438, 1, 0, "ENG_PAUSE", .cnt, 0x0, 0xFFFFFFFF⟩,
    ⟨0x440, 1, 0, "ENG_COLL", .cnt, 0x0, 0xFFFFFFFF⟩,
    ⟨0x448, 1, 0, "ENG_RESCNT", .cnt, 0x0, 0xFFFFFFFF⟩,
    ⟨0x500, 1, 0, "LOST_DLV", .cnt, 0x0, 0xFFFFFFFF⟩,
    ⟨0x508, 1, 0, "LOST_DRN", .cnt, 0x0, 0xFFFFFFFF⟩,
    ⟨0x510, 1, 0, "LOST_ENGRD", .cnt, 0x0, 0xFFFFFFFF⟩,
    ⟨0x518, 1, 0, "LOST_VEC", .cnt, 0x0, 0xFFFFFFFF⟩]
  ++ [⟨0x520, 1, 0, "LOST_BOB0", .cnt, 0x0, 0xFFFFFFFF⟩,
    ⟨0x528, 1, 0, "LOST_BOB1", .cnt, 0x0, 0xFFFFFFFF⟩,
    ⟨0x530, 1, 0, "LOST_SEQ", .cnt, 0x0, 0xFFFFFFFF⟩,
    ⟨0x538, 1, 0, "LOST_SCRUB", .cnt, 0x0, 0xFFFFFFFF⟩,
    ⟨0x540, 1, 0, "GUARD_WINS", .cnt, 0x0, 0xFFFFFFFF⟩,
    ⟨0x548, 1, 0, "VEC_INSTR", .cnt, 0x0, 0xFFFFFFFF⟩,
    ⟨0x550, 1, 0, "VEC_BUSY", .cnt, 0x0, 0xFFFFFFFF⟩,
    ⟨0x600, 8, 64, "WIN_BASE", .rwp, 0x0, 0x1FFFF⟩,
    ⟨0x608, 8, 64, "WIN_BOUND", .rwp, 0x0, 0xC003FFFF⟩,
    ⟨0x610, 8, 64, "WIN_CHIPS", .rwp, 0x0, 0xFFFFFFFF⟩,
    ⟨0x618, 8, 64, "WIN_SRCMASK", .rwp, 0x0, 0xFFFF01FF⟩,
    ⟨0x620, 8, 64, "WIN_EXPIRY", .rwp64, 0x0, 0xFFFFFFFF⟩]
  ++ [⟨0x630, 8, 64, "WIN_TALLY", .rwp, 0x0, 0xFFFFFFFF⟩,
    ⟨0x638, 8, 64, "WIN_RECV", .ro, 0x0, 0xFFFFFFFF⟩,
    ⟨0x63C, 8, 64, "WIN_CTL", .ctl, 0x0, 0xF3F3⟩]

/-- Page type CLST (R159). -/
def rowsCLST : List RegRow :=
  [⟨0x080, 1, 0, "CLST_STATUS", .ro, 0x0, 0xFFFF0001⟩,
    ⟨0x088, 1, 0, "CLST_CFG", .rwp, 0x3E801, 0xFFF31⟩,
    ⟨0x090, 1, 0, "BANK_GATE", .rwp64, 0x0, 0xFFFFFFFF⟩,
    ⟨0x0A0, 1, 0, "BANK_ASLEEP", .ro64, 0x0, 0xFFFFFFFF⟩,
    ⟨0x0A8, 1, 0, "BANK_PEND", .ro64, 0x0, 0xFFFFFFFF⟩,
    ⟨0x0B0, 1, 0, "STORE_ERR", .ro, 0x0, 0xFFC007FF⟩,
    ⟨0x0B8, 1, 0, "ECC_CORR", .cnt, 0x0, 0xFFFFFFFF⟩,
    ⟨0x0C0, 1, 0, "ECC_UNCORR", .cnt, 0x0, 0xFFFFFFFF⟩,
    ⟨0x0C8, 1, 0, "WIN_REFUSED", .cnt, 0x0, 0xFFFFFFFF⟩,
    ⟨0x0D0, 1, 0, "ASLEEP_REFUSED", .cnt, 0x0, 0xFFFFFFFF⟩,
    ⟨0x100, 1, 0, "LOST_DLV", .cnt, 0x0, 0xFFFFFFFF⟩,
    ⟨0x108, 1, 0, "LOST_BOB0", .cnt, 0x0, 0xFFFFFFFF⟩]
  ++ [⟨0x110, 1, 0, "LOST_BOB1", .cnt, 0x0, 0xFFFFFFFF⟩,
    ⟨0x118, 1, 0, "LOST_PORT0", .cnt, 0x0, 0xFFFFFFFF⟩,
    ⟨0x120, 1, 0, "LOST_PORT1", .cnt, 0x0, 0xFFFFFFFF⟩,
    ⟨0x128, 1, 0, "LOST_PORT2", .cnt, 0x0, 0xFFFFFFFF⟩,
    ⟨0x130, 1, 0, "LOST_PORT3", .cnt, 0x0, 0xFFFFFFFF⟩,
    ⟨0x138, 1, 0, "LOST_PORT4", .cnt, 0x0, 0xFFFFFFFF⟩,
    ⟨0x140, 1, 0, "LOST_PORT5", .cnt, 0x0, 0xFFFFFFFF⟩,
    ⟨0x148, 1, 0, "LOST_PORT6", .cnt, 0x0, 0xFFFFFFFF⟩,
    ⟨0x150, 1, 0, "LOST_PORT7", .cnt, 0x0, 0xFFFFFFFF⟩,
    ⟨0x158, 1, 0, "LOST_PORT8", .cnt, 0x0, 0xFFFFFFFF⟩,
    ⟨0x160, 1, 0, "GUARD_WINS", .cnt, 0x0, 0xFFFFFFFF⟩,
    ⟨0x400, 16, 64, "WIN_BASE", .rwp, 0x0, 0x1FFFF⟩]
  ++ [⟨0x408, 16, 64, "WIN_BOUND", .rwp, 0x0, 0xC003FFFF⟩,
    ⟨0x410, 16, 64, "WIN_CHIPS", .rwp, 0x0, 0xFFFFFFFF⟩,
    ⟨0x418, 16, 64, "WIN_SRCMASK", .rwp, 0x0, 0xFFFF01FF⟩,
    ⟨0x420, 16, 64, "WIN_EXPIRY", .rwp64, 0x0, 0xFFFFFFFF⟩,
    ⟨0x430, 16, 64, "WIN_TALLY", .rwp, 0x0, 0xFFFFFFFF⟩,
    ⟨0x438, 16, 64, "WIN_RECV", .ro, 0x0, 0xFFFFFFFF⟩,
    ⟨0x43C, 16, 64, "WIN_CTL", .ctl, 0x0, 0xFF3F3⟩]

/-- Page type BOB (R212). -/
def rowsBOB : List RegRow :=
  [⟨0x080, 1, 0, "BOB_STATUS", .ro, 0x0, 0xFFFF03FF⟩,
    ⟨0x088, 1, 0, "BOB_CFG", .rwp, 0x3E8CFFFF, 0xFFFCFFFF⟩,
    ⟨0x090, 4, 4, "QLEVEL", .ro, 0x0, 0xFFFFFFFF⟩,
    ⟨0x0A0, 1, 0, "DONE", .ro64, 0x0, 0xFFFFFFFF⟩,
    ⟨0x0A8, 1, 0, "EXPOSED", .ro64, 0x0, 0xFFFFFFFF⟩,
    ⟨0x0B0, 1, 0, "EXPOSED_LEN", .ro, 0x0, 0xFFFFFFFF⟩,
    ⟨0x100, 1, 0, "BYTES_RD", .cnt, 0x0, 0xFFFFFFFF⟩,
    ⟨0x108, 1, 0, "BYTES_WR", .cnt, 0x0, 0xFFFFFFFF⟩,
    ⟨0x110, 1, 0, "FRAMES_TX", .cnt, 0x0, 0xFFFFFFFF⟩,
    ⟨0x118, 1, 0, "FRAMES_FAILED", .cnt, 0x0, 0xFFFFFFFF⟩,
    ⟨0x120, 1, 0, "DESC_FAILED", .cnt, 0x0, 0xFFFFFFFF⟩,
    ⟨0x128, 1, 0, "UNMIRRORED", .cnt, 0x0, 0xFFFFFFFF⟩]
  ++ [⟨0x130, 1, 0, "POISON_LINES", .cnt, 0x0, 0xFFFFFFFF⟩,
    ⟨0x138, 1, 0, "GROUPS_EXPANDED", .cnt, 0x0, 0xFFFFFFFF⟩,
    ⟨0x140, 1, 0, "STRAY_ACK", .cnt, 0x0, 0xFFFFFFFF⟩,
    ⟨0x200, 16, 4, "POST_D", .rw, 0x0, 0xFFFFFFFF⟩,
    ⟨0x240, 1, 0, "POST_CMD", .wo, 0x0, 0x8000000F⟩,
    ⟨0x244, 1, 0, "POST_RESULT", .ro, 0x0, 0x8000FFFF⟩,
    ⟨0x300, 1, 0, "LAND_FULL", .w1c, 0x0, 0xFFFFFFFF⟩]

/-- Page type MEMC (R233). -/
def rowsMEMC : List RegRow :=
  [⟨0x080, 1, 0, "MEMC_STATUS", .ro, 0x0, 0xF0FFFFFF⟩,
    ⟨0x088, 1, 0, "MEMC_CFG", .rwp, 0x2108001, 0xFFFF001⟩,
    ⟨0x090, 1, 0, "MAP", .rwp, 0x40, 0x7F⟩,
    ⟨0x098, 1, 0, "TEMP", .ro, 0x0, 0x3FF⟩,
    ⟨0x0A0, 1, 0, "ERR_LOG0", .ro, 0x0, 0xFFFFFFFF⟩,
    ⟨0x0A4, 1, 0, "ERR_LOG1", .ro, 0x0, 0x3FF⟩,
    ⟨0x0A8, 1, 0, "REPAIR_LOG", .ro64, 0xFFF0000000000000, 0xFFFFFFFF⟩,
    ⟨0x100, 1, 0, "CE", .cnt, 0x0, 0xFFFFFFFF⟩,
    ⟨0x108, 1, 0, "UE", .cnt, 0x0, 0xFFFFFFFF⟩,
    ⟨0x110, 1, 0, "POISON_RD", .cnt, 0x0, 0xFFFFFFFF⟩,
    ⟨0x118, 1, 0, "POISON_WR", .cnt, 0x0, 0xFFFFFFFF⟩,
    ⟨0x120, 1, 0, "ROW_REMAPS", .cnt, 0x0, 0xFFFFFFFF⟩]
  ++ [⟨0x128, 1, 0, "PAGES_RETIRED", .cnt, 0x0, 0xFFFFFFFF⟩,
    ⟨0x130, 1, 0, "SCRUB_LINES", .cnt, 0x0, 0xFFFFFFFF⟩,
    ⟨0x138, 1, 0, "BYTES_RD", .cnt, 0x0, 0xFFFFFFFF⟩,
    ⟨0x140, 1, 0, "BYTES_WR", .cnt, 0x0, 0xFFFFFFFF⟩,
    ⟨0x148, 1, 0, "MILL_BYTES", .cnt, 0x0, 0xFFFFFFFF⟩,
    ⟨0x150, 1, 0, "HOLD_TICKS", .cnt, 0x0, 0xFFFFFFFF⟩,
    ⟨0x200, 1, 0, "TBL_ADDR", .rw, 0x0, 0xE00007FF⟩,
    ⟨0x204, 1, 0, "TBL_DATA", .rw, 0x0, 0xFFFFFFFF⟩,
    ⟨0x208, 1, 0, "TBL_DATA_C", .rw, 0x0, 0xFFFFFFFF⟩]

/-- Page type MILL (R250). -/
def rowsMILL : List RegRow :=
  [⟨0x080, 1, 0, "MILL_STATUS", .ro, 0x0, 0x3FCFFF⟩,
    ⟨0x088, 1, 0, "MILL_CFG", .rwp, 0x100, 0xF03⟩,
    ⟨0x090, 1, 0, "MILL_LASTERR", .ro, 0x0, 0xFFFFFFFF⟩,
    ⟨0x100, 1, 0, "CMDS", .cnt, 0x0, 0xFFFFFFFF⟩,
    ⟨0x108, 1, 0, "PAGES", .cnt, 0x0, 0xFFFFFFFF⟩,
    ⟨0x110, 1, 0, "KEYS", .cnt, 0x0, 0xFFFFFFFF⟩,
    ⟨0x118, 1, 0, "BUSY_CYC", .cnt, 0x0, 0xFFFFFFFF⟩,
    ⟨0x120, 1, 0, "PAUSE_CYC", .cnt, 0x0, 0xFFFFFFFF⟩,
    ⟨0x128, 1, 0, "RESCNT", .cnt, 0x0, 0xFFFFFFFF⟩,
    ⟨0x130, 1, 0, "FAILED", .cnt, 0x0, 0xFFFFFFFF⟩]

/-- Page type WELL (R355). -/
def rowsWELL : List RegRow :=
  [⟨0x080, 1, 0, "WELL_STATUS", .ro, 0x10000000, 0x1FFFFF01⟩,
    ⟨0x088, 1, 0, "WELL_CFG", .rwp, 0x201, 0xF01⟩,
    ⟨0x090, 1, 0, "TAINT", .ro, 0x0, 0xFFFFFFFF⟩,
    ⟨0x094, 1, 0, "TAINT_GRP", .ro, 0x0, 0x800000FF⟩,
    ⟨0x098, 1, 0, "TALLY_EPOCH", .ro, 0x0, 0xFFFFFFFF⟩,
    ⟨0x100, 1, 0, "INSTANCES", .cnt, 0x0, 0xFFFFFFFF⟩,
    ⟨0x108, 1, 0, "CHUNKS_TX", .cnt, 0x0, 0xFFFFFFFF⟩,
    ⟨0x110, 1, 0, "CHUNKS_RX", .cnt, 0x0, 0xFFFFFFFF⟩,
    ⟨0x118, 1, 0, "CHUNKS_FOLDED", .cnt, 0x0, 0xFFFFFFFF⟩,
    ⟨0x120, 1, 0, "PASSTHRU", .cnt, 0x0, 0xFFFFFFFF⟩,
    ⟨0x128, 1, 0, "RESENDS", .cnt, 0x0, 0xFFFFFFFF⟩,
    ⟨0x130, 1, 0, "MISSING", .cnt, 0x0, 0xFFFFFFFF⟩]
  ++ [⟨0x138, 1, 0, "DIVERGED", .cnt, 0x0, 0xFFFFFFFF⟩,
    ⟨0x140, 1, 0, "STALE_CHUNK", .cnt, 0x0, 0xFFFFFFFF⟩,
    ⟨0x200, 1, 0, "TBL_ADDR", .rw, 0x0, 0xE0000FFF⟩,
    ⟨0x204, 1, 0, "TBL_DATA", .rw, 0x0, 0xFFFFFFFF⟩,
    ⟨0x208, 1, 0, "TBL_DATA_C", .rw, 0x0, 0xFFFFFFFF⟩]

/-- Page type DRT (R311, R63, R65). -/
def rowsDRT : List RegRow :=
  [⟨0x080, 1, 0, "DRT_STATUS", .ro, 0x0, 0xFFFF⟩,
    ⟨0x088, 1, 0, "DRT_CFG", .rwp, 0x200A0001, 0xFFFF0001⟩,
    ⟨0x090, 1, 0, "CHIP", .rwp, 0x0, 0x1FFFF⟩,
    ⟨0x098, 1, 0, "SLICE", .rwp, 0x0, 0x3F⟩,
    ⟨0x0A0, 1, 0, "PORT_EN", .rwp, 0x0, 0xFF⟩,
    ⟨0x0B0, 1, 0, "JOB", .rwp, 0x0, 0xFFFFFFFF⟩,
    ⟨0x100, 1, 0, "PRK_SWAP", .rwp, 0x0, 0xFFFFFFFF⟩,
    ⟨0x108, 1, 0, "SWAP_ARMED", .ro, 0x0, 0xFFFFFFFF⟩,
    ⟨0x10C, 1, 0, "SWAP_DONE", .ro, 0x0, 0xFFFFFFFF⟩,
    ⟨0x120, 1, 0, "FLOW_ADDR", .rw, 0x0, 0x80000FFF⟩,
    ⟨0x124, 1, 0, "FLOW_DATA0", .rw, 0x0, 0x8FFFFFFF⟩,
    ⟨0x128, 1, 0, "FLOW_DATA1", .rw, 0x0, 0xFFFF⟩]
  ++ [⟨0x12C, 1, 0, "FLOW_DATA0_C", .rw, 0x0, 0xFFFFFFFF⟩,
    ⟨0x130, 1, 0, "FLOW_DATA1_C", .rw, 0x0, 0xFFFFFFFF⟩,
    ⟨0x140, 1, 0, "RT_ADDR", .rw, 0x0, 0x8000FFFF⟩,
    ⟨0x144, 1, 0, "RT_DATA", .rw, 0x0, 0xFFFFFFFF⟩,
    ⟨0x148, 1, 0, "RT_DATA_C", .rw, 0x0, 0xFFFFFFFF⟩,
    ⟨0x180, 1, 0, "LOOKUPS", .cnt, 0x0, 0xFFFFFFFF⟩,
    ⟨0x188, 1, 0, "SLICE_REFUSED", .cnt, 0x0, 0xFFFFFFFF⟩,
    ⟨0x190, 1, 0, "ROUTE_REFUSED", .cnt, 0x0, 0xFFFFFFFF⟩,
    ⟨0x198, 1, 0, "BACKUP_USED", .cnt, 0x0, 0xFFFFFFFF⟩,
    ⟨0x1A0, 1, 0, "ALT_USED", .cnt, 0x0, 0xFFFFFFFF⟩,
    ⟨0x1A8, 1, 0, "TRANSIT", .cnt, 0x0, 0xFFFFFFFF⟩,
    ⟨0x1B0, 1, 0, "CREDIT_DROP", .cnt, 0x0, 0xFFFFFFFF⟩]
  ++ [⟨0x200, 8, 8, "PEER_JOB", .ro, 0x0, 0xFFFFFFFF⟩,
    ⟨0x204, 8, 8, "PEER_INFO", .ro, 0x0, 0x8000003F⟩]

/-- Page type PRK (R60, R62, R67). -/
def rowsPRK : List RegRow :=
  [⟨0x080, 1, 0, "STATUS", .ro, 0x1, 0xF0FFFFFF⟩,
    ⟨0x088, 1, 0, "SEAL", .rwp, 0x0, 0x1⟩,
    ⟨0x100, 1, 0, "TBL_ADDR", .rw, 0x0, 0x80001FFF⟩,
    ⟨0x104, 1, 0, "TBL_DATA", .rw, 0x0, 0xFFFFFFFF⟩,
    ⟨0x110, 1, 0, "LATE_CNT", .cnt, 0x0, 0xFFFFFFFF⟩,
    ⟨0x118, 1, 0, "NOSLOT_CNT", .cnt, 0x0, 0xFFFFFFFF⟩]

/-- Page type SEL (R272). -/
def rowsSEL : List RegRow :=
  [⟨0x080, 1, 0, "SEL_STATUS", .ro, 0x0, 0xF7F3F7F⟩,
    ⟨0x088, 1, 0, "SEL_CFG", .rwp, 0xF2081401, 0xFFFFFC01⟩,
    ⟨0x090, 1, 0, "SEL_CMD", .wo, 0x0, 0x3F0107⟩,
    ⟨0x098, 1, 0, "TEMP", .ro, 0x0, 0xFFF0FFF⟩,
    ⟨0x09C, 1, 0, "LASER", .ro, 0x0, 0xE000FFFF⟩,
    ⟨0x0A0, 2, 8, "PORT_STATE", .ro, 0x0, 0xFF0000FF⟩,
    ⟨0x0A4, 2, 8, "PORT_LANES", .ro, 0x0, 0xFFFFFFFF⟩,
    ⟨0x100, 64, 4, "LANE_STATUS", .ro, 0x0, 0xF0FFFFFF⟩,
    ⟨0x200, 1, 0, "TBL_ADDR", .rw, 0x0, 0xE0001FFF⟩,
    ⟨0x204, 1, 0, "TBL_DATA", .rw, 0x0, 0xFFFFFFFF⟩,
    ⟨0x300, 1, 0, "WRONG_LOCK", .cnt, 0x0, 0xFFFFFFFF⟩,
    ⟨0x308, 1, 0, "HOLDS", .cnt, 0x0, 0xFFFFFFFF⟩]
  ++ [⟨0x310, 1, 0, "RELOCK_FAIL", .cnt, 0x0, 0xFFFFFFFF⟩,
    ⟨0x318, 1, 0, "RECALS", .cnt, 0x0, 0xFFFFFFFF⟩,
    ⟨0x320, 1, 0, "OPEN_FIBRE", .cnt, 0x0, 0xFFFFFFFF⟩,
    ⟨0x328, 1, 0, "WAKE_TX", .cnt, 0x0, 0xFFFFFFFF⟩,
    ⟨0x330, 1, 0, "WAKE_RX", .cnt, 0x0, 0xFFFFFFFF⟩,
    ⟨0x338, 1, 0, "DARK_ENTRIES", .cnt, 0x0, 0xFFFFFFFF⟩,
    ⟨0x340, 1, 0, "WAKE_FAIL", .cnt, 0x0, 0xFFFFFFFF⟩]

/-- Page type LNK (R292). -/
def rowsLNK : List RegRow :=
  [⟨0x080, 1, 0, "LNK_STATUS", .ro, 0x0, 0xFFFFFFFF⟩,
    ⟨0x088, 1, 0, "LNK_CFG", .rwp, 0x32282603, 0xFFFFFF03⟩,
    ⟨0x090, 1, 0, "LNK_CMD", .wo, 0x0, 0x1⟩,
    ⟨0x098, 1, 0, "PEER", .ro, 0x0, 0xFFFFFC00⟩,
    ⟨0x09C, 1, 0, "LANE_MAP", .ro, 0x0, 0xFFFFFFFF⟩,
    ⟨0x0A0, 4, 4, "CREDIT", .ro, 0x0, 0xFFFFFFFF⟩,
    ⟨0x100, 1, 0, "FRAMES_TX", .cnt, 0x0, 0xFFFFFFFF⟩,
    ⟨0x108, 1, 0, "FRAMES_RX", .cnt, 0x0, 0xFFFFFFFF⟩,
    ⟨0x110, 1, 0, "BYTES_TX", .cnt, 0x0, 0xFFFFFFFF⟩,
    ⟨0x118, 1, 0, "BYTES_RX", .cnt, 0x0, 0xFFFFFFFF⟩,
    ⟨0x120, 1, 0, "CRC_FAIL", .cnt, 0x0, 0xFFFFFFFF⟩,
    ⟨0x128, 1, 0, "CMP_FAIL", .cnt, 0x0, 0xFFFFFFFF⟩]
  ++ [⟨0x130, 1, 0, "NAKS", .cnt, 0x0, 0xFFFFFFFF⟩,
    ⟨0x138, 1, 0, "RESTARTS", .cnt, 0x0, 0xFFFFFFFF⟩,
    ⟨0x140, 1, 0, "RETX_FRAMES", .cnt, 0x0, 0xFFFFFFFF⟩,
    ⟨0x148, 1, 0, "MALFORMED", .cnt, 0x0, 0xFFFFFFFF⟩,
    ⟨0x150, 1, 0, "CREDIT_WAIT", .cnt, 0x0, 0xFFFFFFFF⟩,
    ⟨0x158, 1, 0, "AUDIT_FAIL", .cnt, 0x0, 0xFFFFFFFF⟩,
    ⟨0x160, 1, 0, "RETRAINS", .cnt, 0x0, 0xFFFFFFFF⟩,
    ⟨0x168, 1, 0, "LANE_OUTS", .cnt, 0x0, 0xFFFFFFFF⟩,
    ⟨0x170, 1, 0, "FAILED_LINK", .cnt, 0x0, 0xFFFFFFFF⟩,
    ⟨0x200, 16, 8, "FEC_CORR", .ro, 0x0, 0xFFFFFFFF⟩,
    ⟨0x204, 16, 8, "FEC_UNCORR", .ro, 0x0, 0xFFFFFFFF⟩]

/-- Page type CMN (R334). -/
def rowsCMN : List RegRow :=
  [⟨0x080, 1, 0, "CMN_STATUS", .ro, 0x0, 0xC01FFC7F⟩,
    ⟨0x088, 1, 0, "CMN_CFG", .rwp, 0x64100000, 0xFFFF0000⟩,
    ⟨0x090, 1, 0, "HB_CFG", .rwp, 0x80, 0xF0⟩,
    ⟨0x098, 1, 0, "FENCE_REQ", .wo, 0x0, 0x8000FFFF⟩,
    ⟨0x09C, 1, 0, "SAMPLER_PASS", .wo, 0x0, 0xC000FFFF⟩,
    ⟨0x0A0, 1, 0, "ATOM_LOG", .ro, 0x0, 0xFFFFFFFF⟩,
    ⟨0x0A4, 1, 0, "ATOM_SEQ", .ro, 0x0, 0xFFFFFFFF⟩,
    ⟨0x0A8, 1, 0, "ATOM_OFS", .ro64, 0x0, 0xFFFFFFFF⟩,
    ⟨0x100, 1, 0, "LOADS", .cnt, 0x0, 0xFFFFFFFF⟩,
    ⟨0x108, 1, 0, "STORES", .cnt, 0x0, 0xFFFFFFFF⟩,
    ⟨0x110, 1, 0, "ATOMICS", .cnt, 0x0, 0xFFFFFFFF⟩,
    ⟨0x118, 1, 0, "FLAG_STORES", .cnt, 0x0, 0xFFFFFFFF⟩]
  ++ [⟨0x120, 1, 0, "DEAD_TARGET", .cnt, 0x0, 0xFFFFFFFF⟩,
    ⟨0x128, 1, 0, "NO_ACK", .cnt, 0x0, 0xFFFFFFFF⟩,
    ⟨0x130, 1, 0, "TARGET_LOST", .cnt, 0x0, 0xFFFFFFFF⟩,
    ⟨0x138, 1, 0, "NO_REPLY", .cnt, 0x0, 0xFFFFFFFF⟩,
    ⟨0x140, 1, 0, "RETRANSMITS", .cnt, 0x0, 0xFFFFFFFF⟩,
    ⟨0x148, 1, 0, "STALE_RX", .cnt, 0x0, 0xFFFFFFFF⟩,
    ⟨0x150, 1, 0, "FENCED_REFUSED", .cnt, 0x0, 0xFFFFFFFF⟩,
    ⟨0x158, 1, 0, "ORDER_FAILED", .cnt, 0x0, 0xFFFFFFFF⟩,
    ⟨0x160, 1, 0, "FENCES", .cnt, 0x0, 0xFFFFFFFF⟩,
    ⟨0x168, 1, 0, "REFUSED_ACCESS", .cnt, 0x0, 0xFFFFFFFF⟩,
    ⟨0x200, 1, 0, "TBL_ADDR", .rw, 0x0, 0xE00003FF⟩,
    ⟨0x204, 1, 0, "TBL_DATA", .rw, 0x0, 0xFFFFFFFF⟩]
  ++ [⟨0x208, 1, 0, "TBL_DATA_C", .rw, 0x0, 0xFFFFFFFF⟩,
    ⟨0x300, 32, 4, "SILENT", .ro, 0x0, 0xFFFF00FF⟩]

/-- Page type LEDG (R335). -/
def rowsLEDG : List RegRow :=
  [⟨0x080, 1, 0, "LEDG_STATUS", .ro, 0x0, 0xFFFFFFF⟩,
    ⟨0x100, 1, 0, "APPLIED", .cnt, 0x0, 0xFFFFFFFF⟩,
    ⟨0x108, 1, 0, "CACHED", .cnt, 0x0, 0xFFFFFFFF⟩,
    ⟨0x110, 1, 0, "STALE", .cnt, 0x0, 0xFFFFFFFF⟩,
    ⟨0x118, 1, 0, "TWINS_SENT", .cnt, 0x0, 0xFFFFFFFF⟩,
    ⟨0x120, 1, 0, "TWINS_RECEIVED", .cnt, 0x0, 0xFFFFFFFF⟩,
    ⟨0x128, 1, 0, "UNMIRRORED", .cnt, 0x0, 0xFFFFFFFF⟩,
    ⟨0x200, 1, 0, "LQ_KEY0", .rw, 0x0, 0xFFFFFFFF⟩,
    ⟨0x204, 1, 0, "LQ_KEY1", .rw, 0x0, 0xFFFFFFFF⟩,
    ⟨0x208, 1, 0, "LQ_CMD", .wo, 0x0, 0x80000003⟩,
    ⟨0x20C, 1, 0, "LQ_RESULT", .ro, 0x0, 0xC000FFFF⟩,
    ⟨0x210, 1, 0, "LQ_VAL", .ro64, 0x0, 0xFFFFFFFF⟩]

/-- The register rows of a page type (R34); a type with no rows is a hole or has only the common registers. -/
def rowsOf (type : Nat) : List RegRow :=
  match type with
  | 0x01 => rowsFUSE
  | 0x02 => rowsSEC
  | 0x03 => rowsREEVE
  | 0x04 => rowsHRTH
  | 0x05 => rowsPWR
  | 0x06 => rowsTHRM
  | 0x07 => rowsBELL
  | 0x08 => rowsMGMT
  | 0x09 => rowsDBG
  | 0x0A => rowsGATE
  | 0x0B => rowsTHIM
  | 0x0C => rowsSTCH
  | 0x10 => rowsCORE
  | 0x11 => rowsCORE
  | 0x12 => rowsCORE
  | 0x13 => rowsCORE
  | 0x14 => rowsCLST
  | 0x15 => rowsBOB
  | 0x16 => rowsMEMC
  | 0x17 => rowsMILL
  | 0x18 => rowsWELL
  | 0x19 => rowsDRT
  | 0x1A => rowsPRK
  | 0x1B => rowsSEL
  | 0x1C => rowsLNK
  | 0x1D => rowsCMN
  | 0x1E => rowsLEDG
  | _ => []

/-- CAPS.evt_bits: the highest implemented event bit plus one (R36), from each block's event table. -/
def evtBits (type : Nat) : Nat :=
  match type with
  | 0x01 => 7
  | 0x02 => 22
  | 0x03 => 21
  | 0x04 => 18
  | 0x05 => 22
  | 0x06 => 21
  | 0x07 => 23
  | 0x08 => 7
  | 0x09 => 21
  | 0x0A => 7
  | 0x0B => 22
  | 0x0C => 20
  | 0x10 => 30
  | 0x11 => 30
  | 0x12 => 30
  | 0x13 => 30
  | 0x14 => 26
  | 0x15 => 21
  | 0x16 => 28
  | 0x17 => 21
  | 0x18 => 26
  | 0x19 => 29
  | 0x1A => 20
  | 0x1B => 29
  | 0x1C => 30
  | 0x1D => 26
  | 0x1E => 20
  | _ => 0

end Sys2Proof.Machine
end

