-- ==== Sys2Proof/Machine/State.lean ====
section
/-! DEFINITION. The state of the package: the queue of waiting commands, and everything the manual gives the part. -/
namespace Sys2Proof.Machine
open Sys2Proof

/-! ## Registers and pages (02_address_map_and_register_pages.md) -/

/-- The registers every page holds (R36), less CTRL and CTRL_C, which are kept with the paired registers. -/
structure Block where
  state : BlockState
  round : Nat
  /-- The local tick of the last change of state. -/
  since : Nat
  cause : Nat
  evt : Word
  mask : Word
  first : Option Nat
  forced : Word
  tin : DWord
  tout : DWord
  deriving DecidableEq, Repr

/-- A register's name: its page and its offset (R34). -/
structure Reg where
  page : Page
  off : Nat
  deriving DecidableEq, Repr

/-- A value staged for a paired or 64-bit register (R40, R41): the writing agent, the words written so far by their
distance from the register's offset, and the local tick of the last staging write. -/
structure Staged where
  agent : Agent
  words : Map Nat Word
  at_ : Nat
  deriving DecidableEq, Repr

/-- A reading agent's 64-bit latch in a page (R39): the value's offset and the held half. -/
structure Latch where
  off : Nat
  hi : Word
  deriving DecidableEq, Repr

/-- A tally snapshot of an agent in a page (R38). -/
structure Snap where
  tin : DWord
  tout : DWord
  deriving DecidableEq, Repr

/-- A drain in progress (R394): the local tick of the transition, the timeout in ticks and the cause of entry. -/
structure Drain where
  start : Nat
  limit : Nat
  cause : Nat
  deriving DecidableEq, Repr

/-- The register part of the package. -/
structure Regs where
  blocks : Map Page Block
  regs : Map Reg Word
  staged : Map Reg Staged
  latches : Map (Agent × Page) Latch
  snaps : Map (Agent × Page) Snap
  drains : Map Page Drain
  /-- ENABLING blocks that were told to disable (R43). -/
  undo : List Page
  /-- Pages whose entry tables: table number, index, entry and its stored complement (R42). -/
  tables : Map (Page × Nat × Nat) (Word × Word)
  /-- Alerts toward Caselm that it has not yet handled (R37). -/
  alerts : List (Page × Nat)
  deriving DecidableEq, Repr

/-! ## Bell (03_bell_time_and_prickings.md) -/

/-- The states of the bell unit (R54). -/
inductive BellState where
  | unjoined | joining | locked | holdover | unaligned
  deriving DecidableEq, Repr

/-- What a port echoes in its bell frames: the last valid bell frame received since UP (R53). -/
structure Echo where
  depart : DWord
  departFrac : Nat
  arrive : DWord
  arriveFrac : Nat
  deriving DecidableEq, Repr

/-- What the last valid bell frame said of its sender (R53). -/
structure PeerBell where
  hops : Nat
  rootIndex : Nat
  locked : Bool
  root : Chip
  sender : Chip
  deriving DecidableEq, Repr

/-- The bell unit's record of a port. -/
structure BellPort where
  echo : Option Echo
  arrived : Bool
  live : Bool
  silent : Nat
  hbSilent : Nat
  peer : Option PeerBell
  dly : Option Nat
  ofs : Int
  deriving DecidableEq, Repr

/-- The configuration in force (R58): CFG, ROOT01, ROOT23 and EPOCH as taken at the last join. -/
structure BellCfg where
  cfg : Word
  root01 : Word
  root23 : Word
  epoch : DWord
  deriving DecidableEq, Repr

/-- The bell unit (R49–R58, R498). -/
structure BellUnit where
  state : BellState
  hops : Nat
  rootIndex : Nat
  parent : Option (Fin 32)
  ports : Map (Fin 32) BellPort
  inForce : BellCfg
  /-- The join step has been taken (R54). -/
  stepped : Bool
  aligned : Nat
  rootSilent : Nat
  holdRounds : Nat
  judged : Option Nat
  roundDone : Option Nat
  /-- Ticks still to be slewed (R50), and the local tick of the last correction. -/
  slew : Int
  lastSlew : Nat
  ppsEdges : Nat
  ppsAt : Option Nat
  ppsOk : Bool
  tenmOk : Bool
  deriving DecidableEq, Repr

/-! ## Frames and ports (12_sitre_link_layer.md, 13_routing_slices_topology.md) -/

/-- A frame of kinds 0x3–0x8 inside the package (R282): its header fields, with the due time in full, its payload and
its poison mask. For kind 0x3 `off` holds the control type of header byte 20. -/
structure Frame where
  kind : Nat
  cls : Nat
  flag : Bool
  last : Bool
  dst : Chip
  src : Chip
  flow : Nat
  due : DWord
  off : Nat
  inj : Nat
  seq : Word
  payload : List Byte
  poison : Word
  deriving DecidableEq, Repr

/-- The link states (R278). -/
inductive LinkState where
  | down | align | negotiate | up | retrain
  deriving DecidableEq, Repr

/-- The light states of a port (R266). -/
inductive Optic where
  | off | dark | waking | lit
  deriving DecidableEq, Repr

/-- A frame held for retry with its link sequence (R285). -/
structure Held where
  lseq : Nat
  frame : Frame
  deriving DecidableEq, Repr

/-- A frame queued at a port, and the local tick since which it has waited for credits (R304). -/
structure Queued where
  frame : Frame
  since : Option Nat
  deriving DecidableEq, Repr

/-- A peer's identity as its training frames give it (R279, R281). -/
structure PeerId where
  chip : Chip
  port : Nat
  assigned : Bool
  part : Word
  deriving DecidableEq, Repr

/-- Per class C0–C3 counts (R287, R288). -/
structure Credits where
  held : List Nat
  sent : List Nat
  returned : List Nat
  got : List Nat
  freed : List Nat
  deriving DecidableEq, Repr

/-- A port: its link, its PRK queue and copies, its retry buffer and its routing record. -/
structure Port where
  lstate : LinkState
  version : Nat
  /-- OFF, DARK, WAKING or LIT (R266). -/
  optic : Optic
  /-- Lanes whose own transmit and receive rings are LOCKED and verified (R289). -/
  txRing : Half
  rxRing : Half
  txMap : Half
  peerRx : Half
  fecOut : Half
  retry : List Held
  txSeq : Nat
  rxSeq : Nat
  ackAt : Nat
  discarding : Bool
  restart : Bool
  queue : List Queued
  rxbuf : List Frame
  /-- Those of them that wait because the die's router does not accept arriving frames (R310). -/
  rxWait : List Frame
  credits : Credits
  peer : Option PeerId
  lastPeer : Option PeerId
  sentStep : Nat
  gotStep : Nat
  stateAt : Nat
  retrainAt : Option Nat
  noVersion : Bool
  tooLong : Bool
  retrainReq : Bool
  /-- The lanes that the peer's markers say carry its stream (R274). -/
  peerTx : Half
  identityAt : Option Nat
  revoked : Bool
  active : Nat
  sealedA : Bool
  sealedB : Bool
  standbyRes : Nat
  activeRes : Nat
  moved : Bool
  usableFrom : Option Nat
  fenceDue : Bool
  lastVersion : Nat
  /-- The local tick at which the frame now on the line ends (R61, R276), and those at which the next link word, marker and
  training frame are due (R275, R274, R279). -/
  busyUntil : Nat
  wordAt : Nat
  markAt : Nat
  trainAt : Nat
  /-- The marker count, modulo 256 (R274). -/
  markCount : Nat
  /-- RETRAIN runs ALIGN again (R278). -/
  aligning : Bool
  deriving DecidableEq, Repr

/-- A frame at a die router's input: the port it arrived on, or none when this package injected it (R298). -/
structure RouterIn where
  frame : Frame
  arrival : Option (Fin 32)
  deriving DecidableEq, Repr

/-- A die router: its input and its armed swap, a round of 24 bits and a mask of ports (R63). -/
structure Router where
  inq : List RouterIn
  armed : Option (Nat × Nat)
  swapDone : Word
  deriving DecidableEq, Repr

/-- A frame delivered to a die of this package and not yet served (R298 step 2), and the local tick of its delivery. -/
structure Delivered where
  die : Fin 4
  frame : Frame
  arrival : Option (Fin 32)
  at_ : Nat
  /-- Where the payload of a command packet stands: the gateway bobbin and its slot (R209). -/
  slot : Option (Fin 8 × Nat)
  deriving DecidableEq, Repr

/-! ## Contexts, instructions and stores (06_cores_stores_and_windows.md, 07_task_programs.md) -/

/-- The states of a task context (R131). -/
inductive CtxState where
  | idle | running | waiting | stopped | stopping
  deriving DecidableEq, Repr

/-- A status latch (R172): the worst code and the count of retirements whose class is not done. -/
structure Latched where
  worst : Status
  bad : Nat
  deriving DecidableEq, Repr

/-- What a WAITING context waits for (R177–R179, R194). -/
inductive WaitFor where
  | bell (target : DWord)
  | win (store : StoreId) (w : Nat)
  | word (store : StoreId) (off cond : Nat) (value deadline : DWord)
  deriving DecidableEq, Repr

/-- Why a context stops, for its stop record (R174). -/
structure StopInfo where
  status : Status
  cause : Nat
  op : Nat
  pc : Nat
  tok : Option Nat
  at_ : Nat
  disabled : Nat
  deriving DecidableEq, Repr

/-- A task context (R131–R134, R170–R174). -/
structure Ctx where
  state : CtxState
  pc : Nat
  s : Map Nat DWord
  v : Map Nat (BitVec 4096)
  /-- Token counts T0–T7 (R170). -/
  toks : Map Nat Nat
  latches : Map Nat Latched
  sticky : Latched
  policy : Nat
  wait : Option WaitFor
  stop : Option StopInfo
  /-- No issue before this local tick, after a taken branch (R176). -/
  brUntil : Nat
  /-- Order number of the first store since the start that ended with a class other than done (R318). -/
  firstBad : Option Nat
  /-- Debug halt (R489, R490): halted, the breakpoint it came from, a step in progress and its issued instruction, and whether
  the next issue passes an armed breakpoint. -/
  halted : Bool
  bp : Option Nat
  stepping : Bool
  stepInst : Option Nat
  skipBp : Bool
  /-- One more than the array cycle of the last issue, 0 for none since reset: the rotation goes on after the context of the latest (R133). -/
  issuedAt : Nat
  /-- The fetch buffer: up to four lines by their offset from the base, oldest first (R134). -/
  buf : List (Nat × List Byte)
  deriving DecidableEq, Repr

/-- The unit an instruction runs on (R133, R163). -/
inductive UnitKind where
  | sequencer | waitUnit | engine | vector | mill | bobbin | commons
  deriving DecidableEq, Repr

/-- An issued, unretired instruction (R168–R171): its word, the scalar registers it read at issue (R164), and its status
once it has ended. -/
structure Inst where
  id : Nat
  ctx : CtxId
  pc : Nat
  word : BitVec 128
  unit : UnitKind
  a : DWord
  b : DWord
  b1 : DWord
  c : DWord
  d : DWord
  x : DWord
  k : DWord
  /-- The collective block read at issue, and the rows that a dispatch received (R339, R348). -/
  blk : List Byte
  recv : Option Nat
  /-- The worst status so far of the commands of a mill instruction (R191). -/
  worst : Status
  started : Bool
  ended : Option Status
  deriving DecidableEq, Repr

/-- The states of a window (R145). -/
inductive WinState where
  | closed | opened | closing
  deriving DecidableEq, Repr

/-- A window's running state (R145–R148); its configuration is in its registers. -/
structure Win where
  state : WinState
  status : Status
  ended : Bool
  owner : Option CtxId
  recv : Nat
  deriving DecidableEq, Repr

/-- A store's running state (R138, R150–R156): fill in progress, banks asleep, gate requests and fills by bank with
their start ticks, the patrol's row, and the errors of the last 24 hours: bank, whether uncorrectable, and tick. -/
structure Store where
  filling : Option Nat
  asleep : Nat
  pend : Map Nat Nat
  bankFill : Map Nat Nat
  patrolRow : Nat
  patrolAt : Nat
  errs : List (Nat × Bool × Nat)
  deriving DecidableEq, Repr

/-- The bytes of a row of operand B as a held tile keeps them: elements, scales, metadata (R79, R105). -/
structure BRow where
  els : List Byte
  scs : List Byte
  md : List Byte
  deriving DecidableEq, Repr

/-- A held tile as it was loaded (R80, R98, R105): the instruction and the pass it is for, the rows of operand B of its N block, whether
its metadata is valid, and whether a line it was read from was poisoned. -/
structure HeldTile where
  inst : Nat
  pass : Nat
  rows : List BRow
  valid : Bool
  bad : Bool
  deriving DecidableEq, Repr

/-- An engine's running instruction (R105–R121): the instruction, the pass, the rows of the pass already drained, the worst
status so far, while a collective part holds the engine the local tick since which it does (R120), the held tile of the pass, and
whether a failure lets no further row or pass start (R80, R127). -/
structure EngineRun where
  inst : Nat
  pass : Nat
  row : Nat
  status : Status
  coll : Option Nat
  held : HeldTile
  broken : Bool
  deriving DecidableEq, Repr

/-- An engine: what it runs, clock gating, the rotation among contexts, a throttle pause by its start tick and its cycles
(R119–R122), and the next held tile once it is loaded (R112, R130's shadow_valid). -/
structure Engine where
  run : Option EngineRun
  gated : Bool
  idleAt : Nat
  lastCtx : Nat
  pause : Option (Nat × Nat)
  shadow : Option HeldTile
  deriving DecidableEq, Repr

/-! ## Commons (14_commons.md) -/

/-- The source task of a store, for the order of flag stores (R318). -/
inductive SourceTask where
  | ctx (c : CtxId)
  | queue (b : BobId) (q : Nat)
  deriving DecidableEq, Repr

/-- Where a commons request stands: waiting for budget, for the atomic window, held as a flag store, handed to a gateway
bobbin, or sent. -/
inductive ReqStage where
  | budget | window | flagHeld | farWait | gateway | sent
  deriving DecidableEq, Repr

/-- A commons request of a core's sequencer (R190, R314–R323). -/
structure CReq where
  id : Nat
  seq : Word
  inst : Nat
  ctx : CtxId
  kind : Nat
  stage : ReqStage
  chip : Chip
  off : Nat
  len : Nat
  flow : Nat
  dueReq : Option DWord
  flag : Bool
  handle : DWord
  opc : Nat
  wide : Bool
  fetch : Bool
  operand : DWord
  compare : DWord
  dest : Nat
  ledger : Option Word
  copies : Nat
  lateCopies : Nat
  live : Nat
  firstAt : DWord
  deadline : DWord
  /-- Its place in its flow's line while it waits for budget (R66); 0 in no line. -/
  ticket : Nat
  deriving DecidableEq, Repr

/-- A die's atomic window toward one chip (R321): the next sequence, and the sequences outstanding and pinned. -/
structure AtomWin where
  next : Word
  outstanding : List Word
  pinned : List Word
  deriving DecidableEq, Repr

/-- A ledger entry (R322, R324). -/
structure LedgerEntry where
  seq : Word
  old : DWord
  status : Status
  pending : Bool
  /-- What the pending reply needs: the request frame, the twin's item sequence and its ack deadline (R324). -/
  request : Option Frame
  twinSeq : Word
  deadline : DWord
  /-- The mirror's flow, and the twin's place in its line while it waits for budget (R66, R324); 0 in no line. -/
  flow : Nat
  ticket : Nat
  deriving DecidableEq, Repr

/-- A LEDG unit (R322, R324): own entries by source chip and die, twin entries by source chip and die with their
primary, arrivals held under row 2, and whether the twin section is frozen. -/
structure Ledger where
  own : Map (Chip × Nat) (List LedgerEntry)
  twin : Map (Chip × Nat) (List LedgerEntry)
  primary : Option Chip
  frozen : Bool
  held : List Frame
  deriving DecidableEq, Repr

/-- A fence table entry (R328, R334): chip, reason, sampler pass. -/
structure Fence where
  chip : Chip
  reason : Nat
  pass : Bool
  deriving DecidableEq, Repr

/-! ## Bobbins (08_bobbins.md) -/

/-- Who queued a descriptor: a bob.put (its instruction and the core-store offset of the copy), a register posting, or
the commons unit for a far access (R195, R210). -/
inductive DescSource where
  | put (inst : Nat) (ctx : CtxId) (off : Nat)
  | posting
  | far (req : Nat)
  deriving DecidableEq, Repr

/-- A frame a move has sent, by item sequence (R201, R208): its role, where it lies in the move, its deadline and the
status it has ended with. -/
structure MoveFrame where
  seq : Word
  mirror : Bool
  read : Bool
  off : Nat
  len : Nat
  local_ : Nat
  deadline : DWord
  ended : Option Status
  deriving DecidableEq, Repr

/-- An accepted descriptor (R196–R208), with its resolved addresses. -/
structure Desc where
  queue : Nat
  source : DescSource
  op : Nat
  flag : Bool
  twin : Bool
  flow : Nat
  dueReq : Option DWord
  len : Nat
  srcChip : Option Chip
  srcOff : Nat
  dstChip : Option Chip
  dstOff : Nat
  slot : Option Nat
  rows : Nat
  spitch : Nat
  dpitch : Nat
  xpitch : Nat
  xoff : Nat
  mirror : Chip
  tflow : Nat
  tag : Word
  order : Nat
  active : Bool
  /-- Rows or frames still to be issued: byte position in the move. -/
  todo : List (Nat × Nat × Nat)
  frames : List MoveFrame
  status : Status
  stopped : Bool
  mirrorLost : Bool
  poisoned : Nat
  firstFail : Option Nat
  /-- Its place in its flow's line while it waits for budget (R66); 0 in no line. -/
  ticket : Nat
  /-- Units of a twin write that stand in local memory and whose mirror frames are still to be sent (R208). -/
  mtodo : List (Nat × Nat × Nat)
  /-- Its place in the line of the mirror frames' flow; 0 in no line. -/
  mticket : Nat
  /-- The first byte of the move whose line was not mirrored, once the mirror is lost (R208). -/
  exposedAt : Option Nat
  deriving DecidableEq, Repr

/-- A bobbin (R195–R211). -/
structure Bobbin where
  descs : List Desc
  lastQueue : Nat
  fifo : List (Nat × Status × Word)
  reserved : Nat
  popHeld : Bool
  exposed : DWord
  exposedLen : Word
  postResult : Option Status
  slots : Map Nat (List Byte)
  firstBad : Map Nat Nat
  deriving DecidableEq, Repr

/-! ## Collectives (15_collectives.md) -/

/-- What names a chunk transfer at its receiver (R342): stage, phase, chunk, the sender's rank there, and 0 for the die's unit or
1 + rank for a contributor of the package. -/
structure ChunkKey where
  stage : Nat
  phase : Nat
  chunk : Nat
  rank : Nat
  dst : Nat
  deriving DecidableEq, Repr

/-- What has arrived of a chunk (R343): its data by offset, the status that closed it, the range and pass-through flags. -/
structure ChunkIn where
  key : ChunkKey
  parts : List (Nat × List Byte)
  closed : Option Status
  range : Bool
  passThru : Bool
  deriving DecidableEq, Repr

/-- A chunk that the unit sends (R341, R343, R349): where to, its item sequence, the frames already sent, its stage deadline, the
resends made, the round before which it is not sent again, and the status it has ended with. -/
structure ChunkOut where
  key : ChunkKey
  chip : Chip
  die : Fin 4
  inj : Nat
  seq : Word
  sent : Nat
  closeSent : Bool
  deadline : DWord
  resends : Nat
  after : Nat
  ended : Option Status
  /-- Its flow, and its place in that flow's line while it waits for budget (R66); 0 in no line. -/
  flow : Nat
  ticket : Nat
  deriving DecidableEq, Repr

/-- A fold in progress (R338, R345): the next rank, the accumulated bytes, the flags and the worst status folded from. -/
structure Fold where
  next : Nat
  acc : List Byte
  range : Bool
  passThru : Bool
  status : Status
  deriving DecidableEq, Repr

/-- A contributor of this die in an open instance (R340): its instruction and rank, its compute status, its status area, whether it
has reported to the tally, and the status its collective part has ended with. -/
structure Contrib where
  inst : Nat
  ctx : CtxId
  rank : Nat
  computed : Option Status
  area : Map Nat Status
  reported : Bool
  final : Option Status
  gone : Bool
  deriving DecidableEq, Repr

/-- A report to a tally root (R351): stage, rank, digest, worst status. -/
structure Report where
  stage : Nat
  rank : Nat
  digest : DWord
  status : Status
  deriving DecidableEq, Repr

/-- An open collective instance on a die (R340–R353); the instruction word and dimensions are those of its first contributor. -/
structure Instance_ where
  group : Nat
  epoch : Word
  word : BitVec 128
  dims : DWord
  start : DWord
  claim : Nat
  passThru : Bool
  contribs : List Contrib
  ins : List ChunkIn
  outs : List ChunkOut
  folds : Map (Nat × Nat) Fold
  results : Map Nat Fold
  counts : Map (Nat × Nat) Nat
  reports : List Report
  concluded : Bool
  deriving DecidableEq, Repr

/-- A grant that a sender holds (R346): from the owner's chip and die, for one rank or all, for one chunk in pass-through form. -/
structure Grant where
  group : Nat
  epoch : Word
  stage : Nat
  chip : Chip
  die : Fin 4
  rank : Nat
  passThru : Bool
  first : Nat
  count : Nat
  deriving DecidableEq, Repr

/-- A WELL unit (R344, R346). -/
structure Well where
  insts : List Instance_
  grants : List Grant
  deriving DecidableEq, Repr

/-! ## Caselm's records (17_reeve_and_caselm.md) -/

/-- A Caselm event record (R388, R389): time, sequence, block type and instance (0 for Caselm), whether the bell was joined,
forced, also non-volatile, severity, code, status, boot count and detail words. -/
structure EvtRec where
  time : DWord
  seq : Word
  type : Nat
  inst : Nat
  joined : Bool
  forced : Bool
  nv : Bool
  severity : Nat
  code : Nat
  status : Status
  boot : Word
  detail : List Nat
  deriving DecidableEq, Repr


/-! ## Command packets (17_reeve_and_caselm.md) -/

/-- What names a command packet (R372): the path, 0 the optical ports, 1 the management port, 2 I3C/SMBus; the requester; the
request id. -/
structure CmdKey where
  path : Nat
  chip : Chip
  id : Word
  deriving DecidableEq, Repr

/-- A command that runs and has not been answered: its key, code and arguments, and the tick of its acceptance. -/
structure CmdRun where
  key : CmdKey
  code : Nat
  arg0 : Nat
  arg1 : Nat
  at_ : Nat
  deriving DecidableEq, Repr

/-- A reply kept in the cache (R372). -/
structure Cached where
  key : CmdKey
  reply : List Byte
  at_ : Nat
  deriving DecidableEq, Repr

/-- A request in progress (R375, R376): its requester, ring and sequence. -/
structure Req where
  key : CmdKey
  ring : Nat
  seq : Nat
  deriving DecidableEq, Repr

/-- A result packet that has not been acknowledged (R376). -/
structure ResultOut where
  key : CmdKey
  ring : Nat
  seq : Nat
  last : Bool
  status : Status
  payload : List Byte
  at_ : Nat
  resends : Nat
  deriving DecidableEq, Repr

/-- Bytes staged by data packets (R377, R442): the announced total, the ranges written, and where they stand when they stand in
no DRAM. -/
structure Staging where
  total : Nat
  version : Nat
  written : List (Nat × Nat)
  bytes : List (Nat × List Byte)
  deriving DecidableEq, Repr

/-- An entry of a reshard table (R358) with what has become of it (R359, R363): the bobbin and tag of its descriptor, its retries, its
status. -/
structure Reshard where
  src : Chip
  dst : Chip
  srcOff : Nat
  dstOff : Nat
  len : Nat
  flow : Nat
  die : Fin 4
  window : Bool
  twin : Bool
  tag : Word
  post : Option (BobId × Word)
  tries : Nat
  status : Option Status
  deriving DecidableEq, Repr

/-- A manifest in force (R377–R380): what its sections say, its reshard tables by phase, policies, phases, coordinator, tags and
bytes 24–71 of its header. -/
structure InForce where
  sec : Manifest
  reshard : List (Nat × List Reshard)
  policies : List (Nat × Nat)
  phases : Nat
  coordinator : Chip
  tag : Word
  slice : Nat
  digest : List Byte
  deriving DecidableEq, Repr

/-- A phase change in progress (R360–R364): the phase, the two rounds, how far it has come (0 accepted, 1 the old phase stopped, 2 its
windows opened, 3 entries posted and the new phase loaded), its entries, the first verdict, the round at which a second one lets the new
phase start, the readiness reports sent; at the coordinator the reports in order, with how many entries had ended and whether every one was
good, and the verdicts sent; the windows opened here, each with the source chip and die that it admits. -/
structure PhaseChange where
  phase : Nat
  ra : Nat
  rb : Nat
  stage : Nat
  entries : List Reshard
  verdict : Option Bool
  second : Option Nat
  ready : Nat
  reports : List (Chip × Nat × Bool)
  judged : Nat
  wins : List (Chip × Fin 4 × StoreId × Nat)
  deriving DecidableEq, Repr

/-- A sampler (R406–R411): whether this package is the candidate, the two chips, the first epoch, the next sequence to send or to take,
the epochs whose journal the candidate holds, its clean steps in a row, the epoch judged last, whether the model's state has been
copied, and the steps of the last report. -/
structure Sampler where
  joins : Bool
  candidate : Chip
  model : Chip
  first : Nat
  nextSeq : Nat
  journal : List Nat
  clean : Nat
  epoch : Nat
  copied : Bool
  reported : Nat
  deriving DecidableEq, Repr

/-- A descriptor that Caselm has posted for a restore (R230) or a re-mirror (R402): its bobbin, tag, range and the other chip. -/
structure Posted where
  bob : BobId
  tag : Word
  off : Nat
  len : Nat
  chip : Chip
  restore : Bool
  deriving DecidableEq, Repr

/-- An admission that waits for its round (R410): candidate and round. -/
structure Admission where
  chip : Chip
  round : Nat
  deriving DecidableEq, Repr

/-- Reeve and Caselm (R367–R391): the Hearth watchdog's last restart and whether Caselm is down; the reply cache, the running
commands; the manifest's staging, the job and the phase in force, a commit that waits for its swap with its round, a withdrawal and
its start; starts, tasks running; step epoch and re-runs; rings, requests, results; exposed extents as first granule and granules (R401); audit failures and
core faults by tick; restores and re-mirrors under way, with the next tag; clusters withdrawn from placement until maintenance (R156), cores whose self-test after a residue mismatch is awaited (R129); bytes
re-mirrored at this step boundary (R402); places that differ from R382's map; samplers and rejections; the last telemetry snapshot and the last reading of the
result heads. -/
structure Reeve where
  wdogAt : Nat
  cache : List Cached
  runs : List CmdRun
  staging : Option Staging
  job : Option InForce
  phase : Nat
  commitRound : Option Nat
  withdrawAt : Option Nat
  started : Bool
  epoch : Nat
  reruns : Nat
  accepted : Map Nat Nat
  finished : Nat
  taken : Map Nat Nat
  requests : List Req
  results : List ResultOut
  change : Option PhaseChange
  exposed : List (Nat × Nat)
  posted : List Posted
  nextTag : Nat
  withdrawn : List (Fin 4 × Fin 10)
  retest : List CoreId
  mirrored : Nat
  audits : Map Page (List Nat)
  faults : Map CoreId (List Nat)
  moves : Map CoreId CoreId
  sampler : Option Sampler
  rejections : List Nat
  admission : Option Admission
  snapshot : DWord
  snapAt : Nat
  pollAt : Nat
  /-- The figures of the latest snapshot by group and instance (R386, R387), and the frames of replies that no router carries yet (R24). -/
  figures : Map (Nat × Nat) (List Nat)
  unsent : List Frame
  /-- Steps that have failed for good (R385, R387). -/
  failedSteps : Nat
  /-- Stacks whose rail was cut and whose contents Caselm restores or reports lost, each with the next page of 4,096 bytes (R430). -/
  restoring : Map (Fin 12) Nat
  deriving DecidableEq, Repr

/-! ## Power (19_power_and_thermal.md, 22_pins_power_package.md) -/

/-- A save in a domain's Hearth slot (R417): its contents and, of its header, the bell time, the byte count and the CRC-32. -/
structure Slot where
  regs : Map Reg Word
  blocks : Map Page Block
  tables : Map (Page × Nat × Nat) (Word × Word)
  at_ : DWord
  records : List EvtRec
  bytes : Nat
  crc : Word
  deriving DecidableEq, Repr

/-- A power-state transition (R415, R416, R420): its target, dies and round, whether it runs, whether it is an exit, the domains that
are still to be cut or restored, and its start. -/
structure Transition where
  target : Nat
  dies : Nat
  round : Nat
  running : Bool
  exit : Bool
  left : List Domain
  start : Nat
  deriving DecidableEq, Repr

/-- The sensors of a die or of HD (R424, R425): the last readings in sixteenths of a degree, those left out until the next reset, the
maximum and its sensor, whether the last sample was at or above the threshold, and since when every sample has been below the
hysteresis. -/
structure Thermal where
  readings : List Int
  failed : List Nat
  tmax : Int
  hot : Nat
  above : Bool
  coolAt : Option Nat
  deriving DecidableEq, Repr

/-- The power part: each die's state, 0 P0, 1 P1, 2 P2, the local tick since which its contexts have been IDLE (R413, R414), and
its thermal and compatibility duties in sixteenths (R223, R425); P3; the transition; the Hearth slots, those that failed, and
the memory check (R417–R419); domains cut and domains held in retention; a forced fallback, and one that Caselm has yet to record (R418); a latched wake as code and port (R422);
management packets and an I3C write held in P3 (R421); sensors; tripped dies, 4 for HD (R428). -/
structure Power where
  die : Map (Fin 4) Nat
  idleAt : Map (Fin 4) Nat
  thermal : Map (Fin 4) Nat
  compat : Map (Fin 4) Nat
  p3 : Bool
  trans : Option Transition
  slots : Map Domain Slot
  slotFail : List Domain
  memFail : Bool
  cut : List Domain
  kept : List Domain
  forced : Bool
  forcedDue : Bool
  wake : Option (Nat × Nat)
  held : List (List Byte)
  heldI3c : Option (List Byte)
  sensors : Map (Fin 5) Thermal
  trips : List (Fin 5)
  deriving DecidableEq, Repr

/-- The pins (R468, R472–R477): rail enables that are high with the tick at which they rose, rails whose power-good is accepted,
guest-site enables and resets; PDN_READY; FAULT_N and THERM_N as asserted or not; the straps; the ticks of power-good losses; rails
held off until RST_N, the tick at which a fallen enable may rise again, and the tick at which the guest sites' supplies rose. -/
structure Pins where
  en : Map Domain Nat
  good : List Domain
  guestEn : List (Fin 2)
  guestOut : List (Fin 2)
  pdnReady : Bool
  fault : Bool
  therm : Bool
  mgmtSel : Bool
  addr : Nat
  losses : Map Domain (List Nat)
  barred : List Domain
  again : Map Domain Nat
  guestAt : Nat
  deriving DecidableEq, Repr

/-! ## Boot and trust (20_boot_and_trust.md) -/

/-- How far the boot chain has come (R434, R441). -/
inductive BootStage where
  | held | hearth | rom | recovery | booting | caselm
  deriving DecidableEq, Repr

/-- An attestation report that can be read (R446): handle, bytes, and the tick at which it was built. -/
structure Attested where
  handle : Nat
  bytes : List Byte
  at_ : Nat
  deriving DecidableEq, Repr

/-- Boot and trust (R434–R450): the stage and its tick; RESET_CAUSE as cause and count; octal flash; uds_open; the Alias RSA key; the
last verification's check and status; the flash's image slot and the running image's header; image staging; reports; the
challenge with its tick; the token's staging; the scope in force, that ever granted, and when the unlock ends; the anti-rollback counter
and the revoked slots. -/
structure Boot where
  stage : BootStage
  at_ : Nat
  cause : Nat
  count : Nat
  octal : Bool
  udsOpen : Bool
  aliasRsa : Bool
  lastCheck : Nat
  lastStatus : Status
  flash : Option (List Byte)
  header : List Byte
  staging : Option Staging
  reports : List Attested
  nextHandle : Nat
  challenge : Option (List Byte × Nat)
  token : Staging
  scope : Nat
  ever : Nat
  unlockEnd : DWord
  unlockAt : Option Nat
  counter : Nat
  revoked : List Nat
  /-- The tables that Caselm has recorded in the configuration area and the bad-page list: repair tables (R229) and ring offsets (R264). -/
  tables : Map (Page × Nat × Nat) Word
  /-- The chip number that the configuration area holds, if one does (R293, R435). -/
  chip : Option Chip
  deriving DecidableEq, Repr

/-! ## Stitch and guests (21_stitch_and_guest_dies.md) -/

/-- A Stitch link (R451–R454): its state, 0 DOWN, 1 training, 2 UP; the modules in service; the ticks of each module's failed
trainings; the modules out until the next package reset. -/
structure Stitch where
  lstate : Nat
  mods : Nat
  fails : Map Nat (List Nat)
  gone : Nat
  /-- Messages discarded as malformed (R455). -/
  malformed : Nat
  /-- Credits returned by the far end, by channel (R455, R456). -/
  credits : Map Nat Nat
  deriving DecidableEq, Repr

/-- A guest access that is held by its buckets or waits for its answer (R460, R461). -/
structure GuestAcc where
  id : Nat
  off : Nat
  op : GuestOp
  at_ : Nat
  deriving DecidableEq, Repr

/-- An access toward a guest that waits for the answer (R460). -/
structure Outbound where
  id : Nat
  agent : Agent
  off : Nat
  len : Nat
  deadline : Nat
  deriving DecidableEq, Repr

/-- A thimble (R458–R463): admitted; the states of the windows, 1 open, 2 closing, by window; the directory, oldest first, of lines
with whether the guest modified them; buckets in thousandths of a request and of a line with the tick of their last filling; held
accesses; outbound accesses; and the tick of the link's reaching UP. -/
structure Thimble where
  admitted : Bool
  wins : Map Nat Nat
  dir : List (Nat × Bool)
  reqs : Nat
  lines : Nat
  filledAt : Nat
  held : List GuestAcc
  out : List Outbound
  upAt : Nat
  /-- The guest was rejected (R458, R464). -/
  rejected : Bool
  /-- Snoops sent and not yet answered, oldest first: the line, whether the guest held it modified, and the tick (R457). -/
  snoops : List (Nat × Bool × Nat)
  deriving DecidableEq, Repr

/-! ## Debug and margining (23_debug_and_margining.md) -/

/-- A margin run (R492–R494): target and configuration words, the side, 0 low, 1 high, and the step that is next, the lanes that
have failed on this side with their edges, the low edges once known; the lane that an optical run has under test, and the high edges known. -/
structure Margin where
  tgt : Word
  cfg : Word
  high : Bool
  step : Nat
  edges : Map Nat Nat
  low : Map Nat Nat
  start : Nat
  held : Option Word
  lane : Nat
  highs : Map Nat Nat
  deriving DecidableEq, Repr

/-- An access of the debug port that is under way and has not been answered (R486): what its response will say, and the tick of the
request's last bit. -/
structure DbgAccess where
  status : Status
  data : List Byte
  at_ : Nat
  deriving DecidableEq, Repr

/-- The debug port and the TAP (R486–R496): the pending access; the debug module's registers (R488); halted Reeve cores; the margin
run, the last run's edges, status and whether they are valid; the TAP's instruction register and the levels the lands were loaded
with. -/
structure Debug where
  pending : Option DbgAccess
  dmi : Map Nat Word
  halted : List Nat
  margin : Option Margin
  edges : Map Nat (Nat × Nat)
  valid : Bool
  status : Status
  ir : Nat
  boundary : List Bool
  deriving DecidableEq, Repr

/-! ## Memory stacks (09_memory_stacks.md) -/

/-- A repair copy in progress (R226): the failing row as it is addressed, the kind, spare or relief page it goes to, and its
start. -/
structure RepairCopy where
  ch : Nat
  bank : Nat
  row : Nat
  kind : Nat
  target : Nat
  start : Nat
  deriving DecidableEq, Repr

/-- A line access that is held while its row is copied (R226): a request, or a read of the patrol, with what the read finds. -/
structure HeldLine where
  off : Nat
  data : Option (List Byte)
  tagged : Bool
  mill : Bool
  patrol : Bool
  found : LineErr
  deriving DecidableEq, Repr

/-- A stack controller and its base die (R221–R229): the refresh step, samples below its threshold, the compatibility override and its
last duty step, refresh and patrol positions, the tracked rows with their counts by bank, the copy that runs, the failing rows that wait,
the repair log oldest first, the last temperature sample, and a trip with the tick since which the stack is cool (R428, R430). -/
structure Stack where
  step : Nat
  below : Nat
  override : Bool
  compatAt : Nat
  refreshAt : Nat
  nextBank : Nat
  patrolPos : Nat
  patrolAt : Nat
  tracks : Map (Nat × Nat) (List (Nat × Nat))
  copy : Option RepairCopy
  waiting : List (Nat × Nat × Nat)
  /-- Accesses held by the copy, in the order of their arrival, and the tick at which the first of them arrived. -/
  held : List HeldLine
  heldAt : Option Nat
  log : List (Word × Word)
  sampleAt : Nat
  temp : Nat
  tripped : Bool
  railCut : Bool
  coolAt : Option Nat
  deriving DecidableEq, Repr

/-! ## Mills (10_mills.md) -/

/-- A mill command on its way, queued or running (R236, R237, R240): the instruction that sent it, its block and query rows, the
numbers n and r of its stack's selected mills, nsel and j among all selected, and the local offset of the result region. -/
structure MillCmd where
  inst : Nat
  ctx : CtxId
  blk : List Byte
  rows : List Byte
  n : Nat
  r : Nat
  nsel : Nat
  j : Nat
  dest : Nat
  deriving DecidableEq, Repr

/-- What a mill has computed of one query row (R241): m, l and o as FP32 codes, and the live keys. -/
structure MillRow where
  m : Nat
  l : Nat
  o : List Nat
  keys : Nat
  deriving DecidableEq, Repr

/-- A running command: when it started and when its present phase is over, the next entry and the end of its share, the
entries processed, the rows, the status once it is known, and the failing phase of a test. -/
structure MillRun where
  cmd : MillCmd
  start : Nat
  readyAt : Nat
  cur : Nat
  stop : Nat
  entries : Nat
  rows : List MillRow
  status : Option Status
  phase : Nat
  /-- The list line read last: each line is read once (R244). -/
  list : List Byte
  deriving DecidableEq, Repr

/-- A mill (R234, R244–R250): commands sent and not arrived, the queue, the running command, clock gating, the end of a throttle
pause; and its store's undefined contents: the first free byte drawn for it, with the ranges written since (R235). -/
structure Mill where
  path : List MillCmd
  queue : List MillCmd
  run : Option MillRun
  gated : Bool
  idleAt : Nat
  pauseTo : Nat
  blank : Option Nat
  known : List (Nat × Nat)
  deriving DecidableEq, Repr

/-! ## Selvage engines (11_selvage_optics.md) -/

/-- The states of a ring (R258). -/
inductive RingState where
  | off | parked | sweep | locked | hold | retired
  deriving DecidableEq, Repr

/-- A ring (R251–R264): its state; trim, in heater steps; the feed-forward value last evaluated, in sixteenths of a step; the heater
code applied; relocks since ENABLING; the local ticks since which trim is at its limit and at or above
drift_limit; the ticks of its failed sweeps, the last of them; whether a recalibration is queued; the one that runs, as whether it is in
tracking form and its start; consecutive wrong markers; the last marker that passed its check; and the last integration. -/
structure Ring where
  state : RingState
  trim : Int
  ff : Int
  heat : Nat
  relocks : Nat
  satAt : Option Nat
  driftAt : Option Nat
  failures : List Nat
  failedAt : Option Nat
  sweepAt : Nat
  queued : Bool
  cal : Option (Bool × Nat)
  wrong : Nat
  markAt : Nat
  loopAt : Nat
  deriving DecidableEq, Repr

/-- A selvage engine (R251–R271): its rings; the laser's status and enable lines, a laser fault present, the tap in range; the
recalibration pass that runs, the tick of the last one, whether it used tracking form; and the last sensor sample. -/
structure Selvage where
  rings : Map (Fin 64) Ring
  laserOk : Bool
  laserEn : Bool
  laserFault : Bool
  tapOk : Bool
  tapPower : Nat
  pass : Bool
  passAt : Nat
  tracking : Bool
  ffAt : Nat
  /-- Whether Caselm has loaded the factory's tables since the engine had power (R255). -/
  loaded : Bool
  deriving DecidableEq, Repr

/-- A port's light (R251, R266–R270): the shutter, 0 closed, 1 probe, 2 open; received light; whether WAKING was entered by a wake
burst, and when; and the last burst sent. -/
structure SelPort where
  shutter : Nat
  rxLight : Bool
  wakeSeen : Bool
  wakingAt : Nat
  burstAt : Option Nat
  deriving DecidableEq, Repr
/-! ## The package -/

/-- What the package puts out, oldest first: the answer to an access, the end of an item, light and words on a fibre. -/
inductive Out where
  /-- The answer to a register or line access (R32, R33, R39). -/
  | access (agent : Agent) (status : Status) (value : Word)
  /-- An item of a block ended with its one status (R12, R392). -/
  | item (page : Page) (tag : Nat) (status : Status)
  /-- A frame's bytes sent on a port (R282). -/
  | frame (port : Fin 32) (bytes : List Byte)
  /-- A link word's bytes sent on a port (R275). -/
  | linkWord (port : Fin 32) (bytes : List Byte)
  /-- A lane marker sent on a lane (R274). -/
  | marker (port : Fin 32) (lane : Nat) (marker : DWord)
  /-- A report of Caselm to the job owner or into its event records: a code and its data (R388). -/
  | report (code : Nat) (data : List Nat)
  /-- A line read at a stack controller or over the debug port: its status and its 64 bytes (R220, R486). -/
  | line (page : Page) (status : Status) (bytes : List Byte)
  /-- A wake burst sent on a port (R268). -/
  | burst (port : Fin 32)
  /-- A command packet or reply sent on the management port (1) or kept for an I3C/SMBus read (2) (R370). -/
  | packet (path : Nat) (bytes : List Byte)
  /-- A PAUSE frame sent by the management MAC, or an I3C write that is NACKed (R421). -/
  | pause (i3c : Bool)
  /-- The debug port's response: its status, its data, one word or a line, and the check sum (R486). -/
  | debug (status : Status) (data : List Byte) (crc : Nat)
  /-- The answer to a guest's access over the memory channel (R460). -/
  | guest (site : Fin 2) (id : Nat) (status : Status) (data : List Byte)
  /-- An access passed to a guest, or a snoop of one of its lines (R457, R460). -/
  | toGuest (site : Fin 2) (off : Nat) (op : GuestOp)
  /-- The answer to an access of an agent toward a guest (R460). -/
  | fromGuest (agent : Agent) (status : Status) (data : List Byte)
  /-- A doorbell interrupt to the guest or to Reeve (R462). -/
  | doorbell (site : Fin 2) (toGuest : Bool) (slot : Nat)
  /-- Bits shifted out of the TAP's selected register (R491). -/
  | tdo (bits : List Bool)
  deriving DecidableEq, Repr

/-- The package. -/
structure Pkg where
  /-- Bell time (R49). -/
  bell : DWord
  /-- Local reference ticks since package reset (R54). -/
  count : Nat
  rg : Regs
  bellU : BellUnit
  ports : Map (Fin 32) Port
  routers : Map (Fin 4) Router
  inbox : List Delivered
  /-- Bytes of a flow's budget used in this round, by die and flow (R66). -/
  budget : Map (Fin 4 × Nat) Nat
  /-- Memory: bytes by address, in canonical form; a byte not listed reads 0. -/
  mem : List Host.Cell
  /-- Poisoned 64-byte lines by line address, strictly rising (R98). -/
  poison : List Nat
  ctxs : Map CtxId Ctx
  insts : List Inst
  stores : Map StoreId Store
  wins : Map (StoreId × Nat) Win
  engines : Map CoreId Engine
  creqs : List CReq
  atomWins : Map (Fin 4 × Chip) AtomWin
  ledgers : Map (Fin 4) Ledger
  fences : List Fence
  quarantined : Bool
  bobs : Map BobId Bobbin
  wells : Map (Fin 4) Well
  /-- Spare core of each cluster and retired cores (R9, R129). -/
  spares : Map (Fin 4 × Fin 10) (Fin 9)
  retired : List CoreId
  /-- Next item sequence and next instruction or order number (R65, R171). -/
  nextSeq : Word
  nextId : Nat
  /-- Caselm's volatile ring, oldest first (R388), the records that wait for the non-volatile area and those in it (R390), and
  the boot count. -/
  records : List EvtRec
  nvPending : List EvtRec
  nvRecords : List EvtRec
  boots : Word
  /-- A manifest is in force (R326, R379). -/
  serving : Bool
  /-- Power (R412–R423). -/
  pw : Power
  /-- The stack controllers (R213–R233). -/
  stackUnits : Map (Fin 12) Stack
  /-- The mills (R234–R250). -/
  mills : Map MillId Mill
  /-- The selvage engines and their ports (R251–R271). -/
  sels : Map (Fin 16) Selvage
  selPorts : Map (Fin 32) SelPort
  /-- Reeve and Caselm (R367–R391). -/
  rv : Reeve
  /-- Boot and trust (R434–R450). -/
  boot : Boot
  /-- The pins (R468–R477). -/
  pins : Pins
  /-- Stitch links and the guest sites' thimbles (R451–R466). -/
  stitches : Map StitchId Stitch
  thims : Map (Fin 2) Thimble
  /-- The debug port and the TAP (R486–R496). -/
  dbg : Debug
  /-- Stacks whose contents were lost with their rail, with the lines whose tag has been cleared since (R430). -/
  lost : Map Nat (List Nat)
  out : List Out
  /-- The model's own counter of free values drawn. -/
  free : Nat
  deriving DecidableEq, Repr

/-- The state: the commands that wait, first in first out, and the package. -/
structure State where
  pending : List Instr
  pkg : Pkg
  deriving DecidableEq, Repr

/-- Why a step would end in a fault. The manual gives every failing item a status (R12), so no command of this model
raises one; the type is here because the host's interface has three outcomes. Safe. -/
inductive Fault where
  /-- Raised by no command. Safe. -/
  | none_
  deriving DecidableEq, Repr

/-- Why a command is refused as having no meaning. -/
inductive Refusal where
  /-- The command has no meaning in this model yet. Raised by exec's arm alone. Safe. -/
  | notModelled (mnemonic : String)
  /-- Raised by JTAG_PRIVATE when scope bit 5 permits it: the manual gives the private instructions no effect (R491). Safe. -/
  | jtagPrivate
  deriving DecidableEq, Repr

/-! ## Reset -/

/-- A port after reset: DOWN, nothing queued; both pricking copies hold entry 0 alone, copy 0 active (R62, R278). -/
def Port.reset : Port :=
  { lstate := .down, version := 0, optic := .off, txRing := 0, rxRing := 0, txMap := 0, peerRx := 0, fecOut := 0, retry := [], txSeq := 0, rxSeq := 0
    ackAt := 0, discarding := false, restart := false, queue := [], rxbuf := [], rxWait := []
    credits := ⟨[0, 0, 0, 0], [0, 0, 0, 0], [0, 0, 0, 0], [0, 0, 0, 0], [0, 0, 0, 0]⟩
    peer := none, lastPeer := none, sentStep := 0, gotStep := 0, stateAt := 0, retrainAt := none, noVersion := false
    tooLong := false, retrainReq := false, peerTx := 0, identityAt := none, revoked := false, active := 0
    sealedA := false, sealedB := false, standbyRes := 0, activeRes := 1, moved := false, usableFrom := none, fenceDue := false, lastVersion := 0
    busyUntil := 0, wordAt := 0, markAt := 0, trainAt := 0, markCount := 0, aligning := false }

/-- The bell unit after reset: UNJOINED, no measurement (R54). -/
def BellUnit.reset : BellUnit :=
  { state := .unjoined, hops := 0, rootIndex := 0, parent := none, ports := [], inForce := ⟨0x0080F000#32, 0, 0, 0⟩
    stepped := false, aligned := 0, rootSilent := 0, holdRounds := 0, judged := none, roundDone := none, slew := 0
    lastSlew := 0, ppsEdges := 0, ppsAt := none, ppsOk := false, tenmOk := false }

/-- The package right after package reset. -/
def Pkg.reset : Pkg :=
  { bell := 0, count := 0
    rg := { blocks := [], regs := [], staged := [], latches := [], snaps := [], drains := [], undo := [], tables := [], alerts := [] }
    bellU := BellUnit.reset, ports := [], routers := [], inbox := [], budget := [], mem := [], poison := [], ctxs := []
    insts := [], stores := [], wins := [], engines := [], creqs := [], atomWins := [], ledgers := [], fences := []
    quarantined := false, bobs := [], wells := [], spares := [], retired := [], nextSeq := 0, nextId := 0
    records := [], nvPending := [], nvRecords := [], boots := 0, serving := false
    pw := { die := [], idleAt := [], thermal := [], compat := [], p3 := false, trans := none, slots := [], slotFail := []
            memFail := false, cut := [], kept := [], forced := false, forcedDue := false, wake := none, held := [], heldI3c := none, sensors := []
            trips := [] }
    stackUnits := []
    mills := []
    sels := [], selPorts := []
    rv := { wdogAt := 0, cache := [], runs := [], staging := none, job := none, phase := 0, commitRound := none, withdrawAt := none
            started := false, epoch := 0, reruns := 0, accepted := [], finished := 0, taken := [], requests := [], results := []
            change := none, exposed := [], posted := [], nextTag := 0, withdrawn := [], retest := [], mirrored := 0, audits := [], faults := [], moves := [], sampler := none, rejections := []
            admission := none, snapshot := 0, snapAt := 0, pollAt := 0, figures := [], unsent := [], failedSteps := 0, restoring := [] }
    boot := { stage := .held, at_ := 0, cause := 0x01, count := 0, octal := false, udsOpen := true, aliasRsa := false, lastCheck := 0
              lastStatus := 0, flash := none, header := [], staging := none, reports := [], nextHandle := 0, challenge := none
              token := ⟨0, 0, [], []⟩, scope := 0, ever := 0, unlockEnd := 0, unlockAt := none, counter := 0, revoked := [], tables := [], chip := none }
    pins := { en := [], good := [], guestEn := [], guestOut := [], pdnReady := false, fault := false, therm := false
              mgmtSel := false, addr := 0, losses := [], barred := [], again := [], guestAt := 0 }
    stitches := [], thims := []
    dbg := { pending := none, dmi := [], halted := [], margin := none, edges := [], valid := false, status := 0, ir := 0x01
             boundary := [] }
    lost := []
    out := [], free := 0 }

/-- The state right after reset: no command waits. -/
def State.reset : State := { pending := [], pkg := Pkg.reset }

end Sys2Proof.Machine
end

