-- ==== Sys2Proof/Machine/Status.lean ====
section
/-! DEFINITION. The status vocabulary of R393, in the form of R171: class in bits [15:12], cause in [11:0]. -/
namespace Sys2Proof.Status
open Sys2Proof

/-- R393 0x0000. -/
def done : Status := 0x0000#16
def donePast : Status := 0x0001#16
def doneEmpty : Status := 0x0002#16
def doneClosed : Status := 0x0003#16
def doneExpired : Status := 0x0004#16
def doneCancelled : Status := 0x0005#16
def doneEarly : Status := 0x0006#16
def doneRetried : Status := 0x0007#16
def donePassthrough : Status := 0x0008#16
def doneWsRange : Status := 0x0009#16
def donePoisoned : Status := 0x000A#16
def doneUnmirrored : Status := 0x000B#16
/-- R32, R393 0x1001–0x1007. -/
def refusedBound : Status := 0x1001#16
def refusedSlice : Status := 0x1002#16
def refusedUnmapped : Status := 0x1003#16
def refusedPrivate : Status := 0x1004#16
def refusedOffline : Status := 0x1005#16
def refusedWindow : Status := 0x1006#16
def refusedAsleep : Status := 0x1007#16
def refusedBell : Status := 0x1008#16
def refusedFlow : Status := 0x1009#16
def refusedDue : Status := 0x100A#16
def refusedOverlap : Status := 0x100B#16
def refusedOwner : Status := 0x100C#16
def refusedBusy : Status := 0x100D#16
def refusedFull : Status := 0x100E#16
def refusedRoute : Status := 0x100F#16
def refusedFarSize : Status := 0x1010#16
def refusedFarAtomic : Status := 0x1011#16
def refusedFenced : Status := 0x1012#16
def refusedQuarantined : Status := 0x1013#16
def refusedStale : Status := 0x1014#16
def refusedVersion : Status := 0x1015#16
def refusedPath : Status := 0x1016#16
def refusedNoJob : Status := 0x1017#16
def refusedJob : Status := 0x1018#16
def refusedPhaseLate : Status := 0x1019#16
def refusedSampler : Status := 0x101A#16
def refusedPower : Status := 0x101B#16
def refusedRollback : Status := 0x101C#16
def refusedLocked : Status := 0x101D#16
def refusedThimble : Status := 0x101E#16
def lateNoSlot : Status := 0x2001#16
def lateMissed : Status := 0x2002#16
def lateArrived : Status := 0x2003#16
def failedOpcode : Status := 0x3001#16
def failedFormat : Status := 0x3002#16
def failedCrc : Status := 0x3003#16
def failedManifest : Status := 0x3004#16
def failedTimeout : Status := 0x3005#16
def failedExpired : Status := 0x3006#16
def failedBusy : Status := 0x3007#16
def failedRelock : Status := 0x3008#16
def failedPoison : Status := 0x3009#16
def failedEngine : Status := 0x300A#16
def failedMill : Status := 0x300B#16
def failedLink : Status := 0x300C#16
def failedDeadTarget : Status := 0x300D#16
def failedOrder : Status := 0x300E#16
def failedCapacity : Status := 0x300F#16
def failedPhase : Status := 0x3010#16
def failedReshard : Status := 0x3011#16
def failedSignature : Status := 0x3012#16
def failedDisabled : Status := 0x3013#16
def unknownNoAck : Status := 0x4001#16
def unknownNoReply : Status := 0x4002#16
def unknownTargetLost : Status := 0x4003#16
def collectiveMissing : Status := 0x5001#16
def collectiveDiverged : Status := 0x5002#16
def collectiveTainted : Status := 0x5003#16

/-- The class of a status, bits [15:12] (R171). -/
def cls (s : Status) : Nat := s.toNat / 4096
/-- Whether a status is of the failed class. -/
def isFailed (s : Status) : Bool := cls s == 3
/-- The worse of two statuses: the greater code (R393). -/
def worst (a b : Status) : Status := if a.toNat < b.toNat then b else a

end Sys2Proof.Status
end

