-- ==== Sys2Proof/Machine/Ops.lean ====
section
/-! DEFINITION. The named operations over registers, pages, events, states, tallies and memory that every family uses. -/
namespace Sys2Proof.Machine
open Sys2Proof

/-! ## The map of pages and registers -/

/-- The instances R34 lists for each block type; every other type or instance is a hole. -/
def pageExists (g : Page) : Bool :=
  match g.type with
  | 0x01 | 0x02 | 0x03 | 0x04 | 0x05 | 0x07 | 0x08 | 0x09 | 0x0A => g.inst == 0
  | 0x06 | 0x1D => g.inst < 5
  | 0x0B => g.inst < 2
  | 0x0C => g.inst < 4 || (0x10 ≤ g.inst && g.inst < 0x22)
  | 0x10 | 0x11 | 0x12 | 0x13 => g.inst % 16 < 9 && g.inst / 16 < 10
  | 0x14 => g.inst % 16 < 10 && g.inst / 16 < 4
  | 0x15 => (g.inst < 0x80 && g.inst % 32 < 20) || (0x80 ≤ g.inst && g.inst < 0x88)
  | 0x16 => g.inst < 12
  | 0x17 => g.inst < 96
  | 0x18 | 0x19 | 0x1E => g.inst < 4
  | 0x1A | 0x1C => g.inst < 32
  | 0x1B => g.inst < 16
  | _ => false

/-- How many 32-bit words a register of a kind occupies (R39–R41). -/
def RegKind.words : RegKind → Nat
  | .rwp | .ro64 | .cnt => 2
  | .rwp64 => 4
  | _ => 1

/-- Whether a row holds the offset; if so the register's own offset and the word within it. -/
def RegRow.hit (r : RegRow) (off : Nat) : Option (Nat × Nat) :=
  if off < r.off then none
  else
    let rel := off - r.off
    let i := if r.stride = 0 then 0 else rel / r.stride
    let d := rel - i * r.stride
    if i < r.count && d < 4 * r.kind.words then some (r.off + i * r.stride, d / 4) else none

/-- The row of a page's register table that holds an offset, with the register's offset and the word within it. -/
def findRow (g : Page) (off : Nat) : Option (RegRow × Nat × Nat) :=
  (rowsOf g.type).findSome? (fun r => (r.hit off).map (fun h => (r, h.1, h.2)))

/-- The reset value of a register as a number, where the table's own value differs by instance (R431 THRM_CFG of the
hub; R465 STCH_CFG, log entry 5). -/
def resetOf (g : Page) (r : RegRow) : Nat :=
  if g.type = 0x06 ∧ g.inst = 4 ∧ r.off = 0x088 then 0x64000101
  else if g.type = 0x0C ∧ r.off = 0x088 then
    (if g.inst < 4 then 0xFFFF else if g.inst < 0x20 then 0x001F else 0x00FF)
  else r.reset

/-- What word d of a register holds at reset: value and complement for the paired kinds (R41). -/
def resetWord (g : Page) (r : RegRow) (d : Nat) : Word :=
  let v := resetOf g r
  let lo : Word := BitVec.ofNat 32 v
  let hi : Word := BitVec.ofNat 32 (v >>> 32)
  match r.kind, d with
  | .rwp, 1 => ~~~lo
  | .rwp64, 1 => hi
  | .rwp64, 2 => ~~~lo
  | .rwp64, 3 => ~~~hi
  | .ro64, 1 => hi
  | .cnt, 1 => hi
  | _, _ => lo

/-- The reset value of the word at an offset of a page. CTRL resets to drain_timeout 0x3E8 and run 0b00 (R36). -/
def regReset (g : Page) (off : Nat) : Word :=
  if off = 0x008 then 0x00003E80#32
  else if off = 0x00C then ~~~0x00003E80#32
  else
    match findRow g off with
    | some (r, _, d) => resetWord g r d
    | none => 0

/-- The stored word at an offset of a page: what has been written, or its reset value. -/
def getReg (p : Pkg) (g : Page) (off : Nat) : Word := Map.getD p.rg.regs ⟨g, off⟩ (regReset g off)

/-- The package with one register word stored. -/
def setReg (p : Pkg) (g : Page) (off : Nat) (v : Word) : Pkg :=
  { p with rg := { p.rg with regs := Map.put p.rg.regs ⟨g, off⟩ v } }

/-- A value and its ones' complement stored in a paired register (R41). -/
def storePair (p : Pkg) (g : Page) (off : Nat) (v : Word) : Pkg :=
  setReg (setReg p g off v) g (off + 4) (~~~v)

/-- A 64-bit value and its complement stored (R40). -/
def storePair64 (p : Pkg) (g : Page) (off : Nat) (v : DWord) : Pkg :=
  setReg (setReg (setReg (setReg p g off (lo32 v)) g (off + 4) (hi32 v)) g (off + 8) (~~~(lo32 v))) g (off + 12) (~~~(hi32 v))

/-- Whether a stored pair passes its complement check (R42). -/
def pairOk (p : Pkg) (g : Page) (off : Nat) : Bool := getReg p g (off + 4) == ~~~(getReg p g off)

/-- The same of a 64-bit value and its complement (R40). -/
def pair64Ok (p : Pkg) (g : Page) (off : Nat) : Bool :=
  getReg p g (off + 8) == ~~~(getReg p g off) && getReg p g (off + 12) == ~~~(getReg p g (off + 4))

/-- The 64-bit register at an offset. -/
def getReg64 (p : Pkg) (g : Page) (off : Nat) : DWord := join64 (getReg p g off) (getReg p g (off + 4))

/-- A 64-bit register without complement stored. -/
def setReg64 (p : Pkg) (g : Page) (off : Nat) (v : DWord) : Pkg :=
  setReg (setReg p g off (lo32 v)) g (off + 4) (hi32 v)

/-- A counter of a page gains n, modulo 2⁶⁴. -/
def bump (p : Pkg) (g : Page) (off n : Nat) : Pkg := setReg64 p g off (getReg64 p g off + BitVec.ofNat 64 n)

/-- An entry of a page's table and its stored complement; what an entry resets to is R60 (pricking entry 0 is 0x8000),
R272 (crosstalk diagonal, log entry 6) and zero elsewhere. -/
def tableReset (g : Page) (table idx : Nat) : Word :=
  if g.type = 0x1A ∧ idx = 0 then 0x8000#32
  else if g.type = 0x1B ∧ table = 1 ∧ idx % 65 = 0 then 0x4000#32
  else 0

/-- The stored entry, as value and complement. -/
def getEntry (p : Pkg) (g : Page) (table idx : Nat) : Word × Word :=
  Map.getD p.rg.tables (g, table, idx) (tableReset g table idx, ~~~(tableReset g table idx))

/-- An entry's value. -/
def entryVal (p : Pkg) (g : Page) (table idx : Nat) : Word := (getEntry p g table idx).1

/-- Whether an entry passes its complement check (R42). -/
def entryOk (p : Pkg) (g : Page) (table idx : Nat) : Bool :=
  (getEntry p g table idx).2 == ~~~(getEntry p g table idx).1

/-- The package with a table entry stored with its complement. -/
def setEntry (p : Pkg) (g : Page) (table idx : Nat) (v : Word) : Pkg :=
  { p with rg := { p.rg with tables := Map.put p.rg.tables (g, table, idx) (v, ~~~v) } }

/-! ## Blocks, events, states -/

/-- The common registers of a page at reset (R36): DISABLED with cause 0x05. -/
def Block.reset : Block := ⟨.disabled, 0, 0, 0x05, 0, 0, none, 0, 0, 0⟩

/-- The common registers of a page. -/
def block (p : Pkg) (g : Page) : Block := Map.getD p.rg.blocks g Block.reset

/-- The package with a page's common registers replaced. -/
def setBlock (p : Pkg) (g : Page) (b : Block) : Pkg :=
  { p with rg := { p.rg with blocks := Map.put p.rg.blocks g b } }

/-- The state of a block. -/
def stateOf (p : Pkg) (g : Page) : BlockState := (block p g).state

/-- Whether a block is ENABLED. -/
def enabled (p : Pkg) (g : Page) : Bool := stateOf p g == .enabled

/-- A block event arises (R37): its EVT_STATUS bit is set, and is that of a real event, whether or not it is masked; unmasked, it raises the block's
alert toward Caselm and, when no event is named yet, EVT_FIRST names it (R36). -/
def raise (p : Pkg) (g : Page) (i : Nat) : Pkg :=
  let b := block p g
  let masked := bit b.mask i
  let b' := { b with
    evt := withBit b.evt i true
    forced := withBit b.forced i false
    first := if masked || b.first.isSome then b.first else some i }
  let q := setBlock p g b'
  if masked then q else { q with rg := { q.rg with alerts := q.rg.alerts ++ [(g, i)] } }

/-- Several events, in order. -/
def raiseAll (p : Pkg) (g : Page) (l : List Nat) : Pkg := l.foldl (fun q i => raise q g i) p

/-- The common events of R36. -/
def evPairErr : Nat := 0
def evCmpFail : Nat := 1
def evStateChange : Nat := 2
def evDrainTimeout : Nat := 3
def evRefusedAccess : Nat := 4
def evLostLatch : Nat := 5
def evRsvdWrite : Nat := 6

/-- Whether a block carries the traffic that a quarantined package keeps: ENABLED, or QUARANTINED (R332). -/
def carries (p : Pkg) (g : Page) : Bool := stateOf p g == .enabled || stateOf p g == .quarantined

/-- Bell time's round number, bits [63:15] (R49). -/
def roundOf (b : DWord) : Nat := b.toNat / 32768
/-- The slot within the round, bits [14:3] (R49). -/
def slotOf (b : DWord) : Nat := b.toNat / 8 % 4096
/-- The round now. -/
def roundNow (p : Pkg) : Nat := roundOf p.bell

/-- A block changes state: STATE and STATE_CAUSE are written and state_change is raised (R36, R43). -/
def setState (p : Pkg) (g : Page) (st : BlockState) (cause : Nat) : Pkg :=
  let b := block p g
  raise (setBlock p g { b with state := st, since := p.count, cause := cause, round := roundNow p % 2 ^ 24 }) g evStateChange

/-- TALLY_IN gains n items (R38). -/
def tallyIn (p : Pkg) (g : Page) (n : Nat) : Pkg :=
  let b := block p g
  setBlock p g { b with tin := b.tin + BitVec.ofNat 64 n }

/-- TALLY_OUT gains n items (R38). -/
def tallyOut (p : Pkg) (g : Page) (n : Nat) : Pkg :=
  let b := block p g
  setBlock p g { b with tout := b.tout + BitVec.ofNat 64 n }

/-- TALLY_HELD: items accepted and not yet ended (R38). -/
def tallyHeld (p : Pkg) (g : Page) : DWord := (block p g).tin - (block p g).tout

/-- The package puts something out. -/
def emit (p : Pkg) (o : Out) : Pkg := { p with out := p.out ++ [o] }

/-- An item ends with its status: TALLY_OUT counts it and its status is put out (R38, R392). -/
def endItem (p : Pkg) (g : Page) (tag : Nat) (st : Status) : Pkg := emit (tallyOut p g 1) (.item g tag st)

/-- Whether the bell is joined (R54). -/
def bellJoined (p : Pkg) : Bool := !(p.bellU.state == .unjoined || p.bellU.state == .joining)

/-- Whether the event that a record names was forced (R37, R389): its EVT_STATUS bit is set by EVT_FORCE. -/
def eventForced (p : Pkg) (g : Option Page) (code : Nat) : Bool :=
  match g with
  | some x => decide (code < 32) && bit (block p x).forced code
  | none => false

/-- A Caselm event record enters the volatile ring of 4,096, and waits for the non-volatile area where R390 asks for it
(R388–R390). A full ring loses its oldest record: EVT_LOST and evt_lost. -/
def record (p : Pkg) (g : Option Page) (code : Nat) (st : Status) (severity : Nat) (nv : Bool) (detail : List Nat) : Pkg :=
  let seq := getReg p .reeve 0x090 + 1
  let r : EvtRec := { time := if bellJoined p then p.bell else BitVec.ofNat 64 p.count, seq := seq
                      type := match g with | some x => x.type | none => 0
                      inst := match g with | some x => x.inst | none => 0
                      joined := bellJoined p, forced := eventForced p g code, nv := nv, severity := severity, code := code, status := st
                      boot := p.boots, detail := detail }
  let q := setReg p .reeve 0x090 seq
  let q := if p.records.length < 4096 then q else raise (bump q .reeve 0x128 1) .reeve 17
  { q with
    records := (if p.records.length < 4096 then p.records else p.records.drop 1) ++ [r]
    nvPending := if nv then q.nvPending ++ [r] else q.nvPending }

/-- A record's 64 bytes (R389). -/
def recordBytesOf (r : EvtRec) : List Byte :=
  let b := leBytes 8 r.time.toNat ++ leBytes 4 r.seq.toNat ++ leBytes 2 r.type ++ leBytes 1 r.inst
    ++ leBytes 1 ((if r.joined then 1 else 0) + (if r.forced then 2 else 0) + (if r.nv then 4 else 0) + r.severity % 4 * 8)
    ++ leBytes 2 r.code ++ leBytes 2 r.status.toNat ++ leBytes 4 r.boot.toNat
    ++ ((r.detail.flatMap (leBytes 4)) ++ List.replicate 32 0).take 32 ++ leBytes 4 0
  b ++ leBytes 4 (crc32 b).toNat

/-! ## Units in service -/

/-- FUSE.CLST_EN of a die: the enabled clusters (R3, R5). -/
def clusterEnabled (p : Pkg) (d : Fin 4) (c : Fin 10) : Bool := bit (getReg p .fuse (0x084 + 4 * d.val)) c.val

/-- The spare core of a cluster (R9; fuses, log entry 3). -/
def spareOf (p : Pkg) (d : Fin 4) (c : Fin 10) : Fin 9 := Map.getD p.spares (d, c) 8

/-- Whether a core is enabled: its cluster is, it is not the spare and it is not retired (R9, R15). -/
def coreInService (p : Pkg) (c : CoreId) : Bool :=
  clusterEnabled p c.die c.cluster && spareOf p c.die c.cluster != c.core && !p.retired.contains c

/-- The core that a CORE page names. -/
def coreOfPage (g : Page) : Option CoreId :=
  if h : 0x10 ≤ g.type ∧ g.type < 0x14 ∧ g.inst / 16 < 10 ∧ g.inst % 16 < 9 then
    some ⟨⟨g.type - 0x10, by omega⟩, ⟨g.inst / 16, h.2.2.1⟩, ⟨g.inst % 16, h.2.2.2⟩⟩
  else none

/-- The die and cluster that a CLST page names. -/
def clstOfPage (g : Page) : Option (Fin 4 × Fin 10) :=
  if h : g.type = 0x14 ∧ g.inst / 16 < 4 ∧ g.inst % 16 < 10 then some (⟨g.inst / 16, h.2.1⟩, ⟨g.inst % 16, h.2.2⟩) else none

/-- The bobbin that a BOB page names. -/
def bobOfPage (g : Page) : Option BobId :=
  if h : g.type = 0x15 ∧ g.inst / 32 < 4 ∧ g.inst % 32 < 20 then
    some (.cluster ⟨g.inst / 32, h.2.1⟩ ⟨g.inst % 32 / 2, by omega⟩ ⟨g.inst % 2, by omega⟩)
  else if h2 : g.type = 0x15 ∧ 0x80 ≤ g.inst ∧ g.inst < 0x88 then some (.gateway ⟨g.inst - 0x80, by omega⟩)
  else none

/-- The guest site of a THIM page or of a guest's STCH page. -/
def siteOfPage (g : Page) : Option (Fin 2) :=
  if h : g.type = 0x0B ∧ g.inst < 2 then some ⟨g.inst, h.2⟩
  else if h : g.type = 0x0C ∧ 0x20 ≤ g.inst ∧ g.inst < 0x22 then some ⟨g.inst - 0x20, by omega⟩
  else none

/-- A site is fitted when its fused identity is not all zero (R458). -/
def siteFitted (p : Pkg) (n : Fin 2) : Bool := (List.range 12).any (fun i => getReg p .fuse (0x100 + 0x40 * n.val + 4 * i) != 0)

/-- Whether the unit of a page is in service (R45, R464): spare and retired cores, disabled clusters and their cores and
bobbins are not. -/
def inService (p : Pkg) (g : Page) : Bool :=
  match coreOfPage g with
  | some c => coreInService p c
  | none =>
    match clstOfPage g with
    | some (d, c) => clusterEnabled p d c
    | none =>
      match bobOfPage g with
      | some (.cluster d c _) => clusterEnabled p d c
      | _ =>
        match siteOfPage g with
        | some n => siteFitted p n && !(match Map.look p.thims n with | some t => t.rejected | none => false)
        | none => true

/-- CMN instance of the hub. -/
def hubCmn : Page := .cmn 4

/-- Where a refusal 3–5 at a register page is counted: the CMN page of the die that holds the block, the hub's for a hole (R33). -/
def cmnOfPage (g : Page) : Page :=
  if !pageExists g then hubCmn else
  match g.type with
  | 0x06 | 0x1D => if h : g.inst < 4 then .cmn ⟨g.inst, by omega⟩ else hubCmn
  | 0x0C => if h : 0x10 ≤ g.inst ∧ g.inst < 0x20 then .cmn ⟨(g.inst - 0x10) / 4, by omega⟩ else hubCmn
  | 0x10 => .cmn 0
  | 0x11 => .cmn 1
  | 0x12 => .cmn 2
  | 0x13 => .cmn 3
  | 0x14 => if h : g.inst < 64 then .cmn ⟨g.inst / 16, by omega⟩ else hubCmn
  | 0x15 => if h : g.inst < 128 then .cmn ⟨g.inst / 32, by omega⟩ else hubCmn
  | 0x16 => if h : g.inst < 12 then .cmn ⟨g.inst / 3, by omega⟩ else hubCmn
  | 0x17 => if h : g.inst < 96 then .cmn ⟨g.inst / 24, by omega⟩ else hubCmn
  | 0x18 | 0x19 | 0x1E => if h : g.inst < 4 then .cmn ⟨g.inst, by omega⟩ else hubCmn
  | 0x1A | 0x1C => if h : g.inst < 32 then .cmn ⟨g.inst / 8, by omega⟩ else hubCmn
  | 0x1B => if h : g.inst < 16 then .cmn ⟨g.inst / 4, by omega⟩ else hubCmn
  | _ => hubCmn

/-- A refusal 3–5 of R32 is counted in a CMN page, with its refused_access event (R33). -/
def countRefusal (p : Pkg) (cmn : Page) : Pkg := raise (bump p cmn 0x168 1) cmn evRefusedAccess

/-! ## Memory -/

/-- The byte listed at an address; a byte not listed reads 0 (R153, R419 for the stores; log entry 2 for DRAM). -/
def cellRead : List Host.Cell → Nat → Byte
  | [], _ => 0
  | (a, b) :: r, k => if a = k then b else cellRead r k

/-- A byte written, keeping the list strictly rising and free of zero bytes. -/
def cellPut : List Host.Cell → Nat → Byte → List Host.Cell
  | [], k, v => if v = 0 then [] else [(k, v)]
  | (a, b) :: r, k, v =>
    if k < a then (if v = 0 then (a, b) :: r else (k, v) :: (a, b) :: r)
    else if k = a then (if v = 0 then r else (k, v) :: r)
    else (a, b) :: cellPut r k v

/-- The canonical form: addresses strictly rising above a bound, no zero byte. -/
def cellsFrom : Nat → List Host.Cell → Bool
  | _, [] => true
  | n, (a, b) :: r => decide (n ≤ a) && b != 0 && cellsFrom (a + 1) r

/-- The canonical form of memory: strictly rising addresses, no entry equal to what an unlisted byte reads as. -/
def Memory.wf (m : List Host.Cell) : Bool := cellsFrom 0 m

/-- One byte of memory by physical address: stack × 2³⁶ + offset in the stack for DRAM, the local offset elsewhere. -/
def memByte (p : Pkg) (a : Nat) : Byte := cellRead p.mem a

/-- The package with one byte of memory written. -/
def setByte (p : Pkg) (a : Nat) (v : Byte) : Pkg := { p with mem := cellPut p.mem a v }

/-- n bytes from an address. -/
def memBytes (p : Pkg) (a n : Nat) : List Byte := (List.range n).map (fun i => memByte p (a + i))

/-- Bytes written from an address on. -/
def cellsPut : List Host.Cell → Nat → List Byte → List Host.Cell
  | m, _, [] => m
  | m, a, b :: r => cellsPut (cellPut m a b) (a + 1) r

/-- The package with bytes written from an address on. -/
def setBytes (p : Pkg) (a : Nat) (bs : List Byte) : Pkg := { p with mem := cellsPut p.mem a bs }

/-- Whether the 64-byte line that holds an address is poisoned (R98); every line of a stack whose rail was cut by a trip counts as
poisoned until it is written whole (R430). -/
def poisoned (p : Pkg) (a : Nat) : Bool :=
  p.poison.contains (a / 64) || (match Map.look p.lost (a / 2 ^ 36) with | some l => !l.contains (a / 64) | none => false)

/-- A line number inserted in a rising list. -/
def insertLine : List Nat → Nat → List Nat
  | [], k => [k]
  | a :: r, k => if k < a then k :: a :: r else if k = a then a :: r else a :: insertLine r k

/-- The poison tag of a line set or cleared. -/
def setPoison (p : Pkg) (a : Nat) (b : Bool) : Pkg :=
  if b then { p with poison := insertLine p.poison (a / 64) }
  else
    { p with
      poison := p.poison.filter (· != a / 64)
      lost := p.lost.map (fun (kv : Nat × List Nat) => if kv.1 = a / 2 ^ 36 then (kv.1, insertLine kv.2 (a / 64)) else kv) }

/-- A line written with the poison tag and the 0xFF pattern of R98. -/
def poisonLine (p : Pkg) (a : Nat) : Pkg :=
  setPoison (setBytes p (a / 64 * 64) (List.replicate 64 0xFF#8)) a true

/-- The lines that a range of n bytes at an address touches, by their first addresses. -/
def linesOf (a n : Nat) : List Nat :=
  if n = 0 then [] else (List.range ((a + n - 1) / 64 - a / 64 + 1)).map (fun i => (a / 64 + i) * 64)

/-- A range poisoned. -/
def poisonRange (p : Pkg) (a n : Nat) : Pkg := (linesOf a n).foldl poisonLine p

/-- Whether a range touches a poisoned line. -/
def rangePoisoned (p : Pkg) (a n : Nat) : Bool := (linesOf a n).any (poisoned p)

/-- Untagged bytes written (R155): a write that covers a whole line clears its tag; a partial write to a poisoned line
lands and leaves it poisoned. -/
def writeClean (p : Pkg) (a : Nat) (bs : List Byte) : Pkg :=
  (linesOf a bs.length).foldl
    (fun q l => if a ≤ l ∧ l + 64 ≤ a + bs.length then setPoison q l false else q) (setBytes p a bs)

/-- Line-tagged bytes written: each line that a tagged unit touches is written poisoned, the others cleanly. -/
def writeTagged (p : Pkg) (a : Nat) (bs : List Byte) (tag : Nat → Bool) : Pkg :=
  (linesOf a bs.length).foldl
    (fun q l => if tag l then poisonLine q l else q) (writeClean p a bs)

/-! ## Steps -/

/-- A command's meaning as a function on the package: everything but the queue. -/
def State.on (s : State) (f : Pkg → Pkg) : State := { s with pkg := f s.pkg }

end Sys2Proof.Machine
end

