-- ==== Sys2Proof/Machine/Numbers.lean ====
section
/-! DEFINITION. The number formats and their exact arithmetic (R74–R103): values as exact dyadic numbers, one rounding at
each place where the manual rounds. -/
namespace Sys2Proof.Machine
open Sys2Proof

/-- A number: NaN, an infinity, or a finite value (−1)^neg × m × 2^e; a zero keeps its sign. -/
inductive Num where
  | nan
  | inf (neg : Bool)
  | fin (neg : Bool) (m : Nat) (e : Int)
  deriving DecidableEq, Repr

/-- How a format spends its topmost exponent (R74): as IEEE 754, as FP8 E4M3 (one NaN code), or on ordinary values. -/
inductive Tops where
  | ieee | e4m3 | none_
  deriving DecidableEq, Repr

/-- A floating format: exponent bits, mantissa bits, bias, tops (R74). -/
structure Fmt where
  eb : Nat
  mb : Nat
  bias : Nat
  tops : Tops
  deriving DecidableEq, Repr

/-- R74's rows. -/
def fp4 : Fmt := ⟨2, 1, 1, .none_⟩
def e3m2 : Fmt := ⟨3, 2, 3, .none_⟩
def e2m3 : Fmt := ⟨2, 3, 1, .none_⟩
def e4m3 : Fmt := ⟨4, 3, 7, .e4m3⟩
def e5m2 : Fmt := ⟨5, 2, 15, .ieee⟩
def bf16 : Fmt := ⟨8, 7, 127, .ieee⟩
def fp32 : Fmt := ⟨8, 23, 127, .ieee⟩

/-- Bits of a code. -/
def Fmt.width (f : Fmt) : Nat := 1 + f.eb + f.mb

/-- The exponent of the smallest normal. -/
def Fmt.emin (f : Fmt) : Int := 1 - (f.bias : Int)

/-- The greatest finite magnitude as a code without its sign (R74). -/
def Fmt.maxCode (f : Fmt) : Nat :=
  match f.tops with
  | .ieee => (2 ^ f.eb - 1) * 2 ^ f.mb - 1
  | .e4m3 => 2 ^ (f.eb + f.mb) - 2
  | .none_ => 2 ^ (f.eb + f.mb) - 1

/-- The magnitude of a finite code without its sign. -/
def Fmt.magOf (f : Fmt) (c : Nat) : Nat × Int :=
  let ex := c / 2 ^ f.mb
  let m := c % 2 ^ f.mb
  if ex = 0 then (m, f.emin - f.mb) else (2 ^ f.mb + m, (ex : Int) - f.bias - f.mb)

/-- The value of a code (R74). -/
def Fmt.decode (f : Fmt) (code : Nat) : Num :=
  let c := code % 2 ^ (f.eb + f.mb)
  let neg := code.testBit (f.eb + f.mb)
  if f.maxCode < c then
    (if f.tops = .ieee ∧ c = f.maxCode + 1 then .inf neg else .nan)
  else .fin neg (f.magOf c).1 (f.magOf c).2

/-- ⌊log₂ n⌋, 0 for 0. -/
def log2 (n : Nat) : Nat := n.log2

/-- n / 2^k rounded to an integer, ties to even. -/
def rneShift (n k : Nat) : Nat :=
  let q := n / 2 ^ k
  let r := n % 2 ^ k
  let half := 2 ^ k / 2
  if k = 0 then n
  else if r > half ∨ (r = half ∧ q % 2 = 1) then q + 1 else q

/-- m × 2^e rounded to an integer, ties to even. -/
def rneInt (m : Nat) (e : Int) : Nat := if e ≥ 0 then m * 2 ^ e.toNat else rneShift m (-e).toNat

/-- The code, without sign, of m × 2^e rounded to nearest even, its exponent unbounded above: codes above the greatest
finite one mean an overflow. -/
def Fmt.roundCode (f : Fmt) (m : Nat) (e : Int) : Nat :=
  if m = 0 then 0
  else
    let l := (log2 m : Int) + e
    let qe := max (l - f.mb) (f.emin - f.mb)
    let q := rneInt m (e - qe)
    if q < 2 ^ f.mb then q
    else
      let q2 := if q = 2 ^ (f.mb + 1) then 2 ^ f.mb else q
      let qe2 := if q = 2 ^ (f.mb + 1) then qe + 1 else qe
      (qe2 + f.mb + f.bias).toNat * 2 ^ f.mb + (q2 - 2 ^ f.mb)

/-- A sign bit above a magnitude code. -/
def Fmt.withSign (f : Fmt) (neg : Bool) (c : Nat) : Nat := if neg then 2 ^ (f.eb + f.mb) + c else c

/-- The canonical NaN (R88). -/
def Fmt.nanCode (f : Fmt) : Nat :=
  match f.tops with
  | .ieee => (2 ^ f.eb - 1) * 2 ^ f.mb + 2 ^ (f.mb - 1)
  | .e4m3 => 2 ^ (f.eb + f.mb) - 1
  | .none_ => 0

/-- A number rounded to a format's code (R93, R96): overflow and infinity as the table of R96 says, with its sat bit. -/
def Fmt.encode (f : Fmt) (sat : Bool) (x : Num) : Nat :=
  let tooBig (neg : Bool) : Nat :=
    match f.tops with
    | .ieee => f.withSign neg (if sat ∧ f.width = 8 then f.maxCode else f.maxCode + 1)
    | .e4m3 => if sat then f.withSign neg f.maxCode else f.nanCode
    | .none_ => f.withSign neg f.maxCode
  match x with
  | .nan => if f.tops = .ieee ∧ f.width = 8 then 0x7E else f.nanCode
  | .inf neg => tooBig neg
  | .fin neg m e => if f.maxCode < f.roundCode m e then tooBig neg else f.withSign neg (f.roundCode m e)

/-- A number rounded to FP32, and to BF16 (R93, R96). -/
def toF32 (x : Num) : Nat := fp32.encode false x
def ofF32 (c : Nat) : Num := fp32.decode c
def toBf16 (x : Num) : Nat := bf16.encode false x
/-- A number rounded once to FP32, as a number. -/
def round32 (x : Num) : Num := ofF32 (toF32 x)
/-- A number rounded once to the format of the lanes. -/
def roundTo (f : Fmt) (x : Num) : Num := f.decode (f.encode false x)

/-! ## Exact arithmetic -/

/-- A finite number as a signed multiple of 2^e. -/
def sgn (neg : Bool) (m : Nat) : Int := if neg then -(m : Int) else m

/-- The exact sum of signed multiples of powers of two, as a multiple of the least power. -/
def dySum (l : List (Int × Int)) : Int × Int :=
  match l with
  | [] => (0, 0)
  | (m, e) :: r =>
    r.foldl (fun a b =>
      if b.2 ≤ a.2 then (a.1 * (2 : Int) ^ (a.2 - b.2).toNat + b.1, b.2)
      else (a.1 + b.1 * (2 : Int) ^ (b.2 - a.2).toNat, a.2)) (m, e)

/-- The number of a signed multiple; zero is +0. -/
def ofDy (d : Int × Int) : Num := .fin (d.1 < 0) d.1.natAbs d.2

/-- The exact sum of two numbers (R89): +infinity + −infinity is NaN; opposite-signed zeros give +0. -/
def Num.add : Num → Num → Num
  | .nan, _ => .nan
  | _, .nan => .nan
  | .inf a, .inf b => if a = b then .inf a else .nan
  | .inf a, _ => .inf a
  | _, .inf b => .inf b
  | .fin a m e, .fin b n f =>
    if m = 0 ∧ n = 0 then .fin (a && b) 0 0
    else ofDy (dySum [(sgn a m, e), (sgn b n, f)])

/-- The negated number. -/
def Num.neg : Num → Num
  | .nan => .nan
  | .inf a => .inf (!a)
  | .fin a m e => .fin (!a) m e

/-- The exact product: infinity × 0 is NaN. -/
def Num.mul : Num → Num → Num
  | .nan, _ => .nan
  | _, .nan => .nan
  | .inf a, .inf b => .inf (a != b)
  | .inf a, .fin b n _ => if n = 0 then .nan else .inf (a != b)
  | .fin a m _, .inf b => if m = 0 then .nan else .inf (a != b)
  | .fin a m e, .fin b n f => .fin (a != b) (m * n) (e + f)

/-- a × b + c before rounding; the sign of an exact zero follows IEEE 754. -/
def Num.fma (a b c : Num) : Num := (a.mul b).add c

/-- a × 2^k. -/
def Num.scale (x : Num) (k : Int) : Num :=
  match x with
  | .fin a m e => .fin a m (e + k)
  | y => y

/-- The signed multiple of a finite number. -/
def Num.dy : Num → Int × Int
  | .fin a m e => (sgn a m, e)
  | _ => (0, 0)

/-- Whether a ≤ b, both not NaN, with −0 below +0 (R93). -/
def Num.le (a b : Num) : Bool :=
  match a, b with
  | .inf n, _ => n || b == .inf false
  | _, .inf n => !n
  | .fin x m e, .fin y n f =>
    if m = 0 ∧ n = 0 then x || !y
    else decide ((dySum [(sgn y n, f), (-(sgn x m), e)]).1 ≥ 0)
  | _, _ => false

/-- R93's min and max: NaN if either input is. -/
def Num.min (a b : Num) : Num := if a = .nan ∨ b = .nan then .nan else if a.le b then a else b
def Num.max (a b : Num) : Num := if a = .nan ∨ b = .nan then .nan else if a.le b then b else a

/-! ## Operand formats (R167) -/

/-- The format codes of R167. -/
inductive OpFmt where
  | mxfp4 | mxe3m2 | mxe2m3 | mxe4m3 | mxe5m2 | mxint8 | e4m3 | e5m2 | bf16 | fp32
  deriving DecidableEq, Repr

/-- The format of a 4-bit code; none where reserved. -/
def opFmt (c : Nat) : Option OpFmt :=
  match c with
  | 0 => some .mxfp4 | 1 => some .mxe3m2 | 2 => some .mxe2m3 | 3 => some .mxe4m3 | 4 => some .mxe5m2
  | 5 => some .mxint8 | 6 => some .e4m3 | 7 => some .e5m2 | 8 => some .bf16 | 9 => some .fp32 | _ => none

/-- Whether a format has a scale plane. -/
def OpFmt.isMx : OpFmt → Bool
  | .mxfp4 | .mxe3m2 | .mxe2m3 | .mxe4m3 | .mxe5m2 | .mxint8 => true
  | _ => false

/-- Element bits in the element plane (R78). -/
def OpFmt.bitsOf : OpFmt → Nat
  | .mxfp4 => 4
  | .mxe3m2 | .mxe2m3 => 6
  | .mxe4m3 | .mxe5m2 | .mxint8 | .e4m3 | .e5m2 => 8
  | .bf16 => 16
  | .fp32 => 32

/-- The element format; INT8 has none. -/
def OpFmt.elem : OpFmt → Fmt
  | .mxfp4 => Machine.fp4
  | .mxe3m2 => Machine.e3m2
  | .mxe2m3 => Machine.e2m3
  | .mxe4m3 | .e4m3 => Machine.e4m3
  | .mxe5m2 | .e5m2 => Machine.e5m2
  | .mxint8 => Machine.e4m3
  | .bf16 => Machine.bf16
  | .fp32 => Machine.fp32

/-- emax of the element (R76). -/
def OpFmt.emax : OpFmt → Int
  | .mxfp4 => 2 | .mxe3m2 => 4 | .mxe2m3 => 2 | .mxe4m3 => 8 | .mxe5m2 => 15 | _ => 0

/-- Element i of a row of bytes, as its code (R78). -/
def elemCode (f : OpFmt) (row : List Byte) (i : Nat) : Nat :=
  match f with
  | .mxfp4 => (nth row (i / 2) 0).toNat / 16 ^ (i % 2) % 16
  | .mxe3m2 | .mxe2m3 => leField row (24 * (i / 32)) 24 / 2 ^ (6 * (i % 32)) % 64
  | .bf16 => leField row (2 * i) 2
  | .fp32 => leField row (4 * i) 4
  | _ => (nth row i 0).toNat

/-- The value of an element code without its block's scale (R74, R76, R77). -/
def elemVal (f : OpFmt) (c : Nat) : Num :=
  match f with
  | .mxint8 => let v := signed 8 c; .fin (v < 0) v.natAbs (-6)
  | f => f.elem.decode c

/-- Bytes of an element row of n elements (R78): FP6 rows hold whole blocks. -/
def rowBytes (f : OpFmt) (n : Nat) : Nat :=
  match f with
  | .mxfp4 => (n + 1) / 2
  | .mxe3m2 | .mxe2m3 => (6 * n + 7) / 8
  | .bf16 => 2 * n
  | .fp32 => 4 * n
  | _ => n

/-- Blocks of 32 in n elements. -/
def blocksOf (n : Nat) : Nat := (n + 31) / 32

/-! ## Products and sums (R85–R90) -/

/-- The block sum of R85 and R87: the products, exact, summed, scaled by the two scale codes and rounded once to FP32. -/
def blockSum (prods : List Num) (sa sb : Nat) (bad : Bool) : Num :=
  if sa = 255 ∨ sb = 255 ∨ bad ∨ prods.any (· == .nan) then .nan
  else if prods.any (· == .inf false) then (if prods.any (· == .inf true) then .nan else .inf false)
  else if prods.any (· == .inf true) then .inf true
  else
    let d := dySum (prods.map Num.dy)
    if d.1 = 0 then .fin false 0 0 else round32 ((ofDy d).scale ((sa : Int) + sb - 254))

/-- An FP32 addition, rounded once (R89). -/
def add32 (a b : Num) : Num := round32 (a.add b)

/-- One 128-position tile added to the accumulator (R89). -/
def addTile (acc b0 b1 b2 b3 : Num) : Num := add32 acc (add32 (add32 b0 b1) (add32 b2 b3))

/-! ## Output conversion to an MX block (R97) -/

/-- The scale code and element codes of one MX output block. -/
def mxBlock (f : OpFmt) (xs : List Num) : Nat × List Nat :=
  if xs.any (fun x => match x with | .fin _ _ _ => false | _ => true) then (255, xs.map (fun _ => 0))
  else
    let mags := xs.map (fun x => match x with | .fin _ m e => if m = 0 then none else some ((log2 m : Int) + e) | _ => none)
    match mags.filterMap id with
    | [] => (127, xs.map (fun x => match x with
        | .fin neg _ _ => if f = .mxint8 then 0 else f.elem.withSign neg 0
        | _ => 0))
    | l :: ls =>
      let top := ls.foldl max l
      let x : Int := max (-127) (min 127 (top - f.emax))
      ((x + 127).toNat,
        xs.map (fun v => match v with
          | .fin neg m e =>
            if f = .mxint8 then
              let q := min 127 (rneInt m (e - x + 6))
              if neg then (256 - q) % 256 else q
            else
              let c := f.elem.roundCode m (e - x)
              f.elem.withSign neg (min c f.elem.maxCode)
          | _ => 0))

/-- Codes of w bits packed little-endian into bytes. -/
def packCodes (w : Nat) (cs : List Nat) : List Byte :=
  leBytes ((w * cs.length + 7) / 8) ((cs.foldl (fun (acc : Nat × Nat) c => (acc.1 + c * 2 ^ acc.2, acc.2 + w)) (0, 0)).1)

/-- The scales and element bytes of a row converted to an MX format, block by block (R97). -/
def mxRow (f : OpFmt) : Nat → List Num → List Byte × List Byte
  | 0, _ => ([], [])
  | _, [] => ([], [])
  | k + 1, xs =>
    let b := mxBlock f (xs.take 32)
    let r := mxRow f k (xs.drop 32)
    (BitVec.ofNat 8 b.1 :: r.1, packCodes f.bitsOf b.2 ++ r.2)

/-- A row of FP32 results converted to a plain or MX output format: scale bytes and element bytes (R96, R97). -/
def convertRow (f : OpFmt) (sat : Bool) (xs : List Num) : List Byte × List Byte :=
  if f.isMx then mxRow f xs.length xs else ([], packCodes f.bitsOf (xs.map (f.elem.encode sat)))

/-! ## The vector unit's functions (R93–R95) -/

/-- The greatest n with n² ≤ v, bit by bit from bit k down. -/
def isqrt (v : Nat) : Nat → Nat → Nat
  | 0, acc => acc
  | k + 1, acc => isqrt v k (if (acc + 2 ^ k) ^ 2 ≤ v then acc + 2 ^ k else acc)

/-- rcp, correctly rounded to a format (R94). -/
def rcp (f : Fmt) (x : Num) : Num :=
  match x with
  | .nan => .nan
  | .inf n => .fin n 0 0
  | .fin n m e =>
    if m = 0 then .inf n
    else
      let k := log2 m + 2 * f.mb + 8
      let q := 2 ^ k / m
      let sticky := if 2 ^ k % m = 0 then 0 else 1
      roundTo f (.fin n (2 * q + sticky) (-(k : Int) - e - 1))

/-- The finite positive codes near a value v = m × 2^e that lie within n units in the last place of it (R94). -/
def nearCodes (f : Fmt) (n m : Nat) (e : Int) : List Nat :=
  let l := (log2 m : Int) + e
  let ulp : Int := max (l - f.mb) (f.emin - f.mb)
  let c := f.roundCode m e
  ((List.range (4 * n + 3)).map (fun i => c + i - (2 * n + 1))).filter (fun k =>
    decide (2 * n + 1 ≤ c + k) && decide (k ≤ f.maxCode) &&
    (let d := dySum [(((f.magOf k).1 : Int), (f.magOf k).2), (-(m : Int), e)]
     decide ((dySum [((n : Int), ulp), (-(d.1.natAbs : Int), d.2)]).1 ≥ 0)))

/-- The chosen one of a list of codes, as a number; the fallback where the list is empty. -/
def pickCode (f : Fmt) (l : List Nat) (pick fallback : Nat) : Num :=
  f.decode (nth l (if l.length = 0 then 0 else pick % l.length) fallback)

/-- rsqrt (R93, R94): the special cases, and for a positive finite input on BF16 data the exact result rounded once, on FP32 a value within
1 ulp, which one being a free value that is one function of the input (log entry 12). -/
def rsqrt (f : Fmt) (x : Num) : Num :=
  match x with
  | .nan => .nan
  | .inf n => if n then .nan else .fin false 0 0
  | .fin n m e =>
    if m = 0 then .inf n
    else if n then .nan
    else
      let m2 := if e % 2 = 0 then m else 2 * m
      let e2 := if e % 2 = 0 then e else e - 1
      let k := log2 m2 / 2 + 80
      let q := isqrt (2 ^ (2 * k) * 2 ^ 80 / m2) 260 0
      let v : Int := -(k : Int) - 40 - e2 / 2
      if f.mb < 23 then roundTo f (.fin false (2 * q + 1) (v - 1))
      else pickCode f (nearCodes f 1 q v) (Config.rsqrtPick (BitVec.ofNat 32 (f.encode false x))) (f.roundCode q v)

/-- The Taylor sum of e^y for a fixed-point y of 300 fraction bits, term by term. -/
def expTerms (y : Int) : Nat → Nat → Int → Int → Int
  | 0, _, _, acc => acc
  | k + 1, i, t, acc =>
    let t2 := t * y / ((i : Int) * (2 : Int) ^ 300)
    expTerms y k (i + 1) t2 (acc + t2)

/-- A fixed-point number of 300 fraction bits squared k times, kept as mantissa and exponent. -/
def squareTimes : Nat → Nat → Int → Nat × Int
  | 0, m, e => (m, e)
  | k + 1, m, e =>
    let s := m * m
    let d := log2 s - 300
    squareTimes k (s / 2 ^ d) (2 * e + d)

/-- e^x for a finite x of moderate size, to far more than the bits of any format: e^(x/256) by its series, squared eight
times. -/
def expApprox (neg : Bool) (m : Nat) (e : Int) : Nat × Int :=
  let y : Int := if e - 8 + 300 ≥ 0 then sgn neg m * (2 : Int) ^ (e - 8 + 300).toNat else sgn neg m / (2 : Int) ^ (-(e - 8 + 300)).toNat
  let one : Int := (2 : Int) ^ 300
  squareTimes 8 (expTerms y 60 1 one one).toNat (-300)

/-- exp (R93, R94): the special cases, and otherwise on BF16 data the exact result rounded once, on FP32 a value within 2 ulp, which one
being a free value that is one function of the input (log entry 12). -/
def expN (f : Fmt) (x : Num) : Num :=
  match x with
  | .nan => .nan
  | .inf n => if n then .fin false 0 0 else .inf false
  | .fin n m e =>
    if m = 0 ∧ f.mb < 23 then .fin false 1 0
    else if m = 0 then pickCode f (nearCodes f 2 1 0) (Config.expPick (BitVec.ofNat 32 (f.encode false x))) (f.roundCode 1 0)
    else if (log2 m : Int) + e ≥ 8 then (if n then .fin false 0 0 else .inf false)
    else
      let a := expApprox n m e
      let l := (log2 a.1 : Int) + a.2
      if f.mb < 23 then roundTo f (.fin false a.1 a.2)
      else if l < f.emin - f.mb then .fin false 0 0
      else if (dySum [((a.1 : Int), a.2), (-((f.magOf f.maxCode).1 : Int), (f.magOf f.maxCode).2)]).1 > 0 then .inf false
      else pickCode f (nearCodes f 2 a.1 a.2) (Config.expPick (BitVec.ofNat 32 (f.encode false x))) (f.roundCode a.1 a.2)

/-- One level of the fixed pairwise tree of R95. -/
def treeLevel (op : Num → Num → Num) : List Num → List Num
  | a :: b :: r => op a b :: treeLevel op r
  | l => l

/-- The tree of R95 over 2^k lanes. -/
def treeFold (op : Num → Num → Num) : Nat → List Num → Num
  | 0, l => l.headD (.fin false 0 0)
  | k + 1, l => treeFold op k (treeLevel op l)

/-! ## Wide-sum (R99–R103) -/

/-- A WS128 value: W as a 128-bit number and its class. -/
structure Ws where
  w : Nat
  cls : Nat
  deriving DecidableEq, Repr

/-- A summand on the grid of anchor A, and whether it was out of range (R101). -/
def wsOf (a : Int) (x : Num) : Ws × Bool :=
  match x with
  | .nan => (⟨0, 3⟩, false)
  | .inf n => (⟨0, if n then 2 else 1⟩, false)
  | .fin n m e =>
    if m ≠ 0 ∧ (log2 m : Int) + e ≥ a then (⟨0, 3⟩, true)
    else
      let q := rneInt m (e + 104 - a)
      (⟨if n then (2 ^ 128 - q) % 2 ^ 128 else q, 0⟩, false)

/-- The class table of R102. -/
def wsClass (a b : Nat) : Nat :=
  if a = 0 then b else if b = 0 then a else if a = b then a else 3

/-- The sum of two WS128 values (R102). -/
def wsAdd (x y : Ws) : Ws := ⟨(x.w + y.w) % 2 ^ 128, wsClass x.cls y.cls⟩

/-- A WS128 result as a number, to be rounded once (R103). -/
def wsNum (a : Int) (x : Ws) : Num :=
  match x.cls with
  | 0 => let v := signed 128 x.w; if v = 0 then .fin false 0 0 else .fin (v < 0) v.natAbs (a - 104)
  | 1 => .inf false
  | 2 => .inf true
  | _ => .nan

/-! ## Codebook groups (R81–R84) -/

/-- A codebook group's header fields. -/
structure Codebook where
  vecLen : Nat
  entry : Nat
  scale : Nat
  log2g : Nat
  crc : Nat
  deriving DecidableEq, Repr

/-- The header of 64 bytes; none where it fails R84. -/
def codebookOf (h : List Byte) : Option Codebook :=
  let f := leField h 0 1
  let e := leField h 1 1
  let s := leField h 2 1
  let g := leField h 3 1
  if h.length = 64 ∧ h.drop 32 = (h.take 32).map (fun b => ~~~b) then
    if (f = 1 ∨ f = 2) ∧ (e = 1 ∨ e = 2 ∨ e = 3) ∧ s ≠ 255 ∧ 10 ≤ g ∧ g ≤ 13 ∧ leField h 4 2 = 128
        ∧ leField h 6 2 = 0 ∧ leField h 16 16 = 0 then
      some ⟨if f = 1 then 8 else 4, e, s, g, leField h 12 4⟩
    else none
  else none

/-- Bytes of the entry table. -/
def Codebook.tableBytes (c : Codebook) : Nat := 256 * c.vecLen / (if c.entry = 3 then 2 else 1)
/-- Bytes of an index row. -/
def Codebook.indexRow (c : Codebook) : Nat := 2 ^ c.log2g / c.vecLen
/-- Bytes of a whole group: header, table and index plane. -/
def Codebook.groupBytes (c : Codebook) : Nat := 64 + c.tableBytes + 128 * c.indexRow
/-- Bytes of an expanded row of one group (R203). -/
def Codebook.expandedRow (c : Codebook) : Nat := 2 ^ c.log2g / (if c.entry = 3 then 2 else 1)

/-- An index replaced by its entry's bytes (R83). -/
def Codebook.entryBytes (c : Codebook) (table : List Byte) (i : Nat) : List Byte :=
  let n := c.vecLen / (if c.entry = 3 then 2 else 1)
  (table.drop (i * n)).take n

end Sys2Proof.Machine
end

