-- ==== Sys2Proof/Machine/Frames.lean ====
section
/-! DEFINITION. The layouts of frames and of the 64-byte complemented payloads (R53, R69, R275, R279, R282–R284, R288,
R305, R329, R342, R346), as encoders and readers of bytes. -/
namespace Sys2Proof.Machine
open Sys2Proof

/-- The ones' complement of bytes. -/
def complBytes (bs : List Byte) : List Byte := bs.map (fun b => ~~~b)

/-- A payload whose second half is the ones' complement of the first. -/
def withCompl (bs : List Byte) : List Byte := bs ++ complBytes bs

/-- Whether a list of 2n bytes holds the complement of its first n in its last n. -/
def complOk (n : Nat) (bs : List Byte) : Bool := bs.length == 2 * n && bs.drop n == complBytes (bs.take n)

/-! ## The frame header and trailer (R282, R284) -/

/-- The padding of a payload to a 16-byte boundary (R282). -/
def padLen (n : Nat) : Nat := (16 - n % 16) % 16

/-- The header of a frame on a link of version 1 or 2 (R282): a Sitre 1 header carries ver 0b01, and its kinds 0x4–0x8
carry flow 0xFFF and a zero due (R280); its kind 0x3 a zero due. -/
def headerBytes (version : Nat) (f : Frame) : List Byte :=
  let s1 := version == 1
  let flow := if s1 && f.kind != 3 then 0xFFF else f.flow
  let due := if s1 && f.kind != 8 then 0 else f.due.toNat % 2 ^ 24
  let ver := if s1 then 1 else 2
  let cls := if s1 && (f.kind == 4 || f.kind == 5 || f.kind == 6 || f.kind == 7) then 2 else f.cls
  let dst := leBytes 2 f.dst.toNat
  let fl := leBytes 2 flow
  let du := leBytes 3 due
  leBytes 1 (ver + 4 * cls + 16 * f.kind) ++ [0]
    ++ leBytes 2 (f.payload.length + (if f.flag then 4096 else 0) + (if f.last then 8192 else 0))
    ++ dst ++ complBytes dst ++ fl ++ complBytes fl ++ du ++ complBytes du
    ++ leBytes 2 f.src.toNat ++ leBytes 6 f.off ++ leBytes 2 f.inj ++ leBytes 4 f.seq.toNat

/-- The first eight bytes of the trailer: link sequence, reserved, poison mask (R284). -/
def trailerHead (lseq : Nat) (f : Frame) : List Byte := leBytes 2 lseq ++ [0, 0] ++ leBytes 4 f.poison.toNat

/-- A whole frame: header, payload, padding, trailer with its CRC-64 over header, payload and trailer bytes 0–7. -/
def frameBytes (version lseq : Nat) (f : Frame) : List Byte :=
  let h := headerBytes version f
  let t := trailerHead lseq f
  h ++ f.payload ++ List.replicate (padLen f.payload.length) 0 ++ t
    ++ leBytes 8 (crc64 (h ++ f.payload ++ t)).toNat

/-- The length field of a frame's bytes. -/
def wireLen (bs : List Byte) : Nat := leField bs 2 2 % 4096
/-- Where the trailer begins. -/
def wireTrailer (bs : List Byte) : Nat := 32 + wireLen bs + padLen (wireLen bs)
/-- The kind of a frame's bytes. -/
def wireKind (bs : List Byte) : Nat := leField bs 0 1 / 16
/-- The class of a frame's bytes. -/
def wireCls (bs : List Byte) : Nat := leField bs 0 1 / 4 % 4
/-- The version bits. -/
def wireVer (bs : List Byte) : Nat := leField bs 0 1 % 4
/-- The flow word, with its reserved bits. -/
def wireFlow (bs : List Byte) : Nat := leField bs 8 2
/-- The link sequence in the trailer. -/
def wireLseq (bs : List Byte) : Nat := leField bs (wireTrailer bs) 2

/-- Check 1 of R284, apart from an uncorrectable codeword: length, CRC, version. -/
def wireCheck1 (version : Nat) (bs : List Byte) : Bool :=
  let t := wireTrailer bs
  decide (wireLen bs ≤ 2048) && bs.length == t + 16 && wireVer bs == (if version = 1 then 1 else 2)
    && leField bs (t + 8) 8 == (crc64 (bs.take (32 + wireLen bs) ++ (bs.drop t).take 8)).toNat

/-- Check 2 of R284: the complements of dst, flow and due. -/
def wireCheck2 (bs : List Byte) : Bool :=
  leField bs 4 2 + leField bs 6 2 == 0xFFFF && leField bs 8 2 + leField bs 10 2 == 0xFFFF
    && leField bs 12 3 + leField bs 15 3 == 0xFFFFFF

/-- The class that R283 gives a kind and a flow; none where the pair is reserved. -/
def classOf (kind flow : Nat) : Option Nat :=
  if kind ≤ 2 then (if flow = 0 then some 0 else none)
  else if kind = 3 then (if flow = 1 then some 0 else none)
  else if kind ≤ 7 then (if flow = 0xFFF then some 2 else if 2 ≤ flow ∧ flow ≤ 0xFFE then some 1 else none)
  else if kind = 8 then some 3
  else none

/-- Whether a control type is one of R282's table. -/
def ctlDefined (c : Nat) : Bool := 1 ≤ c && c ≤ 5
/-- Whether a control type is link-local (R301). -/
def ctlLocal (c : Nat) : Bool := c == 1 || c == 2

/-- Check 4 of R284 with R301: no reserved field set, no reserved kind or control type, the class of R283, and dst chip 0
exactly on link-local frames. -/
def wireCheck4 (bs : List Byte) : Bool :=
  leField bs 1 1 == 0 && leField bs 2 2 / 16384 == 0 && wireFlow bs / 4096 == 0
    && leField bs (wireTrailer bs + 2) 2 == 0
    && classOf (wireKind bs) (wireFlow bs) == some (wireCls bs)
    && (wireKind bs != 3
        || (ctlDefined (leField bs 20 1) && leField bs 21 5 == 0
            && (!ctlLocal (leField bs 20 1) || leField bs 4 2 == 0)))

/-- The full due time: congruent to the field modulo 2²⁴ and within [t − 2²³, t + 2²³) (R282). -/
def fullDue (t : DWord) (due24 : Nat) : DWord :=
  let base : DWord := t - 0x800000#64
  base + BitVec.ofNat 64 ((due24 + 2 ^ 24 - base.toNat % 2 ^ 24) % 2 ^ 24)

/-- The frame that checked bytes carry, as it enters the die router at bell time t. A response keeps its header's
status field as it stands (R315). -/
def frameOf (t : DWord) (bs : List Byte) : Frame :=
  { kind := wireKind bs, cls := wireCls bs
    flag := (leField bs 2 2).testBit 12, last := (leField bs 2 2).testBit 13
    dst := BitVec.ofNat 16 (leField bs 4 2), src := BitVec.ofNat 16 (leField bs 18 2)
    flow := wireFlow bs % 4096
    due := if wireKind bs = 8 then BitVec.ofNat 64 (leField bs 12 3) else fullDue t (leField bs 12 3)
    off := leField bs 20 6, inj := leField bs 26 2, seq := BitVec.ofNat 32 (leField bs 28 4)
    payload := (bs.drop 32).take (wireLen bs)
    poison := BitVec.ofNat 32 (leField bs (wireTrailer bs + 4) 4) }

/-! ## Injectors (R69 bytes 4–5) -/

/-- The injector field: instance in [7:0], die in [9:8], kind in [10] (1 = core). -/
def injField (core : Bool) (die inst : Nat) : Nat := inst % 256 + (die % 4) * 256 + (if core then 1024 else 0)
/-- A core as injector: its slot. -/
def injCore (c : CoreId) : Nat := injField true c.die.val c.slot
/-- A bobbin as injector: its instance; the die of a gateway bobbin, which has none, is 0. -/
def injBob (b : BobId) : Nat :=
  match b with
  | .cluster d _ _ => injField false d.val b.inst
  | .gateway _ => injField false 0 b.inst
/-- Injector die. -/
def injDie (i : Nat) : Fin 4 := ⟨i / 256 % 4, by omega⟩
/-- Whether the injector is a core. -/
def injIsCore (i : Nat) : Bool := i.testBit 10
/-- Injector instance. -/
def injInst (i : Nat) : Nat := i % 256

/-- An injector that is a gateway bobbin. -/
def injIsGateway (i : Nat) : Bool := !injIsCore i && 0x80 ≤ injInst i && injInst i < 0x88

/-! ## Payloads -/

/-- The late report's payload (R69). -/
def lateReportPayload (f : Frame) (code : Nat) (stageChip : Chip) (stagePort : Nat) (delivering : Bool) (stageDie : Nat)
    (now : DWord) : List Byte :=
  withCompl (leBytes 2 (f.flow + 4096 * code) ++ leBytes 2 f.src.toNat ++ leBytes 2 (f.inj % 2048)
    ++ leBytes 2 stageChip.toNat
    ++ leBytes 1 (stagePort % 32 + (if delivering then 32 else 0) + 64 * (stageDie % 4)) ++ [0, 0, 0]
    ++ leBytes 4 f.seq.toNat ++ leBytes 8 now.toNat ++ leBytes 8 f.due.toNat)

/-- The status a late report's code stands for (R69); none for a reserved code. -/
def lateStatus (code : Nat) : Option Status :=
  if code = 1 then some Status.lateNoSlot else if code = 2 then some Status.lateMissed
  else if code = 3 then some Status.lateArrived else if code = 4 then some Status.failedLink else none

/-- The code of a status in a late report (R69). -/
def lateCode (st : Status) : Nat :=
  if st = Status.lateNoSlot then 1 else if st = Status.lateMissed then 2 else if st = Status.lateArrived then 3 else 4

/-- The bell frame's payload (R53). -/
def bellPayload (depart : DWord) (frac hops rootIndex : Nat) (locked holdover : Bool) (root sender : Chip) (port : Nat)
    (echo : Option Echo) (heartbeat : Nat) : List Byte :=
  let e : Echo := echo.getD ⟨0, 0, 0, 0⟩
  withCompl (leBytes 8 depart.toNat ++ leBytes 1 (frac % 16 + 16 * (e.arriveFrac % 16))
    ++ leBytes 1 (hops % 16 + 16 * (rootIndex % 4) + (if locked then 64 else 0) + (if holdover then 128 else 0))
    ++ leBytes 2 root.toNat ++ leBytes 2 sender.toNat
    ++ leBytes 1 (port % 32 + (if echo.isSome then 32 else 0))
    ++ leBytes 1 (e.departFrac % 16 + 16 * (heartbeat % 16))
    ++ leBytes 8 e.depart.toNat ++ leBytes 8 e.arrive.toNat)

/-- The training frame's payload (R279). -/
def trainingPayload (versions chosen step port : Nat) (assigned : Bool) (chip : Chip) (rxMap : Half) (part : Word)
    (freeUnits : List Nat) (nextSeq : Nat) : List Byte :=
  withCompl (leBytes 1 versions ++ leBytes 1 chosen ++ leBytes 1 step
    ++ leBytes 1 (port % 32 + (if assigned then 32 else 0))
    ++ leBytes 2 (if assigned then chip.toNat else 0) ++ leBytes 2 rxMap.toNat ++ leBytes 4 part.toNat
    ++ leBytes 2 (nth freeUnits 0 0) ++ leBytes 2 (nth freeUnits 1 0) ++ leBytes 2 (nth freeUnits 2 0) ++ leBytes 2 (nth freeUnits 3 0)
    ++ leBytes 2 nextSeq ++ List.replicate 10 0)

/-- The identity frame's payload (R305). -/
def identityPayload (chip : Chip) (port : Nat) (assigned : Bool) (part job : Word) (tag : Nat) (now : DWord) : List Byte :=
  withCompl (leBytes 2 chip.toNat ++ leBytes 1 (port % 32 + (if assigned then 32 else 0) + 64 * (port / 8 % 4)) ++ [0]
    ++ leBytes 4 part.toNat ++ leBytes 4 job.toNat ++ leBytes 1 (tag % 64) ++ [0, 0, 0]
    ++ leBytes 8 now.toNat ++ List.replicate 8 0)

/-- The audit frame's payload (R288): sent and returned units of C0–C3. -/
def auditPayload (sent returned : List Nat) : List Byte :=
  withCompl ((List.range 4).flatMap (fun c => leBytes 4 (nth sent c 0) ++ leBytes 4 (nth returned c 0)))

/-- The fence notice's payload (R329). -/
def fencePayload (chip declarer : Chip) (reason : Nat) (at_ : DWord) : List Byte :=
  withCompl (leBytes 2 chip.toNat ++ leBytes 2 declarer.toNat ++ leBytes 1 reason ++ [0, 0, 0]
    ++ leBytes 8 at_.toNat ++ List.replicate 16 0)

/-- The link word (R275). -/
def linkWordBytes (ack : Nat) (nak retrain : Bool) (rxMap : Half) (freed : List Nat) : List Byte :=
  withCompl (leBytes 2 ack ++ leBytes 1 ((if nak then 1 else 0) + (if retrain then 2 else 0)) ++ [0]
    ++ leBytes 2 rxMap.toNat ++ [0, 0]
    ++ leBytes 2 (nth freed 0 0) ++ leBytes 2 (nth freed 1 0) ++ leBytes 2 (nth freed 2 0) ++ leBytes 2 (nth freed 3 0))

/-- The collective control payload (R346): grant, digest, verdict or count. -/
def controlPayload (type phase stage group rank : Nat) (passThru pass : Bool) (epoch : Word) (first count : Nat)
    (st : Status) (digest : DWord) : List Byte :=
  withCompl (leBytes 1 (type + 16 * phase + 64 * stage) ++ leBytes 1 group
    ++ leBytes 2 (rank % 1024 + (if passThru then 1024 else 0) + (if pass then 2048 else 0))
    ++ leBytes 4 epoch.toNat ++ leBytes 2 first ++ leBytes 2 count ++ leBytes 2 st.toNat ++ [0, 0]
    ++ leBytes 8 digest.toNat ++ List.replicate 8 0)

/-- The close payload of a chunk (R342). -/
def closePayload (phase stage group rank : Nat) (range passThru : Bool) (epoch : Word) (chunk lines : Nat) (st : Status)
    (anchor : Nat) (ws : Bool) (crc : DWord) : List Byte :=
  withCompl (leBytes 1 (1 + 16 * phase + 64 * stage) ++ leBytes 1 group
    ++ leBytes 2 (rank % 1024 + (if range then 1024 else 0) + (if passThru then 2048 else 0))
    ++ leBytes 4 epoch.toNat ++ leBytes 2 chunk ++ leBytes 2 lines ++ leBytes 2 st.toNat
    ++ leBytes 1 anchor ++ leBytes 1 (if ws then 1 else 0) ++ leBytes 8 crc.toNat ++ List.replicate 8 0)

end Sys2Proof.Machine
end

