-- ==== Sys2Proof/Machine/Items.lean ====
section
/-! DEFINITION. Readers and writers of the package's parts, and how an item ends at its injector: instructions, commons
requests, move frames and chunks (R71, R171, R201, R316, R323, R349). -/
namespace Sys2Proof.Machine
open Sys2Proof

/-! ## Parts -/

/-- A context after reset (R131, R173). -/
def Ctx.reset : Ctx :=
  { state := .idle, pc := 0, s := [], v := [], toks := [], latches := [], sticky := ⟨0, 0⟩, policy := 0x1F, wait := none
    stop := none, brUntil := 0, firstBad := none, halted := false, bp := none, stepping := false, stepInst := none, skipBp := false
    issuedAt := 0, buf := [] }
def ctxOf (p : Pkg) (c : CtxId) : Ctx := Map.getD p.ctxs c Ctx.reset
def setCtx (p : Pkg) (c : CtxId) (x : Ctx) : Pkg := { p with ctxs := Map.put p.ctxs c x }

def portOfPkg (p : Pkg) (n : Fin 32) : Port := Map.getD p.ports n Port.reset
def setPort (p : Pkg) (n : Fin 32) (x : Port) : Pkg := { p with ports := Map.put p.ports n x }

def Router.reset : Router := ⟨[], none, 0⟩
def router (p : Pkg) (d : Fin 4) : Router := Map.getD p.routers d Router.reset
def setRouter (p : Pkg) (d : Fin 4) (r : Router) : Pkg := { p with routers := Map.put p.routers d r }

def Win.reset : Win := ⟨.closed, 0, false, none, 0⟩
def winOf (p : Pkg) (st : StoreId) (w : Nat) : Win := Map.getD p.wins (st, w) Win.reset
def setWin (p : Pkg) (st : StoreId) (w : Nat) (x : Win) : Pkg := { p with wins := Map.put p.wins (st, w) x }

def Store.reset : Store := ⟨none, 0, [], [], 0, 0, []⟩
def storeOf (p : Pkg) (st : StoreId) : Store := Map.getD p.stores st Store.reset
def setStore (p : Pkg) (st : StoreId) (x : Store) : Pkg := { p with stores := Map.put p.stores st x }

def Engine.reset : Engine := ⟨none, false, 0, 3, none, none⟩
def engineOf (p : Pkg) (c : CoreId) : Engine := Map.getD p.engines c Engine.reset
def setEngine (p : Pkg) (c : CoreId) (x : Engine) : Pkg := { p with engines := Map.put p.engines c x }

def Bobbin.reset : Bobbin :=
  { descs := [], lastQueue := 15, fifo := [], reserved := 0, popHeld := false, exposed := 0, exposedLen := 0
    postResult := none, slots := [], firstBad := [] }
def bobOf (p : Pkg) (b : BobId) : Bobbin := Map.getD p.bobs b Bobbin.reset
def setBob (p : Pkg) (b : BobId) (x : Bobbin) : Pkg := { p with bobs := Map.put p.bobs b x }

def Stack.reset : Stack :=
  { step := 0, below := 0, override := false, compatAt := 0, refreshAt := 0, nextBank := 0, patrolPos := 0, patrolAt := 0, tracks := []
    copy := none, waiting := [], held := [], heldAt := none, log := [], sampleAt := 0, temp := 0, tripped := false, railCut := false, coolAt := none }
def stackOf (p : Pkg) (n : Fin 12) : Stack := Map.getD p.stackUnits n Stack.reset
def setStack (p : Pkg) (n : Fin 12) (x : Stack) : Pkg := { p with stackUnits := Map.put p.stackUnits n x }

def Mill.reset : Mill :=
  { path := [], queue := [], run := none, gated := false, idleAt := 0, pauseTo := 0, blank := none, known := [] }
def millOf (p : Pkg) (m : MillId) : Mill := Map.getD p.mills m Mill.reset
def setMill (p : Pkg) (m : MillId) (x : Mill) : Pkg := { p with mills := Map.put p.mills m x }

def Well.reset : Well := ⟨[], []⟩
def wellOf (p : Pkg) (d : Fin 4) : Well := Map.getD p.wells d Well.reset
def setWell (p : Pkg) (d : Fin 4) (x : Well) : Pkg := { p with wells := Map.put p.wells d x }

def Ledger.reset : Ledger := ⟨[], [], none, false, []⟩
def ledgerOf (p : Pkg) (d : Fin 4) : Ledger := Map.getD p.ledgers d Ledger.reset
def setLedger (p : Pkg) (d : Fin 4) (x : Ledger) : Pkg := { p with ledgers := Map.put p.ledgers d x }

def atomWinOf (p : Pkg) (d : Fin 4) (chip : Chip) : AtomWin := Map.getD p.atomWins (d, chip) ⟨0, [], []⟩
def setAtomWin (p : Pkg) (d : Fin 4) (chip : Chip) (x : AtomWin) : Pkg :=
  { p with atomWins := Map.put p.atomWins (d, chip) x }

/-- DRT.CHIP: the package's chip number, held in DRT instance 0 (R293). -/
def chipReg (p : Pkg) : Word := getReg p (.drt 0) 0x090
/-- Whether a chip number is assigned (R294). -/
def chipAssigned (p : Pkg) : Bool := bit (chipReg p) 16
/-- The package's own chip number (R293). -/
def ownChip (p : Pkg) : Chip := BitVec.ofNat 16 (chipReg p).toNat

/-- A fresh item sequence (R65; the numbering is the model's, log entry 10): odd, where a chunk's sequence is even (R342). -/
def freshSeq (p : Pkg) : Pkg × Word := ({ p with nextSeq := p.nextSeq + 2 }, p.nextSeq + 1)
/-- A fresh order number. -/
def freshId (p : Pkg) : Pkg × Nat := ({ p with nextId := p.nextId + 1 }, p.nextId)

/-! ## Stores in the map (R27, R137) -/

/-- The local offset of a store's first byte (R27). -/
def StoreId.base : StoreId → Nat
  | .core c => 0x010000000000 + c.die.val * 0x10000000 + c.slot * 0x100000
  | .cluster d c => 0x011000000000 + d.val * 0x10000000 + c.val * 0x800000
/-- A store's capacity in bytes (R136). -/
def StoreId.size : StoreId → Nat
  | .core _ => 0x100000
  | .cluster _ _ => 0x800000
/-- A store's number of banks (R136). -/
def StoreId.banks : StoreId → Nat
  | .core _ => 32
  | .cluster _ _ => 64
/-- A store's number of windows (R136). -/
def StoreId.windows : StoreId → Nat
  | .core _ => 8
  | .cluster _ _ => 16

/-- The interleave field of a store (R137, R158). -/
def ilvOf (p : Pkg) (st : StoreId) : Nat := bits (getReg p st.page 0x088) 5 4

/-- The bank that holds a store offset (R137). -/
def bankOf (p : Pkg) (st : StoreId) (a : Nat) : Nat :=
  match st, ilvOf p st with
  | .core _, 0 => a / 64 % 32
  | .core _, 1 => 16 * (a / 2 ^ 19 % 2) + a / 64 % 16
  | .core _, _ => 8 * (a / 2 ^ 18 % 4) + a / 64 % 8
  | .cluster _ _, 0 => a / 64 % 64
  | .cluster _ _, 1 => 32 * (a / 2 ^ 22 % 2) + a / 64 % 32
  | .cluster _ _, _ => 16 * (a / 2 ^ 21 % 4) + a / 64 % 16

/-- Whether a store is in service and its block ENABLED, so that another agent may reach it (R45, R157). -/
def storeServes (p : Pkg) (st : StoreId) : Bool :=
  inService p st.page && enabled p st.page && (storeOf p st).filling.isNone

/-- Whether any bank touched by n bytes at a store offset sleeps or is being woken (R152, R153). -/
def rangeAsleep (p : Pkg) (st : StoreId) (a n : Nat) : Bool :=
  (linesOf a n).any (fun l => (storeOf p st).asleep.testBit (bankOf p st l))

/-- An access that a cluster store admits is an item of its page, over at once (R159, R392). -/
def clstAccess (p : Pkg) (st : StoreId) : Pkg :=
  match st with
  | .cluster d k => tallyOut (tallyIn p (.clst d k) 1) (.clst d k) 1
  | .core _ => p

/-- ASLEEP_REFUSED gains 1 and asleep_refused is set (R152). -/
def countAsleep (p : Pkg) (st : StoreId) : Pkg :=
  match st with
  | .core c => raise (bump p (.core c) 0x0C0 1) (.core c) 24
  | .cluster d c => raise (bump p (.clst d c) 0x0D0 1) (.clst d c) 22

/-! ## Instructions -/

/-- The instruction with an id replaced. -/
def updInst (p : Pkg) (id : Nat) (f : Inst → Inst) : Pkg :=
  { p with insts := p.insts.map (fun i => if i.id = id then f i else i) }

/-- An issued instruction ends with a status; it retires under R172 when INSTR_RETIRE takes it. An instruction that has
ended keeps its status (R171). -/
def endInst (p : Pkg) (id : Nat) (st : Status) : Pkg :=
  updInst p id (fun i => if i.ended.isSome then i else { i with ended := some st })

/-- A latch with a retiring status (R172). -/
def Latched.take (l : Latched) (st : Status) : Latched :=
  ⟨Status.worst l.worst st, if Status.cls st = 0 then l.bad else min 65535 (l.bad + 1)⟩

/-- What a retirement does to its context (R131, R170, R172, R174, R489): the token count falls, the latches take the status, a
WAITING context runs on when its wait retires, a stopping one counts what its stop ended, and a stepped one halts. -/
def Ctx.retire (x : Ctx) (i : Inst) (st : Status) : Ctx :=
  let t := bits i.word 10 8
  let sig := bit i.word 11
  { x with
    toks := if sig then Map.put x.toks t (Map.getD x.toks t 0 - 1) else x.toks
    latches := if sig then Map.put x.latches t ((Map.getD x.latches t ⟨0, 0⟩).take st) else x.latches
    sticky := x.sticky.take st
    state := if i.unit = .waitUnit ∧ x.state = .waiting then .running else x.state
    wait := if i.unit = .waitUnit then none else x.wait
    stop := x.stop.map (fun (r : StopInfo) => if st = Status.failedDisabled then { r with disabled := r.disabled + 1 } else r)
    halted := x.halted || x.stepInst == some i.id
    stepping := x.stepping && x.stepInst != some i.id
    stepInst := if x.stepInst = some i.id then none else x.stepInst }

/-- An instruction retires with a status, its context's halt policy apart (R130, R171, R172): it leaves the list, CTX_INSTR, for an engine
instruction ENG_INSTR, and the CORE tallies count it, and its context takes the retirement. -/
def retireAs (p : Pkg) (i : Inst) (st : Status) : Pkg :=
  let g := Page.core i.ctx.core
  let q := { p with insts := p.insts.filter (fun x => x.id != i.id) }
  let stepped := (ctxOf q i.ctx).stepInst = some i.id
  let q := setCtx q i.ctx ((ctxOf q i.ctx).retire i st)
  let q := if i.unit = .engine then bump q g 0x420 1 else q
  let q := endItem (bump q g (0x148 + 0x80 * i.ctx.ctx.val) 1) g i.id st
  if stepped then raise q .dbg 17 else q

/-- The wait that a context has issued and that has not retired. -/
def waitInst (p : Pkg) (c : CtxId) : Option Inst := p.insts.find? (fun i => i.ctx == c && i.unit == .waitUnit)

/-! ## Commons requests -/

/-- The CMN page of a requester's die. -/
def CReq.cmn (r : CReq) : Page := .cmn ⟨r.ctx.core.die.val, by omega⟩

/-- ATOM_LOG, ATOM_SEQ and ATOM_OFS take an atomic whose outcome is open; Caselm records it (R323, R334). -/
def atomLog (p : Pkg) (r : CReq) (st : Status) : Pkg :=
  let g := r.cmn
  let q := setReg p g 0x0A0 (BitVec.ofNat 32 (r.chip.toNat * 65536 + st.toNat))
  let q := setReg q g 0x0A4 (r.ledger.getD 0)
  let q := setReg64 q g 0x0A8 (BitVec.ofNat 64 r.off)
  record q (some g) (if st = Status.unknownNoReply then 18 else 17) st 2 true [r.chip.toNat, r.off, r.ctx.core.die.val, (r.ledger.getD 0).toNat]

/-- A commons request ends with its one status (R316): it leaves the list; a load that ends with no data poisons its
destination; a store that fails spoils the later flag stores of its task (R318); an atomic's sequence is resolved, or
stays pinned (R321, R323); its instruction takes the status. -/
def endReq (p : Pkg) (r : CReq) (st : Status) (pin : Bool) : Pkg :=
  let q := { p with creqs := p.creqs.filter (fun x => x.id != r.id) }
  let q := if r.copies > 0 then tallyOut q r.cmn 1 else q
  let q := if r.kind = 5 ∧ st ≠ Status.done ∧ st ≠ Status.donePoisoned then poisonRange q r.dest r.len else q
  let q :=
    if r.kind = 4 ∧ Status.cls st ≠ 0 then
      let x := ctxOf q r.ctx
      setCtx q r.ctx { x with firstBad := some (match x.firstBad with | some b => min b r.id | none => r.id) }
    else q
  let q :=
    match r.ledger with
    | none => q
    | some s =>
      let a := atomWinOf q r.ctx.core.die r.chip
      setAtomWin q r.ctx.core.die r.chip
        { a with
          outstanding := a.outstanding.filter (· != s)
          pinned := if pin then a.pinned ++ [s] else a.pinned }
  endInst q r.inst st

/-- The request with a sequence. -/
def reqBySeq (p : Pkg) (s : Word) : Option CReq := p.creqs.find? (fun r => decide (0 < r.copies) && r.seq == s)

/-- A commons request replaced. -/
def updReq (p : Pkg) (r : CReq) : Pkg := { p with creqs := p.creqs.map (fun x => if x.id = r.id then r else x) }

/-- A copy of a request ends late.*, failed.link or refused on this package (R316, R323). A load or store ends with that
status. An atomic ends late.* when every copy sent so far has; a local refusal ends it when no copy had been sent;
otherwise it goes on under R323. -/
def copyEnded (p : Pkg) (r : CReq) (st : Status) : Pkg :=
  if r.kind ≠ 6 then endReq p r st false
  else if Status.cls st = 2 then
    (if r.lateCopies + 1 = r.copies then endReq p r st false else updReq p { r with lateCopies := r.lateCopies + 1 })
  else if Status.cls st = 1 then
    (if r.copies ≤ 1 then endReq p { r with copies := 0 } st false else updReq p { r with copies := r.copies - 1 })
  else p

/-! ## Frames end at their injectors -/

/-- The descriptor of an order number replaced. -/
def Bobbin.upd (b : Bobbin) (d : Desc) : Bobbin := { b with descs := b.descs.map (fun x => if x.order = d.order then d else x) }

/-- The descriptor's bobbin holds it again after a run. -/
def keepDesc (b : BobId) (x : Pkg × Desc) : Pkg := setBob x.1 b ((bobOf x.1 b).upd x.2)

/-- Bytes from the first to the last byte that rows of n bytes at a pitch in lines touch. -/
def extent (rows n pitch : Nat) : Nat := (rows - 1) * (pitch * 64) + n

/-- The lesser of a number and an optional one. -/
def leastOpt (o : Option Nat) (n : Nat) : Option Nat := match o with | some k => some (min k n) | none => some n

/-- A descriptor takes a status; one of the first group of R205 stops further issue. -/
def Desc.take (d : Desc) (st : Status) : Desc :=
  let goesOn := Status.cls st = 0 || st = Status.failedPoison
  { d with status := Status.worst d.status st, stopped := d.stopped || !goesOn }

/-- Whether a local offset lies in an exposed extent (R401). -/
def isExposed (p : Pkg) (a : Nat) : Bool := p.rv.exposed.any (fun e => decide (e.1 ≤ a / 65536) && decide (a / 65536 < e.1 + e.2))

/-- Caselm adds the granules of a range to its exposure record (R401); a full record of 4,096 extents takes the whole mirrored range in
place of its parts. -/
def addExposed (p : Pkg) (a len : Nat) : Pkg :=
  let first := a / 65536
  let n := (a + len + 65535) / 65536 - first
  if len = 0 ∨ p.rv.exposed.any (fun e => decide (e.1 ≤ first) && decide (first + n ≤ e.1 + e.2)) then p
  else if p.rv.exposed.length < 4096 then { p with rv := { p.rv with exposed := p.rv.exposed ++ [(first, n)] } }
  else
    let whole : Option MirrorDef :=
      match p.rv.job with
      | some j => j.sec.mirrors.find? (fun m => decide (m.first ≤ first) && decide (first < m.first + m.granules))
      | none => none
    match whole with
    | some m =>
      let others := p.rv.exposed.filter (fun (e : Nat × Nat) => !(decide (m.first ≤ e.1) && decide (e.1 + e.2 ≤ m.first + m.granules)))
      { p with rv := { p.rv with exposed := others ++ [(m.first, m.granules)] } }
    | none => p

/-- A unit's first byte in the move, its rows taken one after another (R198). -/
def Desc.posOf (d : Desc) (u : Nat × Nat × Nat) : Nat := u.1 * d.len + u.2.1

/-- EXPOSED and EXPOSED_LEN take the range from a byte of the move to the end of its destination, and Caselm adds it to the exposed
regions (R208). -/
def exposeFrom (p : Pkg) (b : BobId) (d : Desc) (pos : Nat) : Pkg :=
  let row := if d.len = 0 then 0 else pos / d.len
  let a := d.dstOff + row * d.dpitch * 64 + pos - row * d.len
  let len := d.dstOff + extent d.rows d.len d.dpitch - a
  let x := bobOf p b
  let q := setBob p b { x with exposed := BitVec.ofNat 64 ((ownChip p).toNat * 2 ^ 48 + a), exposedLen := BitVec.ofNat 32 len }
  let q := setReg64 q (.bob b) 0x0A8 (BitVec.ofNat 64 ((ownChip p).toNat * 2 ^ 48 + a))
  addExposed (setReg q (.bob b) 0x0B0 (BitVec.ofNat 32 len)) a len

/-- A line of a twin write stays unmirrored (R208): the exposed range runs from the first such line to the end of the destination, and starts
earlier when an earlier line turns out unmirrored. With the first one the mirror is lost: UNMIRRORED, the unmirrored event, and no
further mirror frames. -/
def loseMirror (p : Pkg) (b : BobId) (d : Desc) (pos : Nat) : Pkg × Desc :=
  let first := (d.mtodo.map d.posOf).foldl min pos
  let e := { d with exposedAt := leastOpt d.exposedAt first, mtodo := [], mticket := 0 }
  let q := if e.exposedAt = d.exposedAt then p else exposeFrom p b d first
  if d.mirrorLost then (q, e)
  else (raise (bump q (.bob b) 0x128 1) (.bob b) 17, { e.take Status.doneUnmirrored with mirrorLost := true })

/-- How a frame of a move that has ended bears on its descriptor (R205, R208): done and done.poisoned let it go on; a mirror
frame that ends failed.link, late.* or unknown.no_ack loses the mirror; any other ending stops it. -/
def settleFrame (p : Pkg) (b : BobId) (d : Desc) (f : MoveFrame) (st : Status) : Pkg × Desc :=
  let d := { d with frames := d.frames.map (fun x => if x.seq = f.seq then { x with ended := some st } else x) }
  if Status.cls st = 0 then (p, d.take st)
  else
    let p := bump p (.bob b) 0x118 1
    let lost := st = Status.failedLink ∨ Status.cls st = 2 ∨ st = Status.unknownNoAck ∨ p.fences.any (fun e => e.chip == d.mirror)
    if f.mirror ∧ lost then loseMirror p b d f.off
    else
      let d := { d.take st with firstFail := leastOpt d.firstFail (f.off / 64) }
      if f.read then (p, d)
      else
        match d.source with
        | .put _ c _ =>
          let x := ctxOf p c
          (setCtx p c { x with firstBad := leastOpt x.firstBad d.order }, d)
        | .posting => (setBob p b { bobOf p b with firstBad := Map.put (bobOf p b).firstBad d.queue ((leastOpt (Map.look (bobOf p b).firstBad d.queue) d.order).getD d.order) }, d)
        | .far _ => (p, d)

/-- The bobbin and descriptor that hold an unended frame of a sequence. -/
def frameHolder (p : Pkg) (s : Word) : Option (BobId × Desc × MoveFrame) :=
  p.bobs.findSome? (fun kv => kv.2.descs.findSome? (fun d =>
    (d.frames.find? (fun f => f.seq == s && f.ended.isNone)).map (fun f => (kv.1, d, f))))

/-- A frame of a move ends with a status at its injector. -/
def endMoveFrame (p : Pkg) (s : Word) (st : Status) : Pkg :=
  match frameHolder p s with
  | some (b, d, f) => keepDesc b (settleFrame p b d f st)
  | none => p

/-- Index in a contributor's status area that an outgoing chunk bears on (R339): its chunk, or in an exchange the receiver's rank. -/
def ChunkKey.index (k : ChunkKey) : Nat := k.chunk

/-- A status taken in a contributor's area: the worse of the two. -/
def Contrib.mark (k : Contrib) (i : Nat) (st : Status) : Contrib := { k with area := Map.put k.area i (Status.worst (Map.getD k.area i 0) st) }

/-- The well with the outgoing chunk of a sequence toward a chip ended (R343, R350): a status that is not done goes into the area of
the contributors of this die that inject it. -/
def Well.endChunk (w : Well) (s : Word) (dest : Chip) (st : Status) : Well :=
  { w with insts := w.insts.map (fun (i : Instance_) =>
      let hit (o : ChunkOut) : Bool := o.seq == s && o.chip == dest && o.ended.isNone
      { i with
        outs := i.outs.map (fun (o : ChunkOut) => if hit o then { o with ended := some st } else o)
        contribs := i.contribs.map (fun (k : Contrib) =>
          match i.outs.find? (fun o => hit o && o.inj == injCore k.ctx.core) with
          | some o => if Status.cls st = 0 then k else k.mark o.key.index st
          | none => k) }) }

/-- Whether a well holds an unended outgoing chunk of a sequence toward a chip. -/
def Well.sends (w : Well) (s : Word) (dest : Chip) : Bool :=
  w.insts.any (fun i => i.outs.any (fun o => o.seq == s && o.chip == dest && o.ended.isNone))

/-- The chunk of a sequence ends at every well that sends it: the WELL tally and chunk_failed follow (R354, R355). -/
def endChunks (p : Pkg) (s : Word) (dest : Chip) (st : Status) : Pkg :=
  ([0, 1, 2, 3] : List (Fin 4)).foldl (fun q d =>
    let w := wellOf q d
    if w.sends s dest then
      let q := endItem (setWell q d (w.endChunk s dest st)) (.well d) s.toNat st
      if Status.cls st = 0 then q else raise q (.well d) 17
    else q) p

/-- The stage that ended an item, or its acknowledgement, tells the injector on this package (R69, R71): the commons
request or move frame of that sequence takes the status. -/
def endAtInjector (p : Pkg) (s : Word) (st : Status) : Pkg :=
  match reqBySeq p s with
  | some r => copyEnded p r st
  | none =>
    endMoveFrame p s st

/-- A frame of this package ends with a status at its injector: a chunk's by its sequence and its destination, another's by its
sequence. -/
def endFrame (p : Pkg) (f : Frame) (st : Status) : Pkg := if f.kind = 7 then endChunks p f.seq f.dst st else endAtInjector p f.seq st

/-! ## Handing frames to routers -/

/-- The die whose router takes what Caselm sends: the lowest-numbered that carries control traffic (log entry 35). -/
def replyDie (p : Pkg) : Option (Fin 4) := (List.finRange 4).find? (fun d => carries p (.drt d))

/-- A frame handed to a die's router by this package. A router that is not ENABLED injects nothing new: the item ends
refused.offline at its injector (R310); a quarantined package keeps its control traffic (R332). -/
def inject (p : Pkg) (d : Fin 4) (f : Frame) : Pkg :=
  if enabled p (.drt d) || (carries p (.drt d) && f.kind == 3) then
    let r := router p d
    tallyIn (setRouter p d { r with inq := r.inq ++ [⟨f, none⟩] }) (.drt d) 1
  else if 4 ≤ f.kind ∧ f.kind ≤ 7 then endFrame p f Status.refusedOffline
  else p

/-- A control frame of kind 0x3 on flow 0x001 (R282, R283). -/
def controlFrame (p : Pkg) (ctl : Nat) (dst : Chip) (inj : Nat) (payload : List Byte) : Frame :=
  { kind := 3, cls := 0, flag := false, last := true, dst := dst, src := ownChip p, flow := 1, due := 0, off := ctl
    inj := inj, seq := 0, payload := payload, poison := 0 }

/-- The stage that ends an item late.* or failed.link sends a late report to the injector on the control flow (R69). -/
def lateReport (p : Pkg) (f : Frame) (st : Status) (stagePort : Nat) (delivering : Bool) (d : Fin 4) : Pkg :=
  inject p d (controlFrame p 3 f.src f.inj
    (lateReportPayload f (lateCode st) (ownChip p) stagePort delivering d.val p.bell))

/-- A frame ends on its way to a port, at the stage of a die: LATE_CNT or NOSLOT_CNT and the PRK late event for late.*; a late
report for a frame that carries an injector; a response is counted in FAILED_LINK alone (R67, R69, R286). -/
def frameEndsAt (p : Pkg) (d : Fin 4) (n : Fin 32) (f : Frame) (st : Status) : Pkg :=
  let g := Page.prk n
  let q :=
    if st = Status.lateMissed then raise (bump p g 0x110 1) g 19
    else if st = Status.lateNoSlot then raise (bump p g 0x118 1) g 19
    else p
  if f.kind = 8 then bump q (.lnk n) 0x170 1
  else if f.kind = 3 then q
  else lateReport q f st n.val false d

/-- A frame ends at a port itself, whose die is the stage. -/
def frameEndsAtPort (p : Pkg) (n : Fin 32) (f : Frame) (st : Status) : Pkg := frameEndsAt p (dieOfPort n) n f st

end Sys2Proof.Machine
end

