-- ==== Sys2Proof/Machine/Ports.lean ====
section
/-! DEFINITION. A port's light and its link's end: what takes a link DOWN, the rings of the selvage engines, and what leaving ENABLED does to
them (R258, R259, R266, R271, R278, R286). They stand before the drain rule, which uses them. -/
namespace Sys2Proof.Machine
open Sys2Proof

/-- The bell unit forgets a port's measurement and echo when its link leaves UP (R53). -/
def forgetBell (p : Pkg) (n : Fin 32) : Pkg :=
  match Map.look p.bellU.ports n with
  | some b => { p with bellU := { p.bellU with ports := Map.put p.bellU.ports n { b with echo := none, dly := none, ofs := 0 } } }
  | none => p

/-- Every frame that a port holds for retry or has queued ends failed.link (R281, R286). -/
def failPort (p : Pkg) (n : Fin 32) : Pkg :=
  let x := portOfPkg p n
  let q := setPort p n { x with retry := [], queue := [] }
  let q := tallyOut (tallyOut q (.lnk n) x.retry.length) (.prk n) x.queue.length
  (x.retry.map Held.frame ++ x.queue.map Queued.frame).foldl (fun q f => frameEndsAtPort q n f Status.failedLink) q

/-- The link enters DOWN (R278, R286): the down event once; everything held or queued ends failed.link; frames that
wait in the receive buffer for a router out of service are discarded and counted (R310). -/
def linkDown (p : Pkg) (n : Fin 32) : Pkg :=
  if (portOfPkg p n).lstate = .down then p
  else
    let q := failPort p n
    let q := bump q (.lnk n) 0x170 (portOfPkg q n).rxWait.length
    let q := setPort q n { portOfPkg q n with
      lstate := .down, version := 0, txMap := 0, peerRx := 0, rxbuf := [], rxWait := [], restart := false, discarding := false
      retrainAt := none, retrainReq := false, aligning := false, sentStep := 0, gotStep := 0, usableFrom := none, stateAt := p.count
      credits := Port.reset.credits }
    raise (forgetBell q n) (.lnk n) 17

/-- The port becomes LIT and its LNK block is ENABLED: training starts ALIGN (R278). -/
def startAlign (p : Pkg) (n : Fin 32) : Pkg :=
  let x := portOfPkg p n
  if x.lstate = .down ∧ x.optic = .lit ∧ carries p (.lnk n) then
    setPort p n { x with lstate := .align, stateAt := p.count, noVersion := false, busyUntil := p.count, wordAt := p.count + 64, markAt := p.count }
  else p

/-! ## Rings and light -/

def Ring.reset : Ring :=
  { state := .off, trim := 0, ff := 0, heat := 0, relocks := 0, satAt := none, driftAt := none, failures := [], failedAt := none, sweepAt := 0
    queued := false, cal := none, wrong := 0, markAt := 0, loopAt := 0 }
def Selvage.reset : Selvage :=
  { rings := [], laserOk := false, laserEn := false, laserFault := false, tapOk := false, tapPower := 0, pass := false, passAt := 0
    tracking := false, ffAt := 0, loaded := false }
def selOf (p : Pkg) (e : Fin 16) : Selvage := Map.getD p.sels e Selvage.reset
def setSel (p : Pkg) (e : Fin 16) (x : Selvage) : Pkg := { p with sels := Map.put p.sels e x }
def ringOf (p : Pkg) (e : Fin 16) (r : Fin 64) : Ring := Map.getD (selOf p e).rings r Ring.reset
def SelPort.reset : SelPort := ⟨0, false, false, 0, none⟩
def selPort (p : Pkg) (n : Fin 32) : SelPort := Map.getD p.selPorts n SelPort.reset
def setSelPort (p : Pkg) (n : Fin 32) (x : SelPort) : Pkg := { p with selPorts := Map.put p.selPorts n x }

/-- Ring numbers: port h = 0 or 1 of the engine, transmit or receive, lane (R251). -/
def ringNo (h : Fin 2) (rx : Bool) (lane : Fin 16) : Fin 64 := ⟨32 * h.val + (if rx then 16 else 0) + lane.val, by split <;> omega⟩
/-- The port that a ring of an engine serves. -/
def ringPort (e : Fin 16) (r : Fin 64) : Fin 32 := ⟨2 * e.val + r.val / 32, by omega⟩
def ringRx (r : Fin 64) : Bool := r.val / 16 % 2 == 1
def ringLane (r : Fin 64) : Nat := r.val % 16
/-- The port's place in its engine. -/
def portHalf (n : Fin 32) : Fin 2 := ⟨n.val % 2, by omega⟩

/-- A port that is WAKING becomes LIT once at least 15 lanes are LOCKED and verified each way; its link starts training (R266, R267). -/
def checkLit (p : Pkg) (n : Fin 32) : Pkg :=
  let x := portOfPkg p n
  if x.optic = .waking ∧ (selPort p n).rxLight ∧ 15 ≤ popcount 16 x.txRing.toNat ∧ 15 ≤ popcount 16 x.rxRing.toNat then
    startAlign (raise (setPort p n { x with optic := .lit }) (.sel (seOfPort n)) 17) n
  else p

/-- A ring replaced; the LNK block learns at once which lanes it may use, and a relock ends the lane's absence under R277
(R259, R289). -/
def setRing (p : Pkg) (e : Fin 16) (r : Fin 64) (x : Ring) : Pkg :=
  let q := setSel p e { selOf p e with rings := Map.put (selOf p e).rings r x }
  let n := ringPort e r
  let on := x.state == .locked
  let y := portOfPkg q n
  let y := if ringRx r then
      { y with rxRing := withBit y.rxRing (ringLane r) on
               fecOut := if on && !((ringOf p e r).state == .locked) then withBit y.fecOut (ringLane r) false else y.fecOut }
    else { y with txRing := withBit y.txRing (ringLane r) on }
  checkLit (setPort q n y) n

/-- Whether a ring has an item that runs: a sweep or a recalibration (R264, R392). -/
def Ring.busy (x : Ring) : Bool := x.state == .sweep || x.cal.isSome

/-! ### Heater codes (R255) -/

/-- Heater steps in units of 0.125 mW: 30 mW over 65,536 steps (R255, R272). -/
def milliSteps (units : Nat) : Nat := units * 65536 / 240

/-- An entry of an engine's tables: the stored one, else the factory's once Caselm has loaded it; a diagonal entry of K is 1.0 (R255). -/
def ringEntry (p : Pkg) (e : Fin 16) (t i : Nat) : Word :=
  let measured := (t == 0 && i < 8192 && i % 128 < 96) || (t == 1 && i < 4096 && i % 65 != 0) || (t == 2 && i < 64)
  if (selOf p e).loaded && measured && (Map.look p.rg.tables (.sel e, t, i)).isNone then (Config.ringTable e.val t i).setWidth 32
  else entryVal p (.sel e) t i

/-- The offset of a ring, in heater steps. -/
def ringOffset (p : Pkg) (e : Fin 16) (r : Nat) : Int := signed 16 (ringEntry p e 2 r).toNat

/-- The feed-forward value of a ring at a temperature in 1/16 °C, in sixteenths of a step. -/
def feedForward (p : Pkg) (e : Fin 16) (r t : Nat) : Int :=
  let at_ (b : Nat) : Nat := (ringEntry p e 0 (128 * r + b)).toNat
  if t ≤ 320 then 16 * at_ 0
  else if 115 * 16 ≤ t then 16 * at_ 95
  else at_ (t / 16 - 20) * (16 - t % 16) + at_ (t / 16 - 19) * (t % 16)

/-- A ring's setpoint g in sixteenths of a step; a ring out of service stands 2.25 mW above, between the lines (R258). -/
def setpoint (p : Pkg) (e : Fin 16) (r : Fin 64) : Int :=
  let x := ringOf p e r
  x.ff + 16 * (ringOffset p e r.val + (if x.state = .locked then x.trim else milliSteps 18))

/-- The heater code of a ring: the row of K over every setpoint, clamped to 16 bits and rounded down to a step (log entry 49). -/
def heaterCode (p : Pkg) (e : Fin 16) (r : Fin 64) : Nat :=
  let s := ((List.finRange 64).map (fun j => signed 16 (ringEntry p e 1 (64 * r.val + j.val)).toNat * setpoint p e j)).foldl (· + ·) 0
  min 65535 (s / 2 ^ 18).toNat

/-- A ring's heater code built anew. -/
def applyHeat (p : Pkg) (e : Fin 16) (r : Fin 64) : Pkg := setRing p e r { ringOf p e r with heat := heaterCode p e r }

/-- A ring's sweep or recalibration, if it has one, ends with a status. -/
def endRingItem (p : Pkg) (e : Fin 16) (r : Fin 64) (st : Status) : Pkg :=
  let x := ringOf p e r
  if x.busy then endItem (setRing p e r { x with cal := none, state := if x.state = .sweep then .hold else x.state }) (.sel e) r.val st else p

/-- A ring parked, unless it is RETIRED; what runs on it ends with a status. -/
def parkRing (p : Pkg) (e : Fin 16) (r : Fin 64) (st : Status) : Pkg :=
  let q := endRingItem p e r st
  let x := ringOf q e r
  if x.state = .retired then q
  else applyHeat (setRing q e r { x with state := .parked, trim := 0, satAt := none, driftAt := none, failedAt := none, queued := false }) e r

/-- A port's link goes DOWN with its light, and its shutter closes (R266, R270). -/
def shutPort (p : Pkg) (n : Fin 32) (o : Optic) : Pkg :=
  let q := linkDown (setPort p n { portOfPkg p n with optic := o }) n
  setSelPort q n { selPort q n with shutter := 0, wakeSeen := false }

/-- A port that is shut and no longer receives light parks its receive rings (R258). -/
def closePort (p : Pkg) (n : Fin 32) (o : Optic) (st : Status) : Pkg :=
  let q := (List.finRange 16).foldl (fun q l => parkRing q (seOfPort n) (ringNo (portHalf n) true l) st) (shutPort p n o)
  setSelPort q n { selPort q n with rxLight := false }

/-- The laser enable line driven or withdrawn (R254). -/
def setLaser (p : Pkg) (e : Fin 16) (on : Bool) : Pkg := setSel p e { selOf p e with laserEn := on }

/-- Port h of an engine (R8). -/
def portOf2 (e : Fin 16) (h : Fin 2) : Fin 32 := ⟨2 * e.val + h.val, by omega⟩

/-- What SEL does as it leaves ENABLED (R271): shutters closed, ports OFF, every ring parked, the enable withdrawn; sweeps and
recalibrations end failed.disabled. -/
def selLeave (p : Pkg) (e : Fin 16) : Pkg :=
  let q := [portOf2 e 0, portOf2 e 1].foldl (fun q n => closePort q n .off Status.failedDisabled) p
  let q := (List.finRange 64).foldl (fun q r => parkRing q e r Status.failedDisabled) q
  setSel q e { selOf q e with laserEn := false, pass := false }

/-- The engine, port or stack controller that a page names. -/
def selOfPage (g : Page) : Option (Fin 16) := if h : g.type = 0x1B ∧ g.inst < 16 then some ⟨g.inst, h.2⟩ else none
def lnkOfPage (g : Page) : Option (Fin 32) := if h : g.type = 0x1C ∧ g.inst < 32 then some ⟨g.inst, h.2⟩ else none

end Sys2Proof.Machine
end

