-- ==== Sys2Proof/Machine/Drain.lean ====
section
/-! DEFINITION. The states of a block and the drain rule (R43, R44, R45, R157, R394, R396), shared by every family. -/
namespace Sys2Proof.Machine
open Sys2Proof

/-- The four contexts of a core. -/
def ctxsOfCore (c : CoreId) : List CtxId := [⟨c, 0⟩, ⟨c, 1⟩, ⟨c, 2⟩, ⟨c, 3⟩]

/-- The nine cores of a cluster. -/
def coresOf (d : Fin 4) (c : Fin 10) : List CoreId := (List.finRange 9).map (fun k => ⟨d, c, k⟩)

/-- A context with its debug halt cleared (R489). -/
def Ctx.unhalt (x : Ctx) : Ctx := { x with halted := false, bp := none, stepping := false, stepInst := none, skipBp := false }

/-- A RUNNING or WAITING context begins to stop (R131, R132, R180, R207, R489): it issues nothing further, a debug halt clears, its
pending wait retires failed.disabled, and its descriptors still waiting in queues end failed.disabled. -/
def beginStop (p : Pkg) (c : CtxId) (info : StopInfo) : Pkg :=
  let x := ctxOf p c
  if x.state = .running ∨ x.state = .waiting then
    let q := setCtx p c { x.unhalt with state := .stopping, wait := none, stop := some { info with at_ := p.count } }
    let q := match waitInst q c with
      | some i => retireAs q i Status.failedDisabled
      | none => q
    { q with bobs := q.bobs.map (fun (kv : BobId × Bobbin) => (kv.1, { kv.2 with descs := kv.2.descs.map (fun (d : Desc) =>
        match d.source with
        | .put _ c' _ => if c' = c ∧ !d.active then { d with stopped := true, todo := [], status := Status.worst d.status Status.failedDisabled } else d
        | _ => d) })) }
  else p

/-- Whether a status is fatal under a halt policy (R173): bit 0 refused, 1 late, 2 failed, 3 unknown, 4 collective. -/
def fatal (policy : Nat) (st : Status) : Bool := decide (1 ≤ Status.cls st) && policy.testBit (Status.cls st - 1)

/-- An instruction retires (R172, R173): a status whose class is in the halt policy stops its context. -/
def retire (p : Pkg) (i : Inst) (st : Status) : Pkg :=
  let q := retireAs p i st
  if fatal (ctxOf p i.ctx).policy st then
    beginStop q i.ctx ⟨st, 1, bits i.word 7 0, i.pc, if bit i.word 11 then some (bits i.word 10 8) else none, 0, 0⟩
  else q

/-- The pending wait of a context is over and retires with a status: the context runs on unless the status is fatal (R131). -/
def endWait (p : Pkg) (c : CtxId) (st : Status) : Pkg :=
  match waitInst p c with
  | some i => retire p i st
  | none => p

/-- A window leaves OPEN for CLOSING with a status (R148). -/
def closeWin (p : Pkg) (st : StoreId) (w : Nat) (status : Status) : Pkg :=
  let x := winOf p st w
  if x.state = .opened then setWin p st w { x with state := .closing, status := status } else p

/-- A pending gate request ends (R150–R151, R157): its bank's bit leaves BANK_PEND; when the bank is to stay awake its
bit in BANK_GATE and the complement are cleared. -/
def gateEnds (p : Pkg) (st : StoreId) (bank : Nat) (status : Status) (clear : Bool) : Pkg :=
  let x := storeOf p st
  let q := setStore p st { x with pend := Map.drop x.pend bank }
  let q :=
    if clear then
      match st with
      | .core c => storePair q (.core c) 0x090 (withBit (getReg q (.core c) 0x090) bank false)
      | .cluster d c => storePair64 q (.clst d c) 0x090 (withBit (getReg64 q (.clst d c) 0x090) bank false)
    else q
  emit q (.item st.page bank status)

/-- What a store does when its block leaves ENABLED (R157): open windows enter CLOSING with failed.disabled, and pending
gate requests end failed.disabled with their banks awake. -/
def leaveStore (p : Pkg) (st : StoreId) : Pkg :=
  let q := (List.range st.windows).foldl (fun q w => closeWin q st w Status.failedDisabled) p
  (storeOf q st).pend.foldl (fun q kv => gateEnds q st kv.1 Status.failedDisabled true) q

/-- The store and page of a core or cluster page. -/
def storeOfPage (g : Page) : Option StoreId :=
  match coreOfPage g with
  | some c => some (.core c)
  | none => (clstOfPage g).map (fun dc => .cluster dc.1 dc.2)

/-- Every context of a core stops because the core left ENABLED (R131, R174 cause 0x3). -/
def stopCore (p : Pkg) (c : CoreId) : Pkg :=
  (ctxsOfCore c).foldl (fun q x => beginStop q x ⟨0, 3, 0, (ctxOf q x).pc, none, 0, 0⟩) p

/-- Windows that are closing close once no access is in flight (R459). -/
def settleWins (x : Thimble) : Thimble :=
  if x.out.isEmpty then { x with wins := x.wins.filter (fun kv => kv.2 == 1) } else x

/-- A thimble that leaves ENABLED closes its windows (R463). -/
def leaveThim (p : Pkg) (g : Fin 2) : Pkg :=
  match Map.look p.thims g with
  | some x => { p with thims := Map.put p.thims g (settleWins { x with wins := x.wins.map (fun (kv : Nat × Nat) => (kv.1, 2)) }) }
  | none => p

/-- The effects a block's leaving ENABLED has beside its state (R157). -/
def leaveEffects (p : Pkg) (g : Page) : Pkg :=
  let q := match coreOfPage g with
    | some c => stopCore p c
    | none => p
  let q := match storeOfPage g with
    | some st => leaveStore q st
    | none => q
  let q := match selOfPage g with
    | some e => if stateOf q g = BlockState.quarantined then q else selLeave q e
    | none => q
  let q := match siteOfPage g with
    | some n => if g.type = 0x0B then leaveThim q n else q
    | none => q
  if g = .bell ∧ stateOf q g ≠ .quarantined then { q with bellU := { q.bellU with state := .unjoined, parent := none, stepped := false, aligned := 0 } } else q

/-- The blocks that a block contains (R396): a cluster its cores and bobbins, a stack controller its mills, a die router
its ports' PRK and LNK blocks. -/
def contained (g : Page) : List Page :=
  match clstOfPage g with
  | some (d, c) => (coresOf d c).map Page.core ++ [.bob (.cluster d c 0), .bob (.cluster d c 1)]
  | none =>
    if g.type = 0x16 then (List.range 8).map (fun m => ⟨0x17, g.inst * 8 + m⟩)
    else if g.type = 0x19 then (List.range 8).flatMap (fun k => [⟨0x1A, g.inst * 8 + k⟩, ⟨0x1C, g.inst * 8 + k⟩])
    else []

/-- CTRL.drain_timeout in ticks; 0 means the default of 1,000 µs (R36), which also serves when the stored value may not be used (R42). -/
def drainLimit (p : Pkg) (g : Page) : Nat :=
  let us := if pairOk p g 0x008 then bits (getReg p g 0x008) 15 4 else 0
  (if us = 0 then 1000 else us) * 1000

/-- FUSE, BELL and THRM have no items; their drains complete at once (R392). -/
def noItems (g : Page) : Bool := g.type == 0x01 || g.type == 0x07 || g.type == 0x06

/-- One block leaves ENABLED and begins its drain (R394): it uses CTRL, and when the stored pair fails its check the block enters
FAULT, with cause 0x03 unless it enters FAULT anyway (R42). -/
def leaveOne (p : Pkg) (g : Page) (st : BlockState) (cause : Nat) : Pkg :=
  let q := if pairOk p g 0x008 then setState p g st cause
    else setState (raise p g evCmpFail) g .fault (if st = .fault then cause else 0x03)
  let q := { q with rg := { q.rg with drains := Map.put q.rg.drains g ⟨p.count, drainLimit p g, cause⟩ } }
  leaveEffects q g

/-- Whether a page is a mill's whose stack is in self-refresh, its controller neither ENABLED nor on the way there: the mill stays DISABLED until it
is enabled with its stack in service (R248; log entry 48). -/
def stackRests (p : Pkg) (g : Page) : Bool :=
  g.type == 0x17 && stateOf p ⟨0x16, g.inst / 8⟩ != .enabled && stateOf p ⟨0x16, g.inst / 8⟩ != .enabling

/-- A mill that is still ENABLING when its stack leaves drains after its self-check, as if told to disable (R43, R248). -/
def restMill (p : Pkg) (g : Page) : Pkg :=
  if g.type == 0x17 && stateOf p g == .enabling then { p with rg := { p.rg with undo := g :: p.rg.undo.filter (· != g) } } else p

/-- A block leaves ENABLED, and every ENABLED block that it contains begins its own drain in the same tick (R394, R396). -/
def leaveEnabled (p : Pkg) (g : Page) (st : BlockState) (cause : Nat) : Pkg :=
  (contained g).foldl (fun q h => if enabled q h then leaveOne q h .draining cause else restMill q h) (leaveOne p g st cause)

/-- The run field last committed (R44). -/
def ctrlRun (p : Pkg) (g : Page) : Nat := bits (getReg p g 0x008) 1 0

/-- A drain ends (R394): a DRAINING block enters DISABLED and acts on the run value committed last (R44); a FAULT or
QUARANTINED block stays in its state. The link of an LNK block goes DOWN (R291), but a
quarantined package keeps its light and its links (R332). -/
def finishDrain (p : Pkg) (g : Page) (cause : Nat) : Pkg :=
  let p := match lnkOfPage g with
    | some n => if stateOf p g = BlockState.quarantined then p else linkDown p n
    | none => p
  let q := { p with rg := { p.rg with drains := Map.drop p.rg.drains g } }
  if stateOf q g = .draining then
    if !pairOk q g 0x008 then setState (raise q g evCmpFail) g .fault 0x03
    else
      let q := setState q g .disabled cause
      if ctrlRun q g = 1 ∧ inService q g ∧ !stackRests q g then setState q g .enabling 0x01 else q
  else q

/-- A drain begun from ENABLED by a CTRL commit or by Caselm (R43); the blocks with no items finish at once. -/
def startDrain (p : Pkg) (g : Page) (cause : Nat) : Pkg :=
  let q := leaveEnabled p g .draining cause
  if noItems g then finishDrain q g cause else q

/-- A block kept at work in quarantine stops as it enters FAULT (R43, R271, R332): an engine's light, a link, the bell. -/
def stopLight (p : Pkg) (g : Page) : Pkg :=
  let q := if (selOfPage g).isSome || g == .bell then leaveEffects p g else p
  match lnkOfPage g with
  | some n => if (Map.look q.rg.drains g).isNone then linkDown q n else q
  | none => q

/-- A complement check failure, a thermal trip or a fault of the block: any block but an OFF one enters FAULT; from
ENABLED it drains (R43, R394). -/
def enterFault (p : Pkg) (g : Page) (cause : Nat) : Pkg :=
  match stateOf p g with
  | .off => p
  | .enabled => leaveEnabled p g .fault cause
  | .quarantined => stopLight (setState p g .fault cause) g
  | _ => setState { p with rg := { p.rg with undo := p.rg.undo.filter (· != g) } } g .fault cause

/-- A stored value fails its complement check on use (R42): cmp_fail and FAULT with cause 0x03. -/
def cmpFail (p : Pkg) (g : Page) : Pkg := enterFault (raise p g evCmpFail) g 0x03

/-- A use of stored pairs of a page (R42): it goes on when every one passes its check, and else uses none. -/
def usePairs (p : Pkg) (g : Page) (offs : List Nat) (f : Pkg → Pkg) : Pkg := if offs.all (pairOk p g) then f p else cmpFail p g

/-- A commit of CTRL with a legal run field (R43, R44). A run = 0b00 that is committed while a block in FAULT still drains is stored and
acts on nothing: the block leaves FAULT at a commit made after its drain (log entry 32). -/
def ctrlAct (p : Pkg) (g : Page) (v : Word) : Pkg :=
  let q := storePair p g 0x008 (v &&& 0xFFFFFFF3#32)
  let q := if bits v 3 2 ≠ 0 then raise q g evRsvdWrite else q
  if bits v 1 0 = 1 then
    match stateOf q g with
    | .disabled => if stackRests q g then q else setState q g .enabling 0x01
    | .enabling => { q with rg := { q.rg with undo := q.rg.undo.filter (· != g) } }
    | _ => q
  else
    match stateOf q g with
    | .enabled => startDrain q g 0x01
    | .enabling => { q with rg := { q.rg with undo := g :: q.rg.undo.filter (· != g) } }
    | .fault => if (Map.look q.rg.drains g).isSome then q else setState q g .disabled 0x01
    | _ => q

/-- A commit of CTRL (R44, R45): a reserved run value is discarded with pair_err and rsvd_write; an enable on a spare,
retired or fused-off unit is discarded with rsvd_write; otherwise the block acts. -/
def ctrlCommit (p : Pkg) (g : Page) (v : Word) : Pkg :=
  if bits v 1 0 ≥ 2 then raiseAll p g [evPairErr, evRsvdWrite]
  else if bits v 1 0 = 1 ∧ !inService p g then raise p g evRsvdWrite
  else ctrlAct p g v

/-- Whether BELL.CFG, ROOT01, ROOT23 and EPOCH pass their complement checks (R42). -/
def bellPairsOk (p : Pkg) : Bool := [0x090, 0x098, 0x0A0].all (pairOk p .bell) && pair64Ok p .bell 0x0A8

/-- BELL.CFG, ROOT01, ROOT23 and EPOCH as committed (R58). -/
def bellRegs (p : Pkg) : BellCfg :=
  ⟨getReg p .bell 0x090, getReg p .bell 0x098, getReg p .bell 0x0A0, getReg64 p .bell 0x0A8⟩

/-- A router that has come into service takes the replies that wait for one (R24). -/
def sendUnsent (p : Pkg) (g : Page) : Pkg :=
  match replyDie p with
  | some d => if g.type = 0x19 then p.rv.unsent.foldl (fun q f => inject q d f) { p with rv := { p.rv with unsent := [] } } else p
  | none => p

/-- A self-check ends (R43): ENABLING becomes ENABLED, or FAULT with cause 0x09; a block told meanwhile to disable then
drains as if it were ENABLED. BELL enters JOINING when it is enabled (R54). -/
def selfCheckDone (p : Pkg) (g : Page) (pass : Bool) : Pkg :=
  if stateOf p g = .enabling then
    if pass ∧ g = .bell ∧ !bellPairsOk p then cmpFail p g
    else if pass then
      let q := sendUnsent (setState p g .enabled (block p g).cause) g
      let q := if g = .bell then { q with bellU := { q.bellU with state := .joining, inForce := bellRegs q, ppsEdges := 0, judged := none } } else q
      let q := match lnkOfPage g with | some n => startAlign q n | none => q
      if q.rg.undo.contains g then
        startDrain { q with rg := { q.rg with undo := q.rg.undo.filter (· != g) } } g 0x01
      else q
    else { (setState p g .fault 0x09) with rg := { (setState p g .fault 0x09).rg with undo := p.rg.undo.filter (· != g) } }
  else p

/-- Whether every block that a block contains has ended its drain (R396). -/
def containedDone (p : Pkg) (g : Page) : Bool := (contained g).all (fun h => (Map.look p.rg.drains h).isNone)

/-- Whether a core's stopping contexts have all reached STOPPED, their records written (R157); other blocks have none. -/
def stopsOver (p : Pkg) (g : Page) : Bool :=
  match coreOfPage g with
  | some c => (ctxsOfCore c).all (fun x => (ctxOf p x).state != .stopping)
  | none => true

/-- Whether a repair copy runs in a stack controller: it finishes before the drain counts down (R226). -/
def copying (p : Pkg) (g : Page) : Bool :=
  if h : g.type = 0x16 ∧ g.inst < 12 then (stackOf p ⟨g.inst, h.2⟩).copy.isSome else false

/-- The last held item of a draining block has ended (R394 step 4): the block leaves its drain with the cause of its
entry. With items still held, a stop record still to write, a repair copy running, or a contained block still draining, nothing happens yet. -/
def drainComplete (p : Pkg) (g : Page) : Pkg :=
  match Map.look p.rg.drains g with
  | some d => if tallyHeld p g = 0 ∧ stopsOver p g ∧ copying p g = false ∧ containedDone p g then finishDrain p g d.cause else p
  | none => p

end Sys2Proof.Machine
end

