-- ==== Sys2Proof/Machine/Place.lean ====
section
/-! DEFINITION. The local map (R27), who may reach what (R31, R32), DRAM placement (R214–R216), and reads and writes of
bytes at local offsets. -/
namespace Sys2Proof.Machine
open Sys2Proof

/-- What a local offset lies in (R27). -/
inductive Range where
  | dram
  | store (st : StoreId) (off : Nat)
  | mill (m : MillId) (off : Nat)
  | well (d : Fin 4) (off : Nat)
  | hearth (off : Nat)
  | sram (off : Nat)
  | guest (g : Fin 2) (off : Nat)
  | page (g : Page) (off : Nat)
  | hole
  deriving DecidableEq, Repr

/-- The resource that the map of R27 assigns to an offset; everything else is a hole. -/
def rangeOf (a : Nat) : Range :=
  if a < 0x00C000000000 then .dram
  else if h : 0x010000000000 ≤ a ∧ a < 0x010040000000 then
    let r := a - 0x010000000000
    if hc : r % 0x10000000 / 0x100000 / 16 < 10 ∧ r % 0x10000000 / 0x100000 % 16 < 9 then
      .store (.core ⟨⟨r / 0x10000000, by omega⟩, ⟨_, hc.1⟩, ⟨_, hc.2⟩⟩) (r % 0x100000)
    else .hole
  else if h : 0x011000000000 ≤ a ∧ a < 0x011040000000 then
    let r := a - 0x011000000000
    if hc : r % 0x10000000 / 0x800000 < 10 then
      .store (.cluster ⟨r / 0x10000000, by omega⟩ ⟨_, hc⟩) (r % 0x800000)
    else .hole
  else if h : 0x012000000000 ≤ a ∧ a < 0x012003000000 then
    let r := a - 0x012000000000
    .mill ⟨⟨r / 0x400000, by omega⟩, ⟨r % 0x400000 / 0x80000, by omega⟩⟩ (r % 0x80000)
  else if h : 0x013000000000 ≤ a ∧ a < 0x013004000000 then
    .well ⟨(a - 0x013000000000) / 0x1000000, by omega⟩ ((a - 0x013000000000) % 0x1000000)
  else if 0x014000000000 ≤ a ∧ a < 0x014000040000 then .hearth (a - 0x014000000000)
  else if 0x015000000000 ≤ a ∧ a < 0x015000800000 then .sram (a - 0x015000000000)
  else if 0x080000000000 ≤ a ∧ a < 0x0A0000000000 then .guest 0 (a - 0x080000000000)
  else if 0x0A0000000000 ≤ a ∧ a < 0x0C0000000000 then .guest 1 (a - 0x0A0000000000)
  else if 0x0F0000000000 ≤ a ∧ a < 0x0F1000000000 then
    let r := a - 0x0F0000000000
    let g : Page := ⟨r / 0x100000, r % 0x100000 / 0x1000⟩
    if pageExists g then .page g (r % 0x1000) else .hole
  else .hole

/-- The local offset of a register (R34). -/
def pageOffset (g : Page) (off : Nat) : Nat := 0x0F0000000000 + g.type * 0x100000 + g.inst * 0x1000 + off

/-! ## DRAM placement -/

/-- MEMC.MAP.pw_gib in force: the one committed to instance 0 (R216). -/
def mapGib (p : Pkg) : Nat := bits (getReg p (.memc 0) 0x090) 6 0

/-- Stack and stack offset of a local DRAM offset (R215). -/
def dramPlace (gib a : Nat) : Fin 12 × Nat :=
  let pw := 12 * gib * 2 ^ 30
  if a < pw then
    let c := a / 4096
    (⟨c % 12, by omega⟩, c / 12 * 4096 + a % 4096)
  else
    let r := a - pw
    let span := 3 * (64 - gib) * 2 ^ 30
    let k : Nat := if span = 0 then 0 else r / span
    let o := if span = 0 then 0 else r % span
    let c := o / 4096
    (⟨(3 * (k % 4) + c % 3) % 12, by omega⟩, gib * 2 ^ 30 + c / 3 * 4096 + o % 4096)

/-- Channel, bank and row of a stack offset (R214). -/
def chanOf (s : Nat) : Nat := (s / 64 % 32) ^^^ (s / 2 ^ 22 % 32)
def dramBankOf (s : Nat) : Nat := (s / 2 ^ 18 % 16) ^^^ (s / 2 ^ 22 % 16)
def rowOf (s : Nat) : Nat := s / 2 ^ 22
/-- The stack offset of line j of a device page (R214). -/
def stackOffset (ch b r j : Nat) : Nat :=
  r * 2 ^ 22 + (b ^^^ (r % 16)) * 2 ^ 18 + j * 2048 + (ch ^^^ (r % 32)) * 64

/-- The physical address that memory is keyed by: stack × 2³⁶ + stack offset for DRAM, the local offset elsewhere. -/
def phys (p : Pkg) (a : Nat) : Nat :=
  if a < 0x00C000000000 then (dramPlace (mapGib p) a).1.val * 2 ^ 36 + (dramPlace (mapGib p) a).2 else a

/-- One byte of a mill store: after a command its contents are undefined, a free value, until they are written (R235). -/
def millByte (p : Pkg) (m : MillId) (o : Nat) : Byte :=
  match (millOf p m).blank with
  | some k =>
    if (millOf p m).known.any (fun r => decide (r.1 ≤ o) && decide (o < r.1 + r.2)) then memByte p (0x012000000000 + m.stack.val * 0x400000 + m.mill.val * 0x80000 + o)
    else Config.freeByte (k + o)
  | none => memByte p (0x012000000000 + m.stack.val * 0x400000 + m.mill.val * 0x80000 + o)

/-- One byte at a local offset: a poisoned line's data reads as 0xFF in every byte (R98); what a guest holds is the guest's (R460, log
entry 7). -/
def readByte (p : Pkg) (a : Nat) : Byte :=
  if poisoned p (phys p a) then 0xFF#8
  else
    match rangeOf a with
    | .mill m o => millByte p m o
    | .guest g o => Config.guestByte p.free (g.val * 2 ^ 36 + o)
    | _ => memByte p (phys p a)

/-- n bytes at a local offset. -/
def readLocal (p : Pkg) (a n : Nat) : List Byte := (List.range n).map (fun i => readByte p (a + i))

/-- Whether n bytes at a local offset touch a poisoned line. -/
def localPoisoned (p : Pkg) (a n : Nat) : Bool := (linesOf a n).any (fun l => poisoned p (phys p l))

/-- The lines of a range that are poisoned, by their local offsets. -/
def poisonedLines (p : Pkg) (a n : Nat) : List Nat := (linesOf a n).filter (fun l => poisoned p (phys p l))

/-- Bytes written in a mill store hold what was written from then on. -/
def markMill (p : Pkg) (a n : Nat) : Pkg :=
  match rangeOf a with
  | .mill m o => setMill p m { millOf p m with known := (millOf p m).known ++ [(o, n)] }
  | _ => p

/-- Bytes written at a local offset: each line the tag marks is written poisoned, the others cleanly (R98, R155, R219). -/
def writeLocal (p : Pkg) (a : Nat) (bs : List Byte) (tag : Nat → Bool) : Pkg :=
  markMill ((linesOf a bs.length).foldl
    (fun q l =>
      let lo := if l < a then a else l
      let hi := if a + bs.length < l + 64 then a + bs.length else l + 64
      if tag l then poisonLine q (phys q l)
      else writeClean q (phys q lo) ((bs.drop (lo - a)).take (hi - lo))) p) a bs.length

/-- No line tagged. -/
def noTag : Nat → Bool := fun _ => false

/-- A range of local offsets written poisoned. -/
def poisonLocal (p : Pkg) (a n : Nat) : Pkg := (linesOf a n).foldl (fun q l => poisonLine q (phys q l)) p

def Thimble.reset : Thimble := ⟨false, [], [], 16000 * 0x1F40, 16000 * 0x1F40, 0, [], [], 0, false, []⟩
def thimOf (p : Pkg) (g : Fin 2) : Thimble := Map.getD p.thims g Thimble.reset
def setThim (p : Pkg) (g : Fin 2) (x : Thimble) : Pkg := { p with thims := Map.put p.thims g x }

/-- The lines of n bytes at a local offset that a guest's directory holds (R457). -/
def guestLines (p : Pkg) (g : Fin 2) (a n : Nat) : List (Nat × Bool) := (thimOf p g).dir.filter (fun e => (linesOf a n).contains (e.1 * 64))
def guestHolds (p : Pkg) (a n : Nat) : Bool := (List.finRange 2).any (fun g => !(guestLines p g a n).isEmpty)

/-- A write by another agent has a guest's copy of its lines invalidated first: a snoop each, which the guest has still to answer (R457; log entry
50). -/
def snoopGuest (p : Pkg) (a n : Nat) (g : Fin 2) : Pkg :=
  let l := guestLines p g a n
  if l.isEmpty then p
  else
    let x := thimOf p g
    let q := setThim p g { x with dir := x.dir.filter (fun e => !(linesOf a n).contains (e.1 * 64)), snoops := x.snoops ++ l.map (fun e => (e.1, e.2, p.count)) }
    bump { q with out := q.out ++ l.map (fun e => .toGuest g (e.1 * 64) (.snoop false)) } (.thim g) 0x118 l.length

/-- Bytes over a stack's external interface counted in BYTES_RD or BYTES_WR (R233), in the stack of the first byte; a write takes guests' copies
away. -/
def countDram (p : Pkg) (a n : Nat) (write : Bool) : Pkg :=
  if a < 0x00C000000000 then
    let q := if write then (List.finRange 2).foldl (fun q g => snoopGuest q a n g) p else p
    bump q (.memc (dramPlace (mapGib p) a).1) (if write then 0x140 else 0x138) n
  else p

/-! ## Checks 3–5 and 7 of R32 -/

/-- Whether R31's table permits an agent a range, windows apart. -/
def permitted (ag : Agent) (r : Range) : Bool :=
  match ag, r with
  | _, .hole => false
  | .debug, _ => true
  | .reeve _, _ => true
  | .task _, .dram => true
  | .task c, .store (.core k) _ => c.core == k
  | .task c, .store (.cluster d k) _ => c.core.die == d && c.core.cluster == k
  | .task _, _ => false
  | .bobbin _, .dram => true
  | .bobbin _, .store _ _ => true
  | .bobbin _, .mill _ _ => true
  | .bobbin _, .well _ _ => true
  | .bobbin _, .guest _ _ => true
  | .bobbin _, _ => false
  | .remote _, .dram => true
  | .remote _, .store _ _ => true
  | .remote _, _ => false
  | .guest _, .dram => true
  | .guest g, .guest k _ => g == k
  | .guest g, .page h o => h == .thim g && decide (0xC00 ≤ o)
  | .guest _, _ => false

/-- The CMN page that counts a refusal at an offset (R33): the die that holds the target. -/
def cmnOfOffset (p : Pkg) (a : Nat) : Page :=
  match rangeOf a with
  | .dram => ⟨0x1D, (dramPlace (mapGib p) a).1.val / 3⟩
  | .store st _ => ⟨0x1D, st.die.val⟩
  | .mill m _ => ⟨0x1D, m.stack.val / 3⟩
  | .well d _ => ⟨0x1D, d.val⟩
  | .page g _ => cmnOfPage g
  | .hole =>
    if a / 0x40000000 = 0x400 then ⟨0x1D, a / 0x10000000 % 4⟩
    else if a / 0x40000000 = 0x440 then ⟨0x1D, a / 0x10000000 % 4⟩
    else hubCmn
  | _ => hubCmn

/-- The die whose CMN unit, stores and stacks serve an offset (R14). -/
def dieOfOffset (p : Pkg) (a : Nat) : Fin 4 :=
  match rangeOf a with
  | .dram => dieOfStack (dramPlace (mapGib p) a).1
  | .store st _ => st.die
  | .mill m _ => dieOfStack m.stack
  | .well d _ => d
  | _ => 0

/-- MEMC_CFG.relief_rows of a stack (R227, R233). -/
def reliefRows (p : Pkg) (n : Fin 12) : Nat := bits (getReg p (.memc n) 0x088) 27 25
/-- Whether a stack offset lies in a relief page, refused refused.offline to every requester (R227). -/
def inRelief (p : Pkg) (n : Fin 12) (s : Nat) : Bool := decide (16384 ≤ rowOf s + reliefRows p n)

/-- Whether a page of a stack has been retired unrelieved (R227): its writes end refused.offline. -/
def unrelieved (p : Pkg) (n : Fin 12) (s : Nat) : Bool :=
  p.rg.tables.any (fun kv => kv.1.1 == .memc n && kv.1.2.1 == 2 && bit kv.2.1 31
    && bits kv.2.1 27 23 == chanOf s && bits kv.2.1 22 19 == dramBankOf s && bits kv.2.1 18 5 == rowOf s)

/-- Whether a write of n bytes at a local offset meets a page retired unrelieved. -/
def writeBarred (p : Pkg) (a n : Nat) : Bool :=
  (linesOf a n).any (fun l => rangeOf l == .dram && unrelieved p (dramPlace (mapGib p) l).1 (dramPlace (mapGib p) l).2)

/-! ## The thimble's windows (R459, R460) -/


def winOff (w : Nat) : Nat := 0x200 + 0x20 * w
def thimWctl (p : Pkg) (g : Fin 2) (w : Nat) : Word := getReg p (.thim g) (winOff w)
def thimGbase (p : Pkg) (g : Fin 2) (w : Nat) : Nat := bits (getReg p (.thim g) (winOff w + 8)) 28 0 * 4096
def thimPbase (p : Pkg) (g : Fin 2) (w : Nat) : Nat := bits (getReg p (.thim g) (winOff w + 16)) 27 0 * 4096
def thimSize (p : Pkg) (g : Fin 2) (w : Nat) : Nat := bits (getReg p (.thim g) (winOff w + 24)) 28 0 * 4096

/-- The open window that holds n bytes at an address, with a permission bit: inbound by guest address, outbound by site offset. -/
def thimFind (p : Pkg) (g : Fin 2) (outbound : Bool) (perm : Nat) (a n : Nat) : Option Nat :=
  (List.range 32).find? (fun w =>
    let c := thimWctl p g w
    let base := if outbound then thimPbase p g w else thimGbase p g w
    Map.look (thimOf p g).wins w == some 1 && bit c 31 == outbound && bit c perm && decide (base ≤ a) && decide (a + n ≤ base + thimSize p g w))

/-- The bytes an operation touches, and the permission bit it needs. -/
def opLen : GuestOp → Nat
  | .read n => n
  | .write b => b.length
  | .atomic _ wide _ _ => if wide then 8 else 4
  | .snoop _ => 64
  | _ => 0
def opPerm : GuestOp → Nat | .read _ => 30 | .write _ => 29 | .atomic .. => 28 | _ => 27
/-- What the thimble asks of an access of the package to a guest's range (R460): an open outbound window that holds every byte. -/
def guestGate (p : Pkg) (a n perm : Nat) : Status :=
  match rangeOf a with
  | .guest g o => if (thimFind p g true perm o n).isSome then Status.done else Status.refusedThimble
  | _ => Status.done

/-- An access that an outbound window holds goes to the guest, at the offset that the window gives it; it is an item of the thimble, which
the guest answers at once (log entry 7). -/
def passToGuest (p : Pkg) (g : Fin 2) (o : Nat) (op : GuestOp) : Pkg :=
  match thimFind p g true (opPerm op) o (opLen op) with
  | some w => tallyOut (emit (tallyIn { p with free := p.free + 1 } (.thim g) 1) (.toGuest g (thimGbase p g w + (o - thimPbase p g w)) op)) (.thim g) 1
  | none => p

/-- Whether the resource of a range is powered and in service (check 5 of R32). -/
def rangeOnline (p : Pkg) (a : Nat) : Bool :=
  match rangeOf a with
  | .dram => pairOk p (.memc 0) 0x090 && enabled p (.memc (dramPlace (mapGib p) a).1) && !(stackOf p (dramPlace (mapGib p) a).1).tripped
      && !inRelief p (dramPlace (mapGib p) a).1 (dramPlace (mapGib p) a).2
  | .store st _ => storeServes p st
  | .mill m _ => stateOf p (.mill m) != .off
  | .well d _ => enabled p (.well d)
  | .guest g _ => enabled p (.thim g) && inService p (.thim g)
  | .hole => false
  | _ => true

/-- The same for every line of n bytes at an offset. -/
def rangeServes (p : Pkg) (a n : Nat) : Bool := (a :: linesOf a n).all (rangeOnline p)

/-- The capacity end of a range: whether n bytes at an offset stay in the same resource. -/
def sameRange (a n : Nat) : Bool :=
  n == 0 ||
  (match rangeOf a, rangeOf (a + n - 1) with
  | .dram, .dram => true
  | .store s _, .store t _ => s == t
  | .mill s _, .mill t _ => s == t
  | .well s _, .well t _ => s == t
  | .hearth _, .hearth _ => true
  | .sram _, .sram _ => true
  | .guest s _, .guest t _ => s == t
  | .page s _, .page t _ => s == t
  | _, _ => false)

/-- A bobbin reaches a mill store, and a Reeve core or the debug port writes it, only while the mill's page is DISABLED (R235). -/
def millIdle (p : Pkg) (ag : Agent) (r : Range) (write : Bool) : Bool :=
  match ag, r with
  | .bobbin _, .mill m _ => stateOf p (.mill m) == .disabled
  | _, .mill m _ => !write || stateOf p (.mill m) == .disabled
  | _, _ => true

/-- A refusal 3–5 counted where it arose (R33); one under R235 sets store_refused in the mill's page (R250). -/
def noteRefusal (p : Pkg) (a : Nat) (st : Status) : Pkg :=
  let q := countRefusal p (cmnOfOffset p a)
  match rangeOf a with
  | .mill m _ => if st = Status.refusedPrivate then raise q (.mill m) 20 else q
  | _ => q

/-- Checks 3 to 5 of R32, in order, for an access of n bytes at an offset, a write or a read: done when all pass. -/
def checkReach (p : Pkg) (ag : Agent) (a n : Nat) (write : Bool := false) : Status :=
  if rangeOf a = .hole ∨ !sameRange a n then Status.refusedUnmapped
  else if !permitted ag (rangeOf a) || !millIdle p ag (rangeOf a) write then Status.refusedPrivate
  else if !rangeServes p a n then Status.refusedOffline
  else Status.done

/-- Check 7 of R32 at a store. -/
def checkAwake (p : Pkg) (a n : Nat) : Status :=
  match rangeOf a with
  | .store st o => if rangeAsleep p st o n then Status.refusedAsleep else Status.done
  | _ => Status.done

/-- The map's complement check on use (R216): when it fails every MEMC page that has power sets cmp_fail and enters FAULT with cause
0x03, or stays there. -/
def mapChecked (p : Pkg) : Pkg :=
  if pairOk p (.memc 0) 0x090 then p
  else (List.finRange 12).foldl (fun q n =>
    match stateOf q (.memc n) with
    | .off => q
    | .fault => raise q (.memc n) evCmpFail
    | _ => cmpFail q (.memc n)) p

/-- An ENABLED controller uses MEMC_CFG (R42): one that fails its check takes it into FAULT. -/
def memcUsed (p : Pkg) (n : Fin 12) : Pkg :=
  if enabled p (.memc n) && !pairOk p (.memc n) 0x088 then cmpFail p (.memc n) else p

/-- What an access to DRAM uses: the map, and the configuration of the stack of its first byte (R42, R216). -/
def dramUsed (p : Pkg) (a : Nat) : Pkg :=
  if rangeOf a = .dram then (let q := mapChecked p; if pairOk q (.memc 0) 0x090 then memcUsed q (dramPlace (mapGib q) a).1 else q) else p

/-- Whether a repair copy runs on the row of a stack offset, so that its accesses are held (R226). -/
def rowHeld (p : Pkg) (n : Fin 12) (s : Nat) : Bool :=
  match (stackOf p n).copy with
  | some c => c.ch == chanOf s && c.bank == dramBankOf s && c.row == rowOf s
  | none => false

/-- Whether any line of n bytes at a local offset lies in a row under a repair copy. -/
def dramHeld (p : Pkg) (a n : Nat) : Bool :=
  p.stackUnits.any (fun kv => kv.2.copy.isSome) &&
    (linesOf a n).any (fun l => rangeOf l == .dram && rowHeld p (dramPlace (mapGib p) l).1 (dramPlace (mapGib p) l).2)

/-- Checks 3–5 and 7 for an access of an agent of this package, a write or a read, with the counts of R33 and R152. -/
def checkAccess (p : Pkg) (ag : Agent) (a n : Nat) (write : Bool := false) : Pkg × Status :=
  let p := dramUsed p a
  let st := checkReach p ag a n write
  if st ≠ Status.done then (noteRefusal p a st, st)
  else
    match rangeOf a with
    | .store s o => if rangeAsleep p s o n then (countAsleep (clstAccess p s) s, Status.refusedAsleep) else (clstAccess p s, Status.done)
    | _ => (p, Status.done)

/-! ## Register pages -/

/-- The scope bit that a debug access to a register needs (R487): the common registers of the DBG page need none; of the debug module's
the abstract commands and the system bus need bit 1, the others bit 0. -/
def scopeBit (g : Page) (off : Nat) (write : Bool) : Option Nat :=
  if g = .dbg ∧ off < 0x040 then none
  else if g = .dbg ∧ 0x090 ≤ off ∧ off < 0x0C0 then some 2
  else if g = .dbg ∧ 0x400 ≤ off ∧ off < 0x600 then
    let a := (off - 0x400) / 4
    some (if (0x04 ≤ a ∧ a < 0x10) ∨ (0x16 ≤ a ∧ a < 0x19) ∨ (0x20 ≤ a ∧ a < 0x30) ∨ 0x37 ≤ a ∧ a < 0x40 then 1 else 0)
  else if g = .dbg ∧ ((0x100 ≤ off ∧ off < 0x118) ∨ 0x800 ≤ off) then some 6
  else if write then some 4 else some 3

/-- Whether the lock of R487 keeps the debug port from an access. -/
def debugLocked (p : Pkg) (bit_ : Option Nat) : Bool :=
  match bit_ with
  | some b => !p.boot.scope.testBit b
  | none => false

/-- A debug access that the lock refuses: an item of the DBG page, counted, with locked_refused (R487). -/
def lockRefused (p : Pkg) : Pkg :=
  let q := bump (tallyIn p .dbg 1) .dbg 0x200 1
  raise (bump (tallyOut q .dbg 1) .dbg 0x208 1) .dbg 20

/-- A debug access that is let through to the checks of R32 is an item of the DBG page (R487). -/
def countDebug (p : Pkg) (ag : Agent) : Pkg := if ag = .debug then tallyOut (bump (tallyIn p .dbg 1) .dbg 0x200 1) .dbg 1 else p

/-- The answer to an agent's access put out. -/
def answer (p : Pkg) (ag : Agent) (v : Word) : Pkg := emit p (.access ag Status.done v)

/-- Whether a block has an indirect table port, can be quarantined, and has gated banks (R36). -/
def capsOf (type : Nat) : Nat :=
  (if type = 0x16 ∨ (0x18 ≤ type ∧ type ≤ 0x1B) ∨ type = 0x1D then 2 ^ 11 else 0) + 2 ^ 10
    + (if 0x10 ≤ type ∧ type ≤ 0x14 then 2 ^ 9 else 0) + 2 ^ 8 + evtBits type

/-- The common registers of a page (R36, R45): PAGE_ID, CAPS, CTRL, STATE, STATE_CAUSE, the event registers and the live tallies; those
of an OFF page read zero but for PAGE_ID, CAPS, STATE and STATE_CAUSE. -/
def commonView (p : Pkg) (g : Page) (off : Nat) : Word :=
  let b := block p g
  match off with
  | 0x000 => BitVec.ofNat 32 (g.type * 65536 + g.inst * 256 + 1)
  | 0x004 => BitVec.ofNat 32 (capsOf g.type)
  | 0x010 => BitVec.ofNat 32 b.state.code
  | 0x014 => BitVec.ofNat 32 (b.round * 256 + b.cause)
  | _ =>
    if b.state = .off then 0
    else
      match off with
      | 0x008 => getReg p g 0x008
      | 0x00C => getReg p g 0x00C
      | 0x018 => b.evt
      | 0x01C => b.mask
      | 0x024 => (match b.first with | some i => BitVec.ofNat 32 (2 ^ 31 + i) | none => 0)
      | 0x028 => lo32 b.tin
      | 0x02C => hi32 b.tin
      | 0x030 => lo32 b.tout
      | 0x034 => hi32 b.tout
      | 0x038 => lo32 (b.tin - b.tout)
      | 0x03C => hi32 (b.tin - b.tout)
      | _ => 0

/-- What keeps an agent's access from a register (R31–R33, R45, R487): the lock, the map, the permissions, and for a write an OFF
page. -/
def regStatus (write : Bool) (p : Pkg) (ag : Agent) (g : Page) (off : Nat) : Status :=
  if ag = .debug ∧ debugLocked p (scopeBit g off write) then Status.refusedLocked
  else if !pageExists g then Status.refusedUnmapped
  else if !permitted ag (.page g off) then Status.refusedPrivate
  else if write ∧ stateOf p g = .off then Status.refusedOffline
  else Status.done

/-- A page is told that an access to it was refused (R36). -/
def tellPage (p : Pkg) (g : Page) : Pkg := if pageExists g && stateOf p g != .off then raise p g evRefusedAccess else p

/-- The page at an offset, if it is a register page's, is told that an access to it was refused (R36). -/
def tellPageAt (p : Pkg) (a : Nat) : Pkg := match rangeOf a with | .page g _ => tellPage p g | _ => p

/-- A refused register access is counted (R33, R487), and the page told (R36). -/
def regRefuse (p : Pkg) (g : Page) (st : Status) : Pkg :=
  tellPage (if st = Status.refusedLocked then lockRefused p else countRefusal p (cmnOfPage g)) g

/-- An agent's access to a register: refused and answered, or let through. A read of an OFF page is served from the copies on HD
(R45). -/
def regAccess (write : Bool) (p : Pkg) (ag : Agent) (g : Page) (off : Nat) (k : Pkg → Pkg) : Pkg :=
  let st := regStatus write p ag g off
  let p := if st = Status.refusedLocked then p else countDebug p ag
  if st ≠ Status.done then emit (regRefuse p g st) (.access ag st 0)
  else if !write ∧ stateOf p g = .off then answer p ag (commonView p g off)
  else k p

/-- A read and a write of a register. -/
def regGate (p : Pkg) (ag : Agent) (g : Page) (off : Nat) (k : Pkg → Pkg) : Pkg := regAccess false p ag g off k
def regGateW (p : Pkg) (ag : Agent) (g : Page) (off : Nat) (k : Pkg → Pkg) : Pkg := regAccess true p ag g off k

/-- Register writes to a page reach it only while it is not OFF (R45). -/
def ifOn (p : Pkg) (g : Page) (f : Pkg → Pkg) : Pkg := if stateOf p g = .off then countRefusal p (cmnOfPage g) else f p

end Sys2Proof.Machine
end

