-- ==== Sys2Proof/Machine/Flow.lean ====
section
/-! DEFINITION. Flows, prickings and admission (R59–R67): table readers, the checks of R66 and the departure test of R67. -/
namespace Sys2Proof.Machine
open Sys2Proof

/-- The flow table of a die router is its table 1: FLOW_DATA0 at 2 × flow, FLOW_DATA1 at 2 × flow + 1 (R65). -/
def flowData0 (p : Pkg) (d : Fin 4) (flow : Nat) : Word := entryVal p (.drt d) 1 (2 * flow)
def flowData1 (p : Pkg) (d : Fin 4) (flow : Nat) : Word := entryVal p (.drt d) 1 (2 * flow + 1)
/-- Whether both words of a flow entry pass their complement checks (R42). -/
def flowOk (p : Pkg) (d : Fin 4) (flow : Nat) : Bool :=
  entryOk p (.drt d) 1 (2 * flow) && entryOk p (.drt d) 1 (2 * flow + 1)
def flowValid (p : Pkg) (d : Fin 4) (flow : Nat) : Bool := bit (flowData0 p d flow) 31
def flowSlots (p : Pkg) (d : Fin 4) (flow : Nat) : Nat := bits (flowData0 p d flow) 27 16
def pathBound (p : Pkg) (d : Fin 4) (flow : Nat) : Nat := bits (flowData0 p d flow) 15 0
def downBound (p : Pkg) (d : Fin 4) (flow : Nat) : Nat := bits (flowData1 p d flow) 15 0

/-- A job flow (R59). -/
def isJobFlow (flow : Nat) : Bool := 2 ≤ flow && flow ≤ 0xFFE

/-- BELL states in which reserved items are admitted (R54). -/
def bellAdmits (p : Pkg) : Bool := p.bellU.state == .locked || p.bellU.state == .holdover

/-- The outcome of the checks of R66. -/
inductive Admit where
  | no (st : Status)
  | wait
  | ok (due : DWord)
  deriving DecidableEq, Repr

/-- An injector never sets a due time more than 2²² ticks after admission (R282). -/
def capDue (now due : DWord) : DWord := if due.toNat > now.toNat + 2 ^ 22 then now + 0x400000#64 else due

/-- The checks of R66, in order, for an item of a flow injected on a die. Unreserved traffic, flow 0xFFF, has no bell,
flow or budget check and no due time (R59). -/
def admitCheck (p : Pkg) (d : Fin 4) (flow : Nat) (dueReq : Option DWord) (payload : Nat) : Admit :=
  if flow = 0xFFF then .ok 0
  else if !bellAdmits p then .no Status.refusedBell
  else if !isJobFlow flow || !flowOk p d flow || !flowValid p d flow || flowSlots p d flow == 0 then .no Status.refusedFlow
  else
    let least := p.bell.toNat + 8 * pathBound p d flow
    let late := match dueReq with
      | some w => decide (least > w.toNat)
      | none => false
    if late then .no Status.refusedDue
    else if payload + 48 + Map.getD p.budget (d, flow) 0 > flowSlots p d flow * 2256 then .wait
    else .ok (capDue p.bell (dueReq.getD (BitVec.ofNat 64 least)))

/-- The budget of a flow debited by payload + 48 bytes (R66). -/
def debit (p : Pkg) (d : Fin 4) (flow payload : Nat) : Pkg :=
  if flow = 0xFFF then p
  else { p with budget := Map.put p.budget (d, flow) (Map.getD p.budget (d, flow) 0 + payload + 48) }

/-- The die whose flow table, budgets and router serve a bobbin: its own; CD0 for a gateway bobbin (log entry 13). -/
def BobId.die : BobId → Fin 4
  | .cluster d _ _ => d
  | .gateway _ => 0

/-- What waits in a flow's line at a die's injectors (R66): the kind and number of each item, and its place. The kinds are 0 a
core's request, 1 a descriptor, 2 a chunk, 3 a twin atomic, 4 a descriptor's mirror frames. -/
def flowLine (p : Pkg) (d : Fin 4) (flow : Nat) : List ((Nat × Nat) × Nat) :=
  let reqs : List ((Nat × Nat) × Nat) := (p.creqs.filter (fun r => r.flow == flow && r.ctx.core.die == d)).map (fun r => ((0, r.id), r.ticket))
  let descs : List ((Nat × Nat) × Nat) := (p.bobs.filter (fun kv => kv.1.die == d)).flatMap (fun kv =>
    (kv.2.descs.filter (fun e => e.flow == flow)).map (fun e => ((1, e.order), e.ticket))
      ++ (kv.2.descs.filter (fun e => e.tflow == flow)).map (fun e => ((4, e.order), e.mticket)))
  let chunks : List ((Nat × Nat) × Nat) := (p.wells.filter (fun kv => kv.1 == d)).flatMap (fun kv =>
    kv.2.insts.flatMap (fun x => (x.outs.filter (fun o => o.flow == flow && o.ended.isNone)).map (fun o => ((2, o.seq.toNat), o.ticket))))
  let twins : List ((Nat × Nat) × Nat) := (p.ledgers.filter (fun kv => kv.1 == d)).flatMap (fun kv =>
    kv.2.own.flatMap (fun ke => (ke.2.filter (fun e => e.flow == flow && e.pending)).map (fun e => ((3, e.seq.toNat), e.ticket))))
  (reqs ++ descs ++ chunks ++ twins).filter (fun x => x.2 != 0)

/-- The place an item takes in its flow's line when it has to wait: the one it holds, or the last. -/
def takeTicket (p : Pkg) (d : Fin 4) (flow ticket : Nat) : Nat :=
  if ticket = 0 then ((flowLine p d flow).map (fun x => x.2)).foldl max 0 + 1 else ticket

/-- The checks of R66 for an item of a kind and number that stands at a place of its flow's line: items of a flow are admitted in
order, so that one with others before it waits too. -/
def admitLine (p : Pkg) (d : Fin 4) (flow : Nat) (dueReq : Option DWord) (payload : Nat) (me : Nat × Nat) (ticket : Nat) : Admit :=
  match admitCheck p d flow dueReq payload with
  | .ok due =>
    if flow ≠ 0xFFF ∧ (flowLine p d flow).any (fun x => x.1 != me && (ticket == 0 || decide (x.2 < ticket))) then .wait else .ok due
  | r => r

/-- Units a frame takes (R287). -/
def unitsOf (f : Frame) : Nat := (f.payload.length + 48 + 63) / 64

/-! ## Prickings (R60–R64) -/

/-- The entries a pricking copy lists, slot by slot; slots not listed are at reset (R60). -/
def copyEntries (p : Pkg) (n : Fin 32) (copy : Nat) : List (Nat × Word × Word) :=
  let l := p.rg.tables.filterMap (fun kv =>
    if kv.1.1 = Page.prk n ∧ kv.1.2.1 = copy then some (kv.1.2.2, kv.2) else none)
  if l.any (fun e => e.1 == 0) then l else (0, (0x8000#32, ~~~0x8000#32)) :: l

/-- Whether every entry that a copy lists passes its complement check (R60). -/
def copyOk (p : Pkg) (n : Fin 32) (copy : Nat) : Bool := (copyEntries p n copy).all (fun e => e.2.2 == ~~~e.2.1)

/-- The slots of a copy reserved to a flow, rising. -/
def copySlots (p : Pkg) (n : Fin 32) (copy flow : Nat) : List Nat :=
  ((copyEntries p n copy).filter (fun e => e.2.1.toNat == 0x8000 + flow)).foldl (fun l e => insertLine l e.1) []

/-- The copy that is active, and the standby copy (R62). -/
def activeCopy (p : Pkg) (n : Fin 32) : Nat := (portOfPkg p n).active
def standbyCopy (p : Pkg) (n : Fin 32) : Nat := 1 - (portOfPkg p n).active

/-- Whether the active copy holds a slot of a flow (R64, R67). -/
def holdsSlot (p : Pkg) (n : Fin 32) (flow : Nat) : Bool := !(copySlots p n (activeCopy p n) flow).isEmpty

/-- Whether a copy is sealed. -/
def Port.sealed (x : Port) (copy : Nat) : Bool := if copy = 0 then x.sealedA else x.sealedB
/-- A copy's seal set or taken off. -/
def Port.setSealed (x : Port) (copy : Nat) (b : Bool) : Port := if copy = 0 then { x with sealedA := b } else { x with sealedB := b }

/-- The number of reserved entries of a copy (R72). -/
def reservedCount (p : Pkg) (n : Fin 32) (copy : Nat) : Nat :=
  ((copyEntries p n copy).filter (fun e => bit e.2.1 15)).length

/-- The start, in ticks, of the slot in which an item of a flow would start on a port behind k queued items of that flow:
the k-th slot of the flow from the slot in progress on (R67; one item a slot, log entry 11). -/
def departTick (p : Pkg) (n : Fin 32) (flow k : Nat) : Nat :=
  let sl := copySlots p n (activeCopy p n) flow
  let before := (sl.filter (fun s => s < slotOf p.bell)).length
  let i := before + k
  let len := sl.length
  if len = 0 then 0 else ((roundNow p + i / len) * 4096 + nth sl (i % len) 0) * 8

/-- Items of a flow queued at a port. -/
def queuedOf (p : Pkg) (n : Fin 32) (flow : Nat) : Nat :=
  ((portOfPkg p n).queue.filter (fun q => q.frame.flow == flow && q.frame.cls == 1)).length

/-- The departure test of R67 that a die's router makes for a C1 frame on a port: the status that ends the item, or
none. -/
def departTest (p : Pkg) (d : Fin 4) (n : Fin 32) (f : Frame) : Option Status :=
  if !flowOk p d f.flow || !flowValid p d f.flow then some Status.lateNoSlot
  else if !holdsSlot p n f.flow then some Status.lateNoSlot
  else if departTick p n f.flow (queuedOf p n f.flow) + 8 * downBound p d f.flow > f.due.toNat then some Status.lateMissed
  else none

/-- The same test where a router hands a frame across the hub for delivery with no output port (R67). -/
def hubTest (p : Pkg) (d : Fin 4) (f : Frame) : Option Status :=
  if !flowOk p d f.flow || !flowValid p d f.flow then some Status.lateNoSlot
  else if p.bell.toNat + 8 * downBound p d f.flow > f.due.toNat then some Status.lateMissed
  else none

/-! ## Ports as the router sees them (R299) -/

/-- The index of a port within its die. -/
def portIdx (n : Fin 32) : Nat := n.val % 8

/-- Whether a port's link is UP or RETRAIN and its LNK page ENABLED: not dark (R73, R291, R299). -/
def portLit (p : Pkg) (n : Fin 32) : Bool :=
  carries p (.lnk n) && ((portOfPkg p n).lstate == .up || (portOfPkg p n).lstate == .retrain)

/-- Whether a port's queue takes a routed frame: the port is not dark and its PRK page accepts items (R43, R73). -/
def portOpen (p : Pkg) (n : Fin 32) : Bool := portLit p n && carries p (.prk n)

/-- Whether a port is usable for a class (R299). -/
def usable (p : Pkg) (n : Fin 32) (cls : Nat) : Bool :=
  bit (getReg p (.drt (dieOfPort n)) 0x0A0) (portIdx n) && portLit p n && !(cls == 1 && (portOfPkg p n).revoked)

/-- The routing entry of a chip on a die: table 0 of its DRT page (R295). -/
def rtEntry (p : Pkg) (d : Fin 4) (chip : Chip) : Word := entryVal p (.drt d) 0 chip.toNat

/-- Whether a chip's entry is in slice on a die (R296). -/
def inSlice (p : Pkg) (d : Fin 4) (chip : Chip) : Bool :=
  bit (rtEntry p d chip) 31 && bits (rtEntry p d chip) 23 18 == bits (getReg p (.drt d) 0x098) 5 0

/-- Whether a chip has an entry in the fence table (R328). -/
def fenced (p : Pkg) (chip : Chip) : Bool := p.fences.any (fun f => f.chip == chip)

end Sys2Proof.Machine
end

