-- ==== Sys2Proof/Machine/Operands.lean ====
section
/-! DEFINITION. The instruction word (R160, R161), the base/bound pairs (R143), tensor handles (R165), and the scalar registers (R164). -/
namespace Sys2Proof.Machine
open Sys2Proof

/-! ## The instruction word (R161) -/

/-- The opcode. -/
def opOf (i : BitVec 128) : Nat := bits i 7 0
def sigTok (i : BitVec 128) : Nat := bits i 10 8
def sigEn (i : BitVec 128) : Bool := bit i 11
def wmask (i : BitVec 128) : Nat := bits i 19 12
def fenceBit (i : BitVec 128) : Bool := bit i 20
def slotA (i : BitVec 128) : Nat := bits i 43 39
def slotB (i : BitVec 128) : Nat := bits i 48 44
def slotC (i : BitVec 128) : Nat := bits i 53 49
def slotD (i : BitVec 128) : Nat := bits i 58 54
def slotX (i : BitVec 128) : Nat := bits i 63 59
/-- The 64-bit immediate in f3[127:64]. -/
def imm64 (i : BitVec 128) : DWord := BitVec.ofNat 64 (bits i 127 64)

/-! ## Scalar registers -/

/-- A scalar register; s0 reads zero and a write to it is discarded (R175). -/
def sreg (x : Ctx) (n : Nat) : DWord := if n = 0 then 0 else Map.getD x.s n 0
def setSreg (x : Ctx) (n : Nat) (v : DWord) : Ctx := if n = 0 then x else { x with s := Map.put x.s n v }
def vreg (x : Ctx) (n : Nat) : BitVec 4096 := Map.getD x.v n 0
def setVreg (x : Ctx) (n : Nat) (v : BitVec 4096) : Ctx := { x with v := Map.put x.v n v }

/-! ## Base and bound (R143) -/

/-- The four pairs of a context. -/
inductive Pair where
  | core | cluster | dram | commons
  deriving DecidableEq, Repr

/-- The offset of a context's register in its CORE page (R158). -/
def ctxReg (c : CtxId) (off : Nat) : Nat := 0x100 + 0x80 * c.ctx.val + off
/-- A context's register value. -/
def ctxRegVal (p : Pkg) (c : CtxId) (off : Nat) : Word := getReg p (.core c.core) (ctxReg c off)

/-- The base and bound of a pair, in bytes. -/
def pairBase (p : Pkg) (c : CtxId) : Pair → Nat
  | .core => bits (ctxRegVal p c 0x18) 7 0 * 4096
  | .cluster => bits (ctxRegVal p c 0x20) 10 0 * 4096
  | .dram => bits (ctxRegVal p c 0x28) 23 0 * 65536
  | .commons => (ctxRegVal p c 0x38).toNat * 65536
def pairBound (p : Pkg) (c : CtxId) : Pair → Nat
  | .core => bits (ctxRegVal p c 0x18) 24 16 * 4096
  | .cluster => bits (ctxRegVal p c 0x20) 27 16 * 4096
  | .dram => bits (ctxRegVal p c 0x30) 24 0 * 65536
  | .commons => (ctxRegVal p c 0x40).toNat * 65536

/-- Whether the registers of a pair pass their complement checks (R42, R144). -/
def pairSound (p : Pkg) (c : CtxId) : Pair → Bool
  | .core => pairOk p (.core c.core) (ctxReg c 0x18)
  | .cluster => pairOk p (.core c.core) (ctxReg c 0x20)
  | .dram => pairOk p (.core c.core) (ctxReg c 0x28) && pairOk p (.core c.core) (ctxReg c 0x30)
  | .commons => pairOk p (.core c.core) (ctxReg c 0x38) && pairOk p (.core c.core) (ctxReg c 0x40)

/-- The store that a store pair reaches: the context's own core store or its own cluster's store. -/
def ctxStore (c : CtxId) (cluster : Bool) : StoreId :=
  if cluster then .cluster c.core.die c.core.cluster else .core c.core

/-- The local offset at which a pair's addresses begin; the commons pair's begins at its base. -/
def pairOrigin (c : CtxId) : Pair → Nat
  | .core => (ctxStore c false).base
  | .cluster => (ctxStore c true).base
  | _ => 0

/-- The address check of R143 for n bytes at a relative address: the local offset, or for the commons pair the offset on
the target chip; none where the check fails. -/
def pairAddr (p : Pkg) (c : CtxId) (k : Pair) (x n : Nat) : Option Nat :=
  if x + n ≤ pairBound p c k ∧ (k = .commons → pairBase p c k + x + n ≤ 2 ^ 48) then
    some (pairOrigin c k + pairBase p c k + x)
  else none

/-! ## Tensor handles (R165) -/

/-- A tensor handle's fields; offsets and pitches in lines. -/
structure Handle where
  cluster : Bool
  epitch : Nat
  spitch : Nat
  splane : Nat
  eplane : Nat
  clean : Bool
  deriving DecidableEq, Repr

/-- The handle in a 64-bit register. -/
def handleOf (v : DWord) : Handle :=
  { cluster := bit v 63, epitch := bits v 57 46, spitch := bits v 45 40, splane := bits v 39 23, eplane := bits v 16 0
    clean := bits v 62 58 == 0 && bits v 22 17 == 0 }

/-- A handle that uses only space and eplane has every other field zero (R165). -/
def Handle.plain (h : Handle) : Bool := h.clean && h.epitch == 0 && h.spitch == 0 && h.splane == 0
/-- The pair that a handle's space names. -/
def Handle.pair (h : Handle) : Pair := if h.cluster then .cluster else .core

/-- The checks of R32 that a range of a context's own stores meets: bound, then the store's capacity, service and banks. -/
def storeCheck (p : Pkg) (c : CtxId) (k : Pair) (x n : Nat) : Except Status Nat :=
  match pairAddr p c k x n with
  | none => .error Status.refusedBound
  | some a =>
    let st := ctxStore c (k == .cluster)
    if a - st.base + n > st.size then .error Status.refusedUnmapped
    else if !storeServes p st then .error Status.refusedOffline
    else if rangeAsleep p st (a - st.base) n then .error Status.refusedAsleep
    else .ok a

/-- The status of an outcome that carries a value: done when it has one. -/
def exceptStatus {α : Type} : Except Status α → Status
  | .ok _ => Status.done
  | .error st => st

/-- The counts of a refused access of a context to its stores (R33, R152). -/
def countStore (p : Pkg) (c : CtxId) (cluster : Bool) (st : Status) : Pkg :=
  if st = Status.refusedAsleep then countAsleep p (ctxStore c cluster)
  else if st = Status.refusedUnmapped ∨ st = Status.refusedOffline then countRefusal p ⟨0x1D, c.core.die.val⟩
  else p

/-- The worst of a list of statuses. -/
def worstOf (l : List Status) : Status := l.foldl Status.worst Status.done

end Sys2Proof.Machine
end

