-- ==== Sys2Proof/Machine/Act.lean ====
section
/-! DEFINITION. The one form of a command's outcome: the package's parts change, then the alert pins, which are functions of them,
follow (R427, R475). -/
namespace Sys2Proof.Machine
open Sys2Proof

/-- Whether a stack's controller is in compatibility mode (R223). -/
def compatMode (p : Pkg) (n : Fin 12) : Bool := bit (getReg p (.memc n) 0x088) 24
/-- The compatibility duty of a die: 16/16 while none of its controllers is in that mode (R223). -/
def compatDuty (p : Pkg) (d : Fin 4) : Nat :=
  if (List.finRange 12).any (fun n => dieOfStack n == d && compatMode p n) then Map.getD p.pw.compat d 16 else 16
/-- The duty of a die in sixteenths: the lower of its thermal and its compatibility duty (R425). -/
def dutyOf (p : Pkg) (d : Fin 4) : Nat := min (Map.getD p.pw.thermal d 16) (compatDuty p d)

/-- Whether a sensor of a selvage engine reads 95 °C or more (R427); readings are in sixteenths of a degree. -/
def selHot (p : Pkg) (n : Fin 16) : Bool :=
  stateOf p (.sel n) != .off &&
    (decide (1520 ≤ signed 12 (bits (getReg p (.sel n) 0x098) 27 16)) || decide (1520 ≤ signed 12 (bits (getReg p (.sel n) 0x098) 11 0)))

/-- THERM_N asserted (R427). -/
def thermOut (p : Pkg) : Bool :=
  (List.finRange 4).any (fun d => decide (dutyOf p d < 16))
    || (match Map.look p.pw.sensors 4 with | some x => x.above | none => false)
    || (List.finRange 12).any (fun n => (stackOf p n).step == 2)
    || (List.finRange 16).any (selHot p)

/-- FAULT_N asserted: from any trip until Caselm clears it, after a hub trip until Caselm runs (R427); while a lost rail is down (R475);
and in the recovery ROM's keeping (R441). -/
def faultOut (p : Pkg) : Bool :=
  (List.finRange 4).any (fun d => bit (block p ⟨0x06, d.val⟩).evt 19)
    || (List.finRange 12).any (fun n => (stackOf p n).tripped)
    || (List.finRange 16).any (fun n => stateOf p (.sel n) == .fault && (block p (.sel n)).cause == 0x07)
    || p.pw.trips.contains 4 || !p.pins.again.isEmpty || p.pins.barred.any (fun d => !(Map.getD p.pins.losses d []).isEmpty && (match d with | .stack _ => false | _ => true)) || p.boot.stage == .recovery

/-- The alert pins follow the state. -/
def settle (p : Pkg) : Pkg := { p with pins := { p.pins with fault := faultOut p, therm := thermOut p } }

/-- A command takes effect: the next state has the package changed and the queue as it was. -/
def act (s : State) (f : Pkg → Pkg) : Host.Outcome State Fault Refusal := .next { s with pkg := settle (f s.pkg) }

end Sys2Proof.Machine
end

