-- ==== Sys2Proof/Machine/Route.lean ====
section
/-! DEFINITION. The die routers (R293–R311): lookup, refusal, failover, delivery, and the routing commands. -/
namespace Sys2Proof.Machine
open Sys2Proof

/-- The response to a frame (R315): kind 0x8, class C3, to the src chip; flow, offset, injector and item sequence are
copied; the due field carries the status and the kind answered. -/
def respFrame (p : Pkg) (f : Frame) (st : Status) (payload : List Byte) (poison : Word) : Frame :=
  { kind := 8, cls := 3, flag := false, last := true, dst := f.src, src := ownChip p, flow := f.flow
    due := BitVec.ofNat 64 (st.toNat + f.kind * 65536), off := f.off, inj := f.inj, seq := f.seq
    payload := payload, poison := poison }

/-- A frame put in a port's queue; PRK counts the item (R72). -/
def pushPort (p : Pkg) (n : Fin 32) (f : Frame) : Pkg :=
  let x := portOfPkg p n
  tallyIn (setPort p n { x with queue := x.queue ++ [⟨f, none⟩] }) (.prk n) 1

/-- The die router of the port's die queues a routed frame for the port, or ends it there: failed.link at a dark or, for
C1, a revoked port (R73); the departure test of R67 by the routing die and again by the port's die. An active copy with an entry
that fails its complement check is not used (R42, R60): PRK enters FAULT and its queue takes nothing new. -/
def queueAtPort (p : Pkg) (d : Fin 4) (n : Fin 32) (f : Frame) : Pkg :=
  if !portOpen p n then frameEndsAtPort p n f Status.failedLink
  else if f.cls = 1 then
    if (portOfPkg p n).revoked then frameEndsAtPort p n f Status.failedLink
    else if !copyOk p n (activeCopy p n) then frameEndsAtPort (cmpFail p (.prk n)) n f Status.failedLink
    else
      match departTest p d n f with
      | some st => frameEndsAt p d n f st
      | none =>
        if dieOfPort n = d then pushPort p n f
        else
          match departTest p (dieOfPort n) n f with
          | some st => frameEndsAtPort p n f st
          | none => pushPort p n f
  else pushPort p n f

/-- A refusal by a router (R300): counted, with its event; an injected item ends with the status at its injector; an
arrived frame of kind 0x3–0x7 is answered out of its arrival port with no lookup; a response is discarded. -/
def refuseFrame (p : Pkg) (d : Fin 4) (ri : RouterIn) (st : Status) : Pkg :=
  let g := Page.drt d
  let q :=
    if st = Status.refusedSlice then raise (bump p g 0x188 1) g 20
    else if st = Status.refusedRoute then raise (bump p g 0x190 1) g 21
    else if st = Status.refusedFenced then bump p ⟨0x1D, d.val⟩ 0x150 1
    else p
  match ri.arrival with
  | none => if 4 ≤ ri.frame.kind ∧ ri.frame.kind ≤ 7 then endFrame q ri.frame st else q
  | some n =>
    if ri.frame.kind ≤ 7 then
      let r := respFrame q ri.frame st [] 0
      if carries q (.prk n) then pushPort q n r else frameEndsAtPort q n r Status.failedLink
    else q

/-- A Caselm command packet: kind 0x3 of control type 0x04 (R282). -/
def isCommand (f : Frame) : Bool := f.kind == 3 && f.off == 4

/-- Whether a sampler pass lets a Caselm command packet to or from a chip through (R408). -/
def passHolds (p : Pkg) (chip : Chip) (f : Frame) : Bool :=
  isCommand f && p.fences.any (fun e => e.chip == chip && e.pass)

/-- Whether this package joins a sampler as the candidate and a command packet goes to another package than the model: the pass does not
carry it (R406). -/
def candidateBars (p : Pkg) (f : Frame) : Bool :=
  isCommand f && (match p.rv.sampler with | some x => x.joins && f.dst != x.model && f.dst != ownChip p | none => false)

/-- The port that links a chip directly and is usable, lowest first (R408). -/
def portTo (p : Pkg) (chip : Chip) : Option (Fin 32) :=
  (List.finRange 32).find? (fun n =>
    usable p n 0 && (match (portOfPkg p n).lastPeer with | some e => e.chip == chip | none => false))

/-- The port code of a routing entry field: 0x00–0x1F name P0–P31 (R295). -/
def portCode (c : Nat) : Option (Fin 32) := if h : c < 32 then some ⟨c, h⟩ else none

/-- The choice of R299 and R303 between primary, backup and alt: the port, whether alt was taken, and whether the frame
moved off its primary. A primary that traffic has left is chosen again only after the revert. -/
def choosePort (p : Pkg) (e : Word) (cls : Nat) : Fin 32 × Bool × Bool :=
  let prim := (portCode (bits e 5 0)).getD 0
  let c1 : Fin 32 × Bool × Bool :=
    if usable p prim cls && !(portOfPkg p prim).moved then (prim, false, false)
    else
      match portCode (bits e 11 6) with
      | some b => if usable p b cls then (b, false, true) else (prim, false, false)
      | none => (prim, false, false)
  if cls ≥ 2 then
    match portCode (bits e 17 12) with
    | some a => if usable p a cls then (a, true, false) else c1
    | none => c1
  else c1

/-- Failover (R302): the port's moved bit and the failover event in the page of the die that owns the primary; the die
of the lookup counts the frame. -/
def markFailover (p : Pkg) (d : Fin 4) (prim : Fin 32) : Pkg :=
  let x := portOfPkg p prim
  let q := bump p (.drt d) 0x198 1
  if x.moved then q else raise (setPort q prim { x with moved := true }) (.drt (dieOfPort prim)) 22

/-- The die a delivered frame goes to (R298 step 2): the die that owns the target offset; a response or late report goes
to its injector's die, and collective control to the die that its sender names, which is the same on every package (R336). -/
def deliveryDie (p : Pkg) (f : Frame) : Fin 4 :=
  if f.kind = 8 ∨ (f.kind = 3 ∧ (f.off = 3 ∨ f.off = 5)) then injDie f.inj
  else if f.kind = 3 then 0
  else dieOfOffset p f.off

/-! ### Landing slots (R209) -/

/-- Whether a delivered frame carries a command packet (R370). -/
def carriesPacket (x : Delivered) : Bool := x.frame.kind == 3 && x.frame.off == 4

/-- The second frame of a packet whose first frame this is. -/
def followsOn (x y : Delivered) : Bool :=
  carriesPacket y && y.frame.last && y.frame.src == x.frame.src && y.frame.seq == x.frame.seq

/-- Whether a frame is the second one of a packet whose first frame came before. -/
def isSecond (before : List Delivered) (x : Delivered) : Bool :=
  before.any (fun w => carriesPacket w && !w.frame.last && followsOn w x)

/-- The bytes of a packet that has arrived whole; what comes after its first frame is given (R370). -/
def wholePacket (x : Delivered) (after : List Delivered) : Option (List Byte) :=
  if x.frame.last then some x.frame.payload else (after.find? (followsOn x)).map (fun y => x.frame.payload ++ y.frame.payload)

/-- The lowest free slot of a gateway bobbin. -/
def freeSlot (p : Pkg) (k : Fin 8) : Option Nat := (List.range 32).find? (fun i => (Map.look (bobOf p (.gateway k)).slots i).isNone)

/-- The gateway bobbin that takes a payload meant for GBk: that one, or when it is not ENABLED the next ENABLED one in ascending order
(R209, R211). -/
def landGateway (p : Pkg) (k : Nat) : Option (Fin 8) :=
  ((List.finRange 8).map (fun i => (⟨(k + i.val) % 8, by omega⟩ : Fin 8))).find? (fun g => enabled p (.bob (.gateway g)))

/-- The gateway bobbin and free slot for a payload meant for GBk; none when no gateway bobbin is ENABLED or its slots are all full, and the
payload is held (R209, R211). -/
def landPlace (p : Pkg) (k : Nat) : Option (Fin 8 × Nat) :=
  match landGateway p k with
  | some g => (freeSlot p g).map (fun n => (g, n))
  | none => none

/-- A slot of a gateway bobbin filled. -/
def fillSlot (p : Pkg) (k : Fin 8) (n : Nat) (b : List Byte) : Pkg :=
  let x := bobOf p (.gateway k)
  setBob p (.gateway k) { x with slots := Map.put x.slots n b }
/-- A slot of a gateway bobbin freed. -/
def dropSlot (p : Pkg) (k : Fin 8) (n : Nat) : Pkg :=
  let x := bobOf p (.gateway k)
  setBob p (.gateway k) { x with slots := Map.drop x.slots n }

/-- The units of a frame that has left a port's receive buffer are freed (R287). -/
def freeUnits (p : Pkg) (ri : RouterIn) : Pkg :=
  match ri.arrival with
  | none => p
  | some n =>
    let x := portOfPkg p n
    let u := unitsOf ri.frame
    if x.rxbuf.any (fun f => f == ri.frame) then
      setPort p n { x with
        rxbuf := (match x.rxbuf.findIdx? (fun f => f == ri.frame) with | some i => x.rxbuf.eraseIdx i | none => x.rxbuf)
        credits := { x.credits with freed := setNth x.credits.freed ri.frame.cls (nth x.credits.freed ri.frame.cls 0 + u) } }
    else p

/-- The die whose gateway bobbin takes a packet's payload: the one it arrived on (R209). -/
def landsAt (x : Delivered) : Fin 4 := match x.arrival with | some n => dieOfPort n | none => x.die

/-- Whether a frame carries payload of a command packet, which a landing slot takes (R209). -/
def waitsForSlot (f : Frame) : Bool := isCommand f && (!f.last || decide (64 < f.payload.length))

/-- Whether a delivered frame still holds payload of a command packet in the receive buffer of its port: its packet has no slot yet (R209). -/
def Delivered.held (before : List Delivered) (x : Delivered) : Bool :=
  waitsForSlot x.frame && !isSecond before x && x.slot.isNone

/-- The payload of one packet of the inbox goes to a slot, if the packet has arrived whole and one is free; the units of its frames are
freed then (R209, R287). The frames before and after it in the inbox are given. -/
def landOne (p : Pkg) (before : List Delivered) (x : Delivered) (after : List Delivered) : Pkg × Delivered :=
  if !x.held before then (p, x)
  else
    match wholePacket x after, landPlace p (landsAt x).val with
    | some b, some (k, n) =>
      let q := freeUnits (fillSlot p k n (b.drop 64)) ⟨x.frame, x.arrival⟩
      let q := match (if x.frame.last then none else after.find? (followsOn x)) with
        | some y => freeUnits q ⟨y.frame, y.arrival⟩
        | none => q
      (q, { x with slot := some (k, n) })
    | _, _ => (p, x)

/-- The packets of the inbox that can be placed are, in the order of their arrival. -/
def landAll : List Delivered → List Delivered → Pkg → Pkg
  | before, [], p => { p with inbox := before }
  | before, x :: r, p =>
    let t := landOne p before x r
    landAll (before ++ [t.2]) r t.1
/-- The packets that wait for slots take those that are free (R209). -/
def landWaiting (p : Pkg) : Pkg := landAll [] p.inbox p

/-- A frame delivered on a die: it stands in the inbox; the payload of a command packet goes to its slot (R209). -/
def putInbox (p : Pkg) (e : Fin 4) (ri : RouterIn) : Pkg :=
  let q := { p with inbox := p.inbox ++ [⟨e, ri.frame, ri.arrival, p.count, none⟩] }
  if isCommand ri.frame then landWaiting q else q

/-- A frame delivered on this package (R298 step 2), with the hub test and the arrival check of R67 for C1 frames. -/
def deliver (p : Pkg) (d : Fin 4) (ri : RouterIn) : Pkg :=
  let f := ri.frame
  let e := deliveryDie p f
  if f.cls = 1 then
    match (if e = d then none else hubTest p d f) with
    | some st => lateReport p f st 0 false d
    | none =>
      if p.bell.toNat > f.due.toNat then lateReport p f Status.lateArrived 0 true e
      else putInbox p e ri
  else putInbox p e ri

/-- The lookup of R298 for a frame that a die's router holds: fence check, then the steps in order. -/
def routeOne (p : Pkg) (d : Fin 4) (ri : RouterIn) : Pkg :=
  let f := ri.frame
  let q := bump p (.drt d) 0x180 1
  let arrived := ri.arrival.isSome
  if arrived && fenced q f.src && !(passHolds q f.src f && f.dst == ownChip q) then refuseFrame q d ri Status.refusedFenced
  else if !arrived && passHolds q f.dst f then
    match portTo q f.dst with
    | some n => queueAtPort q d n f
    | none => q
  else if !arrived && (fenced q f.dst || candidateBars q f) then refuseFrame q d ri Status.refusedFenced
  else if !chipAssigned q then refuseFrame q d ri Status.refusedSlice
  else if arrived && f.src != ownChip q && !inSlice q d f.src then refuseFrame q d ri Status.refusedSlice
  else if f.dst = ownChip q then deliver q d ri
  else if !inSlice q d f.dst then refuseFrame q d ri Status.refusedSlice
  else
    let e := rtEntry q d f.dst
    let c := choosePort q e f.cls
    if some c.1 = ri.arrival then refuseFrame q d ri Status.refusedRoute
    else
      let q := if c.2.1 then bump q (.drt d) 0x1A0 1 else q
      let q := if c.2.2 then markFailover q d ((portCode (bits e 5 0)).getD 0) else q
      let q := if arrived then bump q (.drt d) 0x1A8 1 else q
      queueAtPort q d c.1 f

/-- Whether every stored value that a lookup uses passes its complement check (R42): the chip number, the slice and the
entries of the frame's chips. -/
def lookupOk (p : Pkg) (d : Fin 4) (f : Frame) : Bool :=
  pairOk p (.drt 0) 0x090 && pairOk p (.drt d) 0x098 && entryOk p (.drt d) 0 f.dst.toNat && entryOk p (.drt d) 0 f.src.toNat

/-- The ports of a die. -/
def portsOf (d : Fin 4) : List (Fin 32) := (List.finRange 8).map (fun k => portOf d k)

/-- The ports that a routing entry names (R295). -/
def entryPorts (e : Word) : List (Fin 32) := [bits e 5 0, bits e 11 6, bits e 17 12].filterMap portCode

/-- The router page whose stored PORT_EN fails its complement check, where the lookup of a frame asks it whether a port is usable (R42,
R299). -/
def portEnBad (p : Pkg) (d : Fin 4) (f : Frame) : Option (Fin 4) :=
  if f.dst = ownChip p then none
  else ((entryPorts (rtEntry p d f.dst)).map dieOfPort).find? (fun e => !pairOk p (.drt e) 0x0A0)

/-- The frames of a port that waited for its die's router, accepted by it in order (R310): a link-local one goes to the package itself. -/
def acceptWaiting (p : Pkg) (n : Fin 32) : Pkg :=
  let d := dieOfPort n
  let x := portOfPkg p n
  let q := if x.rxWait.isEmpty then p else setPort p n { x with rxWait := [] }
  x.rxWait.foldl (fun q f =>
    if f.kind = 3 ∧ ctlLocal f.off then
      freeUnits { q with inbox := q.inbox ++ [⟨d, f, some n, q.count, none⟩] } ⟨f, some n⟩
    else tallyIn (setRouter q d { router q d with inq := (router q d).inq ++ [⟨f, some n⟩] }) (.drt d) 1) q

/-- FRAME_ROUTE: the die's router takes the frame at the front of its input (R298); its units are freed, but for payload of a command
packet that is held for a landing slot (R209, R287). A value that fails its complement
check is not used: the router that holds it enters FAULT and the frame stays (R42). With no frame in its input a router that is back in
service accepts those that waited at its ports (R310). -/
def frameRoute (p : Pkg) (d : Fin 4) : Pkg :=
  match (router p d).inq with
  | [] => if carries p (.drt d) then (portsOf d).foldl acceptWaiting p else p
  | ri :: rest =>
    if !lookupOk p d ri.frame then cmpFail p (.drt d)
    else match portEnBad p d ri.frame with
    | some e => cmpFail p (.drt e)
    | none =>
      let q := setRouter p d { router p d with inq := rest }
      let r := routeOne q d ri
      tallyOut (if waitsForSlot ri.frame && decide (q.inbox.length < r.inbox.length) then r else freeUnits r ri) (.drt d) 1

def execFrameRoute (die : Fin 4) (s : State) : Host.Outcome State Fault Refusal := act s (fun p => frameRoute p die)

/-- CHIP_COMMIT (R293): taken only while all four DRT pages are DISABLED. -/
def chipCommit (p : Pkg) (v : Word) : Pkg :=
  if (List.finRange 4).all (fun d => stateOf p (.drt d) == .disabled) then
    let q := storePair p (.drt 0) 0x090 (v &&& 0x0001FFFF#32)
    if v &&& 0xFFFE0000#32 = 0 then q else raise q (.drt 0) evRsvdWrite
  else raise p (.drt 0) 26

def execChipCommit (value : Word) (s : State) : Host.Outcome State Fault Refusal := act s (fun p => ifOn p (.drt 0) (fun p => chipCommit p value))

/-- SLICE_COMMIT (R296): the slice changes for every lookup that starts after it. -/
def sliceCommit (p : Pkg) (d : Fin 4) (v : Word) : Pkg :=
  let q := storePair p (.drt d) 0x098 (v &&& 0x3F#32)
  if v &&& 0xFFFFFFC0#32 = 0 then q else raise q (.drt d) evRsvdWrite

def execSliceCommit (die : Fin 4) (tag : BitVec 6) (s : State) : Host.Outcome State Fault Refusal :=
  act s (fun p => ifOn p (.drt die) (fun p => sliceCommit p die (tag.setWidth 32)))

/-- A port no longer counts as having stayed usable (R303). -/
def forgetUsable (p : Pkg) (n : Fin 32) : Pkg := setPort p n { portOfPkg p n with usableFrom := none }

/-- PORT_EN_COMMIT (R306, R311). -/
def portEnCommit (p : Pkg) (d : Fin 4) (v : Word) : Pkg :=
  let q := storePair p (.drt d) 0x0A0 (v &&& 0xFF#32)
  let q := (portsOf d).foldl (fun q n => if bit v (portIdx n) then q else forgetUsable q n) q
  if v &&& 0xFFFFFF00#32 = 0 then q else raise q (.drt d) evRsvdWrite

def execPortEnCommit (die : Fin 4) (mask : BitVec 8) (s : State) : Host.Outcome State Fault Refusal :=
  act s (fun p => ifOn p (.drt die) (fun p => portEnCommit p die (mask.setWidth 32)))

/-- Hardware clears a port's PORT_EN bit and its complement (R306, R328). -/
def clearPortEn (p : Pkg) (n : Fin 32) : Pkg :=
  let g := Page.drt (dieOfPort n)
  forgetUsable (storePair p g 0x0A0 (withBit (getReg p g 0x0A0) (portIdx n) false)) n

/-- Whether a port code of a routing entry is reserved (R295). -/
def codeReserved (c : Nat) : Bool := 0x20 ≤ c && c ≤ 0x3E

/-- A table address register with its index advanced by one within its width when inc is set. -/
def advance (p : Pkg) (g : Page) (off w : Nat) : Pkg :=
  let a := getReg p g off
  if bit a 31 then setReg p g off (withBits a (w - 1) 0 (bits a (w - 1) 0 + 1)) else p

/-- RT_DATA_COMMIT (R295, R297): a write of RT_DATA_C that is the complement of RT_DATA commits the entry at RT_ADDR. -/
def rtDataCommit (p : Pkg) (d : Fin 4) (c : Word) : Pkg :=
  let g := Page.drt d
  let v := getReg p g 0x144
  let idx := bits (getReg p g 0x140) 15 0
  if c ≠ ~~~v then raise p g evPairErr
  else if (bit v 31 && bits v 5 0 == 0x3F) || codeReserved (bits v 5 0) || codeReserved (bits v 11 6)
      || codeReserved (bits v 17 12) then raise p g 25
  else
    let old := entryVal p g 0 idx
    let q := setEntry p g 0 idx (v &&& 0x80FFFFFF#32)
    let q := if v &&& 0x7F000000#32 = 0 then q else raise q g evRsvdWrite
    let q := match portCode (bits old 5 0) with
      | some n => setPort q n { portOfPkg q n with moved := false }
      | none => q
    advance q g 0x140 16

def execRtDataCommit (die : Fin 4) (value : Word) (s : State) : Host.Outcome State Fault Refusal :=
  act s (fun p => ifOn p (.drt die) (fun p => rtDataCommit p die value))

/-- DRT_CFG.revert_hold in rounds; 0 means 32 (R311). -/
def revertHold (p : Pkg) (d : Fin 4) : Nat :=
  let h := bits (getReg p (.drt d) 0x088) 31 24
  if h = 0 then 32 else h

/-- ROUTE_REVERT (R303): at slot 0, with revert = 1, a primary that has stayed usable through revert_hold whole rounds is
chosen again. -/
def routeRevert (p : Pkg) (n : Fin 32) : Pkg :=
  let x := portOfPkg p n
  let d := dieOfPort n
  match x.usableFrom with
  | some r =>
    if !pairOk p (.drt d) 0x088 then cmpFail p (.drt d)
    else if x.moved && bit (getReg p (.drt d) 0x088) 0 && usable p n 0 && decide (r + revertHold p d ≤ roundNow p)
        && slotOf p.bell == 0 then
      raise (setPort p n { x with moved := false }) (.drt d) 23
    else p
  | none => p

def execRouteRevert (port : Fin 32) (s : State) : Host.Outcome State Fault Refusal := act s (fun p => routeRevert p port)

/-- DRT_CFG.credit_hold in ticks; 0 means 100 µs (R311). -/
def creditHold (p : Pkg) (d : Fin 4) : Nat :=
  let h := bits (getReg p (.drt d) 0x088) 23 16
  (if h = 0 then 10 else h) * 10000

/-- Whether a queued C2 or C3 frame has waited for credits through the limit (R304). -/
def heldTooLong (p : Pkg) (n : Fin 32) (q : Queued) : Bool :=
  (q.frame.cls == 2 || q.frame.cls == 3) &&
  (match q.since with | some t => decide (t + creditHold p (dieOfPort n) ≤ p.count) | none => false)

/-- A list without its first element that satisfies a test. -/
def dropFirst {α : Type} (t : α → Bool) : List α → List α
  | [] => []
  | x :: r => if t x then r else x :: dropFirst t r

/-- CREDIT_HOLD_DROP (R304): the first frame that has waited too long for credits is discarded. -/
def creditHoldDrop (p : Pkg) (n : Fin 32) : Pkg :=
  let x := portOfPkg p n
  if !x.queue.isEmpty ∧ !pairOk p (.drt (dieOfPort n)) 0x088 then cmpFail p (.drt (dieOfPort n)) else
  match x.queue.find? (heldTooLong p n) with
  | some _ =>
    let q := setPort p n { x with queue := dropFirst (heldTooLong p n) x.queue }
    let g := Page.drt (dieOfPort n)
    raise (bump (tallyOut q (.prk n) 1) g 0x1B0 1) g 27
  | none => p

def execCreditHoldDrop (port : Fin 32) (s : State) : Host.Outcome State Fault Refusal :=
  act s (fun p => creditHoldDrop p port)

/-- The identity frame of a port (R305). -/
def identityFrame (p : Pkg) (n : Fin 32) : Frame :=
  { controlFrame p 1 0 0 (identityPayload (ownChip p) n.val (chipAssigned p) (getReg p .fuse 0x080)
      (getReg p (.drt (dieOfPort n)) 0x0B0) (bits (getReg p (.drt (dieOfPort n)) 0x098) 5 0) p.bell) with dst := 0 }

/-- IDENTITY_FRAME_SEND (R305): due at every entry to UP and every 1,024 rounds; link-local, out of the port itself. -/
def identitySend (p : Pkg) (n : Fin 32) : Pkg :=
  let x := portOfPkg p n
  let due := match x.identityAt with
    | none => true
    | some r => decide (r + 1024 ≤ roundNow p)
  let d := dieOfPort n
  if x.lstate == .up && carries p (.prk n) && due then
    if !pairOk p (.drt 0) 0x090 then cmpFail p (.drt 0) else
    usePairs p (.drt d) [0x098, 0x0B0] (fun p => pushPort (setPort p n { x with identityAt := some (roundNow p) }) n (identityFrame p n))
  else p

def execIdentityFrameSend (port : Fin 32) (s : State) : Host.Outcome State Fault Refusal := act s (fun p => identitySend p port)

/-- The first delivered frame that satisfies a test, and the package without it. -/
def takeInbox (p : Pkg) (t : Delivered → Bool) : Option (Delivered × Pkg) :=
  match p.inbox.find? t with
  | some x => some (x, { p with inbox := dropFirst t p.inbox })
  | none => none

/-- Whether a delivered item of a job flow is past its due time (R67, R68). -/
def pastDue (p : Pkg) (f : Frame) : Bool := f.cls == 1 && isJobFlow f.flow && decide (f.due.toNat < p.bell.toNat)

/-- The bytes that a request frame touches at its target (R314, R315). -/
def accessLen (f : Frame) : Nat := if f.kind = 5 then leField f.payload 0 2 else if f.kind = 4 then f.payload.length else if f.kind = 6 then 8 else 0

/-- The next delivered frame that satisfies a test handed to its server, unless its row is being copied, which holds it (R226): an item of a job flow reaches no target after its due
time, and ends late.arrived here (R67, R68, R71). -/
def serveNext (p : Pkg) (t : Delivered → Bool) (serve : Pkg → Delivered → Pkg) : Pkg :=
  match takeInbox p t with
  | none => p
  | some (x, q) =>
    if pastDue q x.frame then lateReport q x.frame Status.lateArrived 0 true x.die
    else if dramHeld q x.frame.off (accessLen x.frame) then p
    else serve q x

/-- A link-local frame of a control type that arrived on a port. -/
def localFrom (n : Fin 32) (ctl : Nat) (x : Delivered) : Bool :=
  x.arrival == some n && x.frame.kind == 3 && x.frame.off == ctl

/-- IDENTITY_FRAME_RECEIVE (R305): recorded in PEER_JOB and PEER_INFO of the arrival port; peer_job when the job tag
differs. A frame whose complement fails is dropped. -/
def identityReceive (p : Pkg) (n : Fin 32) : Pkg :=
  match takeInbox p (localFrom n 1) with
  | none => p
  | some (x, q) =>
    let b := x.frame.payload
    if complOk 32 b then
      let g := Page.drt (dieOfPort n)
      let job : Word := BitVec.ofNat 32 (leField b 8 4)
      let q := setReg q g (0x200 + 8 * portIdx n) job
      let q := setReg q g (0x204 + 8 * portIdx n) (BitVec.ofNat 32 (0x80000000 + leField b 12 1 % 64))
      usePairs q g [0x0B0] (fun q => if job ≠ getReg q g 0x0B0 then raise q g 28 else q)
    else q

def execIdentityFrameReceive (port : Fin 32) (s : State) : Host.Outcome State Fault Refusal :=
  act s (fun p => identityReceive p port)

end Sys2Proof.Machine
end

