-- ==== Sys2Proof/Machine/Link.lean ====
section
/-! DEFINITION. The Sitre link layer (R273–R292): training, link words, retry, credits, lanes out and back. -/
namespace Sys2Proof.Machine
open Sys2Proof

/-- Receive buffer units of C0–C3 (R287). -/
def bufferUnits : List Nat := [256, 22528, 6144, 3840]
/-- Bytes of a frame on the wire (R282). -/
def wireSize (f : Frame) : Nat := 48 + f.payload.length + padLen f.payload.length
/-- A per-class list with one class's number changed. -/
def addAt (l : List Nat) (c n : Nat) : List Nat := setNth l c (nth l c 0 + n)
def subAt (l : List Nat) (c n : Nat) : List Nat := setNth l c (nth l c 0 - n)

/-- Lanes this end accepts from the peer (R289). -/
def Port.rxMap (x : Port) : Half := x.rxRing &&& ~~~x.fecOut
/-- Units of a class in the receive buffer (R288). -/
def Port.occupancy (x : Port) (c : Nat) : Nat := ((x.rxbuf.filter (fun f => f.cls == c)).map unitsOf).sum
/-- Free receive units, as training advertises them (R288). -/
def Port.freeUnits (x : Port) : List Nat := (List.range 4).map (fun c => nth bufferUnits c 0 - x.occupancy c)

/-- The versions this end advertises (R280). -/
def ownVersions (p : Pkg) (n : Fin 32) : Nat := 2 + bits (getReg p (.lnk n) 0x088) 1 1
/-- The highest version of both ends; 0 with none in common (R280). -/
def commonVersion (own peer : Nat) : Nat := if own.testBit 1 && peer.testBit 1 then 2 else if own.testBit 0 && peer.testBit 0 then 1 else 0

/-! ## Line time (R274–R276) -/

/-- Frame bytes a slot carries in a direction, by lanes in service (R276). -/
def slotBytes (lanes : Nat) : Nat := if lanes ≥ 16 then 2412 else if lanes = 15 then 2261 else 151 * lanes - 4
/-- Frame bytes per slot on a port's transmit lanes. -/
def Port.slotBytes (x : Port) : Nat := Sys2Proof.Machine.slotBytes (popcount 16 x.txMap.toNat)
/-- Ticks that frame bytes take on a port's line: a slot is 8 ticks (R49, R276). -/
def Port.lineTicks (x : Port) (n : Nat) : Nat := (8 * n + x.slotBytes - 1) / x.slotBytes
/-- A port's line taken for frame bytes from now on, or from the end of the frame that is still on it (R61, R276). -/
def takeLine (p : Pkg) (n : Fin 32) (bytes : Nat) : Pkg :=
  let x := portOfPkg p n
  setPort p n { x with busyUntil := max p.count x.busyUntil + x.lineTicks bytes }

/-- The start field of a marker sent now (R274): the blocks of 16 bytes until the frame now on the line ends, where the next header
or idle block stands; 0x3FFF when it spans the whole period. -/
def Port.markStart (x : Port) (now : Nat) : Nat :=
  if now + 544 ≤ x.busyUntil then 0x3FFF else ((x.busyUntil - now) * x.slotBytes + 127) / 128

/-- The 64-bit marker of a lane (R274). -/
def markerWord (lane : Nat) (txMap : Half) (start : Nat) (restart : Bool) (count : Nat) : DWord :=
  BitVec.ofNat 64 (0x4B + lane * 2 ^ 8 + (15 - lane) * 2 ^ 12 + txMap.toNat * 2 ^ 16 + start % 2 ^ 14 * 2 ^ 32
    + (if restart then 2 ^ 46 else 0) + count % 256 * 2 ^ 48)

/-- The markers of one instant, on every lane whose transmit ring is LOCKED (R274). -/
def sendMarkers (p : Pkg) (n : Fin 32) (restart : Bool) : Pkg :=
  let x := portOfPkg p n
  let q := ((List.range 16).filter (fun l => bit x.txRing l)).foldl (fun q l =>
    emit q (.marker n l (markerWord l x.txMap (x.markStart p.count) restart x.markCount))) p
  setPort q n { portOfPkg q n with markAt := p.count + 544, markCount := (x.markCount + 1) % 256 }

/-- The link enters RETRAIN from UP (R278): the retry buffer is kept, and ALIGN runs again before the training frames. -/
def enterRetrain (p : Pkg) (n : Fin 32) : Pkg :=
  let x := portOfPkg p n
  if x.lstate = .up then
    let q := setPort p n { x with lstate := .retrain, retrainAt := some p.count, stateAt := p.count, sentStep := 0, gotStep := 0
                                  retrainReq := true, aligning := true }
    raise (bump (forgetBell q n) (.lnk n) 0x160 1) (.lnk n) 18
  else p

/-- ALIGN_COMPLETE (R278): codeword and marker lock on at least 15 lanes each way, within 50 µs when ALIGN is the link's state; the
ALIGN that RETRAIN runs again is bounded by retrain_limit with the whole of it (R499). -/
def alignComplete (p : Pkg) (n : Fin 32) : Pkg :=
  let x := portOfPkg p n
  let y := { x with sentStep := 0, gotStep := 0, txMap := x.txRing, trainAt := p.count }
  if 15 ≤ popcount 16 x.rxRing.toNat ∧ 15 ≤ popcount 16 x.txRing.toNat then
    if x.lstate = .align ∧ p.count ≤ x.stateAt + 50000 then setPort p n { y with lstate := .negotiate, stateAt := p.count }
    else if x.lstate = .retrain ∧ x.aligning then setPort p n { y with aligning := false }
    else p
  else p

def execAlignComplete (port : Fin 32) (s : State) : Host.Outcome State Fault Refusal := act s (fun p => alignComplete p port)

/-- ALIGN_TIMEOUT (R278): no lock within 50 µs. -/
def alignTimeout (p : Pkg) (n : Fin 32) : Pkg :=
  let x := portOfPkg p n
  if x.lstate = .align ∧ x.stateAt + 50000 ≤ p.count then linkDown p n else p

def execAlignTimeout (port : Fin 32) (s : State) : Host.Outcome State Fault Refusal := act s (fun p => alignTimeout p port)

/-- NEGOTIATE_TIMEOUT (R499): 200 µs in NEGOTIATE with a common version; a port still LIT starts ALIGN again. -/
def negotiateTimeout (p : Pkg) (n : Fin 32) : Pkg :=
  let x := portOfPkg p n
  if x.lstate = .negotiate ∧ x.stateAt + 200000 ≤ p.count ∧ x.noVersion = false then startAlign (linkDown p n) n else p

def execNegotiateTimeout (port : Fin 32) (s : State) : Host.Outcome State Fault Refusal :=
  act s (fun p => negotiateTimeout p port)

/-- LNK_CMD.retrain (R292): outside UP it is ignored and sets cmd_busy. -/
def lnkRetrain (p : Pkg) (n : Fin 32) : Pkg :=
  if (portOfPkg p n).lstate = .up then enterRetrain p n else raise p (.lnk n) 29

def execLnkRetrain (port : Fin 32) (s : State) : Host.Outcome State Fault Refusal := act s (fun p => ifOn p (.lnk port) (fun p => lnkRetrain p port))

/-- Whether the peer found now differs from the one in force at the last UP (R281). -/
def Port.peerChanged (x : Port) : Bool :=
  match x.lastPeer, x.peer with
  | some a, some b => a.chip != b.chip || a.port != b.port || a.part != b.part
  | _, _ => false

/-- The link enters UP (R278, R281, R288): the books restart, with what the receive buffers still hold and what is resent counted as
sent (log entry 51); a fresh UP starts its link sequences at 0; a RETRAIN with the same peer resends from what the peer expects; a
changed peer ends every held frame and takes the port from the router. -/
def linkUp (p : Pkg) (n : Fin 32) (version : Nat) (peerFree : List Nat) (peerNext : Nat) : Pkg :=
  let x0 := portOfPkg p n
  let changed := x0.peerChanged
  let fresh := x0.lstate != .retrain || changed
  let p := if changed then failPort p n else p
  let x := portOfPkg p n
  let kept := x.retry.filter (fun h => (h.lseq + 65536 - peerNext) % 65536 < 32768)
  let done := x.retry.length - kept.length
  let again (c : Nat) : Nat := if fresh then 0 else ((kept.filter (fun h => h.frame.cls == c)).map (fun h => unitsOf h.frame)).sum
  let held := (List.range 4).map (fun c => nth peerFree c 0 - again c)
  let sent := (List.range 4).map (fun c => nth bufferUnits c 0 - nth peerFree c 0 + again c)
  let x := if fresh then { x with txSeq := 0, rxSeq := 0 } else { x with retry := kept, restart := !kept.isEmpty }
  let p := if fresh then p else tallyOut p (.lnk n) done
  let p := setPort p n { x with
    lstate := .up, version := version, lastVersion := version, ackAt := p.count, discarding := false, retrainAt := none, retrainReq := false
    lastPeer := x.peer, identityAt := none, fenceDue := true, tooLong := false, stateAt := p.count
    credits := ⟨held, sent, [0, 0, 0, 0], (List.range 4).map x.occupancy, [0, 0, 0, 0]⟩ }
  let g := Page.drt (dieOfPort n)
  let p := setReg p g (0x204 + 8 * portIdx n) (getReg p g (0x204 + 8 * portIdx n) &&& 0x7FFFFFFF#32)
  let p := raise p (.lnk n) 16
  if changed then raise (clearPortEn (raise p (.lnk n) 26) n) g 24 else p

/-- The step that a port sends now (R499). -/
def Port.stepNow (x : Port) : Nat := if x.gotStep = 0 then 1 else if x.gotStep = 1 then 2 else 3

/-- Whether a port exchanges training frames: in NEGOTIATE, and in RETRAIN once its ALIGN is complete (R278). -/
def Port.training (x : Port) : Bool := x.lstate == .negotiate || (x.lstate == .retrain && !x.aligning)

/-- TRAINING_FRAME_SEND (R279, R499): in NEGOTIATE and RETRAIN, every 1 µs. -/
def trainingSend (p : Pkg) (n : Fin 32) (peerFree : List Nat) (peerNext : Nat) : Pkg :=
  let x := portOfPkg p n
  if x.training ∧ x.trainAt ≤ p.count then if !pairOk p (.drt 0) 0x090 then cmpFail p (.drt 0) else usePairs p (.lnk n) [0x088] (fun p =>
    let st := x.stepNow
    let pl := trainingPayload (ownVersions p n) (if x.gotStep = 0 then 0 else x.version) st n.val (chipAssigned p) (ownChip p)
      x.rxMap (getReg p .fuse 0x080) x.freeUnits x.rxSeq
    let f : Frame := { kind := 2, cls := 0, flag := false, last := false, dst := 0, src := ownChip p, flow := 0, due := 0
                       off := 0, inj := 0, seq := 0, payload := pl, poison := 0 }
    let q := emit (setPort p n { x with sentStep := st, trainAt := p.count + 1000 }) (.frame n (frameBytes 2 0 f))
    if st = 3 ∧ x.gotStep = 3 then linkUp q n x.version peerFree peerNext else q)
  else p

/-- What the last training frame of a port's peer gave: its free units and the next sequence it expects (R279). -/
def Port.trained (x : Port) : List Nat × Nat := (x.credits.held, x.credits.returned.headD 0)

def execTrainingFrameSend (port : Fin 32) (s : State) : Host.Outcome State Fault Refusal :=
  act s (fun p => trainingSend p port (portOfPkg p port).trained.1 (portOfPkg p port).trained.2)

/-- TRAINING_FRAME_RECEIVE (R279–R281, R499): a frame whose complement fails is counted and discarded; with no common
version the link stays in NEGOTIATE and sets no_version once; otherwise the handshake advances, and UP follows once step
0x3 is both sent and received. -/
def trainingReceive (p : Pkg) (n : Fin 32) (b : List Byte) : Pkg :=
  let x := portOfPkg p n
  if !x.training then p
  else if !complOk 32 b then raise (bump p (.lnk n) 0x128 1) (.lnk n) evCmpFail
  else if !pairOk p (.lnk n) 0x088 then cmpFail p (.lnk n)
  else
    let v := commonVersion (ownVersions p n) (leField b 0 1)
    if v = 0 then
      (if x.noVersion then p else raise (setPort p n { x with noVersion := true }) (.lnk n) 25)
    else
      let step := leField b 2 1 % 4
      let free := (List.range 4).map (fun c => leField b (12 + 2 * c) 2)
      let next := leField b 20 2
      let peer : PeerId := ⟨BitVec.ofNat 16 (leField b 4 2), leField b 3 1 % 32, (leField b 3 1).testBit 5, BitVec.ofNat 32 (leField b 8 4)⟩
      let x := { x with
        noVersion := false, version := v, peer := some peer, peerRx := BitVec.ofNat 16 (leField b 6 2)
        gotStep := max x.gotStep step
        credits := { x.credits with held := free, returned := [next, 0, 0, 0] } }
      let q := setPort p n x
      if x.gotStep = 3 ∧ x.sentStep = 3 then linkUp q n v free next else q

def execTrainingFrameReceive (port : Fin 32) (payload : List Byte) (s : State) : Host.Outcome State Fault Refusal :=
  act s (fun p => trainingReceive p port payload)

/-- LINK_WORD_SEND (R275): ack, nak, retrain request, rx_map and freed units, after every 64 ns of line time. -/
def linkWordSend (p : Pkg) (n : Fin 32) : Pkg :=
  let x := portOfPkg p n
  if x.lstate = .down ∨ p.count < x.wordAt then p
  else
    let p := setPort p n { x with wordAt := p.count + 64 }
    let q := if x.discarding then bump p (.lnk n) 0x130 1 else p
    emit q (.linkWord n (linkWordBytes x.rxSeq x.discarding x.retrainReq x.rxMap x.credits.freed))

def execLinkWordSend (port : Fin 32) (s : State) : Host.Outcome State Fault Refusal := act s (fun p => linkWordSend p port)

/-- A held frame that an ack covers (R285): its sequence lies before ack. -/
def acked (ack : Nat) (h : Held) : Bool := (ack + 65536 - h.lseq) % 65536 != 0 && (ack + 65536 - h.lseq) % 65536 ≤ 32768

/-- LINK_WORD_RECEIVE (R275, R285, R287, R289): a word that fails its complement is ignored; ack releases held frames, nak
asks for a restart, freed units come back, rx_map is taken, and a retrain request enters RETRAIN. -/
def linkWordReceive (p : Pkg) (n : Fin 32) (b : List Byte) : Pkg :=
  let x := portOfPkg p n
  if x.lstate = .down ∨ !complOk 16 b then p
  else
    let up := x.lstate == .up
    let ack := leField b 0 2
    let kept := if up then x.retry.filter (fun h => !acked ack h) else x.retry
    let done := x.retry.length - kept.length
    let back := (List.range 4).map (fun c => (leField b (8 + 2 * c) 2 + 65536 - nth x.credits.returned c 0 % 65536) % 65536)
    let cr := if up then
        { x.credits with
          held := (List.range 4).map (fun c => nth x.credits.held c 0 + nth back c 0)
          returned := (List.range 4).map (fun c => nth x.credits.returned c 0 + nth back c 0) }
      else x.credits
    let q := setPort p n { x with
      retry := kept, credits := cr, peerRx := BitVec.ofNat 16 (leField b 4 2)
      ackAt := if done > 0 then p.count else x.ackAt
      restart := x.restart || (up && (leField b 2 1).testBit 0 && !kept.isEmpty) }
    let q := tallyOut q (.lnk n) done
    if up && (leField b 2 1).testBit 1 then enterRetrain q n else q

def execLinkWordReceive (port : Fin 32) (bytes : List Byte) (s : State) : Host.Outcome State Fault Refusal :=
  act s (fun p => linkWordReceive p port bytes)

/-- LNK_CFG.stall_limit and retrain_limit in ticks (R292). -/
def stallLimit (p : Pkg) (n : Fin 32) : Nat :=
  let v := bits (getReg p (.lnk n) 0x088) 31 24
  (if v = 0 then 50 else v) * 1000
def retrainLimit (p : Pkg) (n : Fin 32) : Nat :=
  let v := bits (getReg p (.lnk n) 0x088) 23 16
  (if v = 0 then 40 else v) * 100000

/-- ACK_STALL (R286): ack has not advanced for stall_limit while frames are outstanding. -/
def ackStall (p : Pkg) (n : Fin 32) : Pkg :=
  let x := portOfPkg p n
  usePairs p (.lnk n) [0x088] (fun p =>
    if x.lstate = .up ∧ !x.retry.isEmpty ∧ x.ackAt + stallLimit p n ≤ p.count then enterRetrain (raise p (.lnk n) 23) n else p)

def execAckStall (port : Fin 32) (s : State) : Host.Outcome State Fault Refusal := act s (fun p => ackStall p port)

/-- RETRAIN_LIMIT_EXPIRY (R286): not UP within retrain_limit. -/
def retrainExpiry (p : Pkg) (n : Fin 32) : Pkg :=
  match (portOfPkg p n).retrainAt with
  | some t => usePairs p (.lnk n) [0x088] (fun p => if (portOfPkg p n).lstate = .retrain ∧ t + retrainLimit p n ≤ p.count then linkDown p n else p)
  | none => p

def execRetrainLimitExpiry (port : Fin 32) (s : State) : Host.Outcome State Fault Refusal := act s (fun p => retrainExpiry p port)

/-- A failed audit (R288). -/
def creditFault (p : Pkg) (n : Fin 32) : Pkg := enterRetrain (raise (bump p (.lnk n) 0x158 1) (.lnk n) 22) n

/-- The receiver's audit of R288: units received = sent, returned ≤ freed, and received less freed is the occupancy held. -/
def auditOk (x : Port) (b : List Byte) : Bool :=
  (List.range 4).all (fun c =>
    nth x.credits.got c 0 % 2 ^ 32 == leField b (8 * c) 4
      && decide (leField b (8 * c + 4) 4 ≤ nth x.credits.freed c 0)
      && nth x.credits.got c 0 == nth x.credits.freed c 0 + x.occupancy c)

/-- AUDIT_FRAME_RECEIVE (R284, R288): on a Sitre 2 link that is UP; a frame that fails its complement is counted and leaves
the round unaudited. -/
def auditReceive (p : Pkg) (n : Fin 32) (b : List Byte) : Pkg :=
  let x := portOfPkg p n
  if x.lstate ≠ .up ∨ x.version ≠ 2 then p
  else if !complOk 32 b then raise (bump p (.lnk n) 0x128 1) (.lnk n) evCmpFail
  else if auditOk x b then p
  else creditFault p n

def execAuditFrameReceive (port : Fin 32) (payload : List Byte) (s : State) : Host.Outcome State Fault Refusal :=
  act s (fun p => auditReceive p port payload)

/-- The sender's audit of R288 and its audit frame, in slot 0 of a Sitre 2 link with audit_en = 1. -/
def auditSend (p : Pkg) (n : Fin 32) : Pkg :=
  let x := portOfPkg p n
  if !pairOk p (.lnk n) 0x088 then cmpFail p (.lnk n)
  else if x.lstate = .up ∧ x.version = 2 ∧ bit (getReg p (.lnk n) 0x088) 0 then
    let ok := (List.range 4).all (fun c =>
      nth x.credits.held c 0 + nth x.credits.sent c 0 == nth bufferUnits c 0 + nth x.credits.returned c 0)
    let f : Frame := { kind := 1, cls := 0, flag := false, last := false, dst := 0, src := ownChip p, flow := 0, due := 0
                       off := 0, inj := 0, seq := 0, payload := auditPayload x.credits.sent x.credits.returned, poison := 0 }
    if ok then takeLine (emit p (.frame n (frameBytes 2 0 f))) n (wireSize f) else creditFault p n
  else p

/-- A port's reservations are revoked (R73): queued C1 items end failed.link. -/
def revokePort (p : Pkg) (n : Fin 32) : Pkg :=
  let x := portOfPkg p n
  let c1 := (x.queue.map Queued.frame).filter (fun f => f.cls == 1)
  let q := setPort p n { x with revoked := true, queue := x.queue.filter (fun q => q.frame.cls != 1) }
  let q := c1.foldl (fun q f => frameEndsAtPort q n f Status.failedLink) (tallyOut q (.prk n) c1.length)
  if x.revoked then q else raise q (.prk n) 18

/-- The lowest lane in which two maps differ. -/
def firstDiff (a b : Half) : Option Nat := (List.range 16).find? (fun i => bit a i != bit b i)

/-- At a marker the transmitter takes one lane out of tx_map or back (R289, R290): only lanes whose own ring
is LOCKED and verified and which the peer accepts stay in. The second lane out revokes; fewer than 8 lanes retrain. -/
def mapChange (p : Pkg) (n : Fin 32) : Pkg :=
  let x := portOfPkg p n
  if x.lstate = .up then
    let want := x.txRing &&& x.peerRx
    match firstDiff x.txMap want with
    | none => p
    | some i =>
      let m := withBit x.txMap i (bit want i)
      let q := setPort p n { x with txMap := m }
      let lanes := popcount 16 m.toNat
      if bit want i then raise q (.lnk n) 20
      else
        let q := raise (bump q (.lnk n) 0x168 1) (.lnk n) 19
        let q := if lanes = 14 then revokePort (raise q (.lnk n) 21) n else if lanes < 14 then revokePort q n else q
        if lanes < 8 then enterRetrain q n else q
  else p

/-- Every held frame is sent again, in order (R285). -/
def resendHeld (p : Pkg) (n : Fin 32) : Pkg :=
  let x := portOfPkg p n
  let q := takeLine (setPort p n { x with restart := false }) n ((x.retry.map (fun h => wireSize h.frame)).sum)
  let q := bump (bump q (.lnk n) 0x138 1) (.lnk n) 0x140 x.retry.length
  x.retry.foldl (fun q h => emit q (.frame n (frameBytes x.version h.lseq h.frame))) q

/-- The marker instant of a port, every 544 ns (R274): the change of tx_map and the restart that are due take effect here, the markers
carry them, and a restart resends what is held (R285, R289). -/
def markerInstant (p : Pkg) (n : Fin 32) : Pkg :=
  let x := portOfPkg p n
  if x.lstate ≠ .down ∧ x.markAt ≤ p.count then
    let q := mapChange p n
    let again := (portOfPkg q n).lstate == .up && (portOfPkg q n).restart
    let q := sendMarkers q n again
    if again then resendHeld q n else q
  else p

/-- TX_MAP_UPDATE (R274, R289, R290): the next marker instant of a port. -/
def txMapUpdate (p : Pkg) (n : Fin 32) : Pkg := markerInstant p n

/-- RETRY_RESTART (R285): at the next marker after a nak every held frame is sent again, in order. -/
def retryRestart (p : Pkg) (n : Fin 32) : Pkg :=
  if (portOfPkg p n).lstate = .up ∧ (portOfPkg p n).restart then markerInstant p n else p

def execRetryRestart (port : Fin 32) (s : State) : Host.Outcome State Fault Refusal := act s (fun p => retryRestart p port)

def execTxMapUpdate (port : Fin 32) (s : State) : Host.Outcome State Fault Refusal := act s (fun p => txMapUpdate p port)

/-! ## Transmission (R61, R287) -/

/-- Who owns a slot of the active pricking: none for an open slot (R60). -/
def slotOwner (p : Pkg) (n : Fin 32) (slot : Nat) : Option Nat :=
  let e := entryVal p (.prk n) (activeCopy p n) (slot % 4096)
  if bit e 15 then some (bits e 11 0) else none

/-- Whether the entries of the slots that a frame starting now could take pass their complement checks (R42, R60). -/
def slotsSound (p : Pkg) (n : Fin 32) : Bool :=
  [0, 1, 2].all (fun k => entryOk p (.prk n) (activeCopy p n) ((slotOf p.bell + k) % 4096))

/-- Whether a queued frame is sent as unreserved traffic on a port: C2 and C3, and control frames where the active copy
holds no slot for them (R61, R62, R280). -/
def sendsUnreserved (p : Pkg) (n : Fin 32) (f : Frame) : Bool := f.cls ≥ 2 || (f.cls == 0 && !holdsSlot p n 1)

/-- Bytes that a frame starting now may take before a slot reserved to a different flow begins (R61): the rest of the slot
in progress, and the following slots as long as they are its own. -/
def roomFor (p : Pkg) (n : Fin 32) (f : Frame) (res : Bool) : Nat :=
  let x := portOfPkg p n
  let per := x.slotBytes
  let s := slotOf p.bell
  let own (k : Nat) : Bool :=
    match slotOwner p n k with
    | some fl => res && fl == f.flow
    | none => true
  let rest := per * (8 - p.bell.toNat % 8) / 8
  rest + (if own (s + 1) then per + (if own (s + 2) then per else 0) else 0)

/-- Whether a port's link has window, retry buffer and credits for a frame (R285, R287). -/
def roomInRetry (x : Port) (f : Frame) : Bool :=
  decide (x.retry.length < 32768) && decide ((x.retry.map (fun h => wireSize h.frame)).sum + wireSize f ≤ 1572864)
def hasUnits (x : Port) (f : Frame) : Bool := decide (unitsOf f ≤ nth x.credits.held f.cls 0)

/-- The frame leaves: the line for its length, retry buffer, credits, counts (R276, R285, R287, R291). -/
def sendFrame (p : Pkg) (n : Fin 32) (f : Frame) : Pkg :=
  let x := portOfPkg p n
  let q := setPort p n { x with
    retry := x.retry ++ [⟨x.txSeq, f⟩]
    txSeq := (x.txSeq + 1) % 65536
    ackAt := if x.retry.isEmpty then p.count else x.ackAt
    queue := dropFirst (fun q => q.frame == f) x.queue
    busyUntil := p.count + x.lineTicks (wireSize f)
    credits := { x.credits with held := subAt x.credits.held f.cls (unitsOf f), sent := addAt x.credits.sent f.cls (unitsOf f) } }
  let q := tallyOut (tallyIn q (.lnk n) 1) (.prk n) 1
  let q := bump (bump q (.lnk n) 0x100 1) (.lnk n) 0x110 (wireSize f)
  emit q (.frame n (frameBytes x.version x.txSeq f))

/-- A C1 frame that lacks units waits for its flow's next slot, and the router repeats the test of R67 with the new start;
CREDIT_WAIT counts the ticks (R287). -/
def creditRetest (p : Pkg) (n : Fin 32) (f : Frame) : Pkg :=
  let q := bump p (.lnk n) 0x150 (8 - p.bell.toNat % 8)
  let next := departTick p n f.flow 1
  if next + 8 * downBound p (dieOfPort n) f.flow > f.due.toNat then
    let x := portOfPkg q n
    frameEndsAtPort (tallyOut (setPort q n { x with queue := dropFirst (fun e => e.frame == f) x.queue }) (.prk n) 1) n f
      Status.lateMissed
  else q

/-- A queued frame marked as waiting for credits since now (R304). -/
def markWaiting (p : Pkg) (n : Fin 32) : Pkg :=
  let x := portOfPkg p n
  setPort p n { x with queue := x.queue.map (fun q =>
    if q.frame.cls ≥ 2 && !hasUnits x q.frame && q.since.isNone then { q with since := some p.count } else q) }

/-- FRAME_TRANSMIT (R61): at this instant of the slot in progress the port starts the frame the pricking allows: in a
reserved slot the first frame of the owning flow; with none queued, or in an open slot, the first unreserved frame that
has units and does not run into a slot reserved to a different flow. A frame starts only when the one before it has ended, and
none is cut short. A slot's entry that fails its complement check is not used (R42, R60). -/
def frameTransmit (p : Pkg) (n : Fin 32) : Pkg :=
  let x := portOfPkg p n
  if x.lstate ≠ .up ∨ x.restart ∨ p.count < x.busyUntil ∨ x.queue.isEmpty then p
  else if !slotsSound p n then cmpFail p (.prk n)
  else
    let owner := slotOwner p n (slotOf p.bell)
    let mine := match owner with
      | some fl => (x.queue.map Queued.frame).find? (fun f => f.flow == fl && !sendsUnreserved p n f)
      | none => none
    match mine with
    | some f =>
      if roomFor p n f true < wireSize f ∨ !roomInRetry x f then p
      else if hasUnits x f then sendFrame p n f
      else if f.cls = 1 then creditRetest p n f
      else p
    | none =>
      match (x.queue.map Queued.frame).find? (fun f =>
          sendsUnreserved p n f && hasUnits x f && roomInRetry x f && decide (wireSize f ≤ roomFor p n f false)) with
      | some f => sendFrame p n f
      | none => markWaiting p n

def execFrameTransmit (port : Fin 32) (s : State) : Host.Outcome State Fault Refusal := act s (fun p => frameTransmit p port)

end Sys2Proof.Machine
end

