-- ==== Sys2Proof/Machine/Window.lean ====
section
/-! DEFINITION. Windows of the stores (R145–R149): matching, admission, opening and closing. -/
namespace Sys2Proof.Machine
open Sys2Proof

/-- The offset of a window's register block in its page (R158, R159). -/
def winBlock (st : StoreId) (w : Nat) : Nat :=
  match st with
  | .core _ => 0x600 + 0x40 * w
  | .cluster _ _ => 0x400 + 0x40 * w
/-- A register of a window. -/
def winReg (p : Pkg) (st : StoreId) (w off : Nat) : Word := getReg p st.page (winBlock st w + off)

def winFirst (p : Pkg) (st : StoreId) (w : Nat) : Nat := bits (winReg p st w 0x00) 16 0 * 64
def winLines (p : Pkg) (st : StoreId) (w : Nat) : Nat := bits (winReg p st w 0x08) 17 0
def winExpiry (p : Pkg) (st : StoreId) (w : Nat) : Nat := (getReg64 p st.page (winBlock st w + 0x20)).toNat
def winTally (p : Pkg) (st : StoreId) (w : Nat) : Nat := (winReg p st w 0x30).toNat

/-- The cluster and core, or bobbin, of an injector field (R69, R146 condition 4). -/
def srcMaskAdmits (mask : Word) (inj : Nat) : Bool :=
  if injIsCore inj then
    bit mask (28 + (injDie inj).val) && bit mask (16 + injInst inj / 16) && bit mask (injInst inj % 16)
  else if injIsGateway inj then bit mask 27
  else bit mask (28 + (injDie inj).val) && bit mask (16 + injInst inj % 32 / 2) && bit mask 26

/-- Conditions 1 to 5 of R146 for an access of n bytes at a store offset. -/
def winMatches (p : Pkg) (st : StoreId) (w : Nat) (write : Bool) (src : Chip) (inj off n : Nat) : Bool :=
  let b := winReg p st w 0x08
  let chips := winReg p st w 0x10
  (winOf p st w).state == .opened
    && (winExpiry p st w == 0 || decide (p.bell.toNat < winExpiry p st w))
    && bit b (if write then 30 else 31)
    && decide (bits chips 15 0 ≤ src.toNat) && decide (src.toNat ≤ bits chips 31 16)
    && srcMaskAdmits (winReg p st w 0x18) inj
    && decide (winFirst p st w ≤ off) && decide (off + n ≤ winFirst p st w + winLines p st w * 64)

/-- Condition 6 of R146. -/
def winRoom (p : Pkg) (st : StoreId) (w : Nat) (write : Bool) (n : Nat) : Bool :=
  !write || winTally p st w == 0 || decide (n + (winOf p st w).recv ≤ winTally p st w)

/-- The first window, in ascending number, that admits the access (R146). -/
def winFind (p : Pkg) (st : StoreId) (write : Bool) (src : Chip) (inj off n : Nat) : Option Nat :=
  (List.range st.windows).find? (fun w => winMatches p st w write src inj off n && winRoom p st w write n)

/-- The events of a store page: win_refused, win_closed, win_busy, win_overflow (R158, R159). -/
def evWinRefused : StoreId → Nat
  | .core _ => 18
  | .cluster _ _ => 16
def evWinClosed : StoreId → Nat
  | .core _ => 19
  | .cluster _ _ => 17
def evWinBusy : StoreId → Nat
  | .core _ => 27
  | .cluster _ _ => 24
def evWinOverflow : StoreId → Nat
  | .core _ => 28
  | .cluster _ _ => 25
/-- WIN_REFUSED's offset. -/
def offWinRefused : StoreId → Nat
  | .core _ => 0x0B8
  | .cluster _ _ => 0x0C8

/-- No window admits: WIN_REFUSED and win_refused, and win_overflow if some window failed only condition 6 (R146). -/
def winRefuse (p : Pkg) (st : StoreId) (write : Bool) (src : Chip) (inj off n : Nat) : Pkg :=
  let q := raise (bump p st.page (offWinRefused st) 1) st.page (evWinRefused st)
  if (List.range st.windows).any (fun w => winMatches p st w write src inj off n) then raise q st.page (evWinOverflow st) else q

/-- Whether the stored configuration of every open window passes its complement checks (R42). -/
def winPairsOk (p : Pkg) (st : StoreId) : Bool :=
  (List.range st.windows).all (fun w =>
    (winOf p st w).state != .opened
      || ([0x00, 0x08, 0x10, 0x18, 0x30].all (fun o => pairOk p st.page (winBlock st w + o)) && pair64Ok p st.page (winBlock st w + 0x20)))

/-- Checks 6 and 7 of R32 for an access from another chip to a store (R146, R147, R152): an admitted write counts its length
in WIN_RECV, taken back when a bank sleeps; reaching the tally closes the window with done (R148). -/
def winAdmit (p : Pkg) (st : StoreId) (write : Bool) (src : Chip) (inj off n : Nat) : Pkg × Status :=
  if !winPairsOk p st then (cmpFail p st.page, Status.refusedOffline) else
  match winFind p st write src inj off n with
  | none => (winRefuse p st write src inj off n, Status.refusedWindow)
  | some w =>
    let p := clstAccess p st
    if rangeAsleep p st off n then (countAsleep p st, Status.refusedAsleep)
    else if write then
      let x := winOf p st w
      let q := setWin p st w { x with recv := x.recv + n }
      let q := if winTally p st w ≠ 0 ∧ x.recv + n = winTally p st w then closeWin q st w Status.done else q
      (q, Status.done)
    else (p, Status.done)

/-- Whether any register of a window holds a pending, uncommitted value (R145). -/
def winPending (p : Pkg) (st : StoreId) (w : Nat) : Bool :=
  p.rg.staged.any (fun kv => kv.1.page == st.page && decide (winBlock st w ≤ kv.1.off) && decide (kv.1.off < winBlock st w + 0x38)
    && decide (p.count < kv.2.at_ + 4096))

/-- The owner that an open command names (R145): a context of the store's core, or of an enabled core of the cluster. -/
def ownerOf (p : Pkg) (st : StoreId) (owner : Fin 4) (ownerCore : Nat) : Option CtxId :=
  match st with
  | .core c => some ⟨c, owner⟩
  | .cluster d c =>
    if h : ownerCore < 9 then
      if coreInService p ⟨d, c, ⟨ownerCore, h⟩⟩ then some ⟨⟨d, c, ⟨ownerCore, h⟩⟩, owner⟩ else none
    else none

/-- The open command (R145): from CLOSED, with no configuration value pending and a legal owner; otherwise it is ignored and
sets win_busy. WIN_RECV clears. -/
def winOpen (p : Pkg) (st : StoreId) (w : Nat) (owner : Fin 4) (ownerCore : Nat) : Pkg :=
  match ownerOf p st owner ownerCore with
  | some o =>
    if w < st.windows ∧ (winOf p st w).state = .closed ∧ !winPending p st w then
      setWin p st w { state := .opened, status := (winOf p st w).status, ended := (winOf p st w).ended, owner := some o, recv := 0 }
    else raise p st.page (evWinBusy st)
  | none => raise p st.page (evWinBusy st)

def execWinOpen (store : StoreId) (w : Fin 16) (owner : Fin 4) (ownerCore : BitVec 4) (s : State) :
    Host.Outcome State Fault Refusal := act s (fun p => ifOn p store.page (fun p => winOpen p store w.val owner ownerCore.toNat))

/-- The close command (R148): from OPEN; otherwise ignored with win_busy. -/
def winClose (p : Pkg) (st : StoreId) (w : Nat) : Pkg :=
  if (winOf p st w).state = .opened ∧ w < st.windows then closeWin p st w Status.doneClosed else raise p st.page (evWinBusy st)

def execWinClose (store : StoreId) (w : Fin 16) (s : State) : Host.Outcome State Fault Refusal :=
  act s (fun p => ifOn p store.page (fun p => winClose p store w.val))

/-- WINDOW_EXPIRY (R148): bell time has reached the expiry of an open window. -/
def windowExpiry (p : Pkg) (st : StoreId) (w : Nat) : Pkg :=
  if !winPairsOk p st then cmpFail p st.page
  else if (winOf p st w).state = .opened ∧ winExpiry p st w ≠ 0 ∧ winExpiry p st w ≤ p.bell.toNat then
    closeWin p st w (if winTally p st w = 0 then Status.doneExpired else Status.failedExpired)
  else p

def execWindowExpiry (store : StoreId) (w : Fin 16) (s : State) : Host.Outcome State Fault Refusal :=
  act s (fun p => windowExpiry p store w.val)

/-- Whether a context waits for a window. -/
def waitsFor (st : StoreId) (w : Nat) (x : Ctx) : Bool := x.wait == some (.win st w)

/-- Whether an issued win.close waits for a window of a store (R194). -/
def closesWin (st : StoreId) (w : Nat) (i : Inst) : Bool :=
  let own : StoreId := if bit i.word 24 then .cluster i.ctx.core.die i.ctx.core.cluster else .core i.ctx.core
  bits i.word 7 0 == 0xA2 && i.ended.isNone && bits i.word 28 25 == w && own == st

/-- WINDOW_CLOSED (R148, R178, R194): every admitted write has been written, so a CLOSING window becomes CLOSED; win_closed is set
and its status ends the owner's wait and win.close. -/
def windowClosed (p : Pkg) (st : StoreId) (w : Nat) : Pkg :=
  let x := winOf p st w
  if x.state = .closing then
    let q := raise (setWin p st w { x with state := .closed, ended := true }) st.page (evWinClosed st)
    let q := match x.owner with
      | none => q
      | some o => if waitsFor st w (ctxOf q o) then endWait q o x.status else q
    (q.insts.filter (closesWin st w)).foldl (fun q i => retire q i x.status) q
  else p

def execWindowClosed (store : StoreId) (w : Fin 16) (s : State) : Host.Outcome State Fault Refusal :=
  act s (fun p => windowClosed p store w.val)

/-- The WIN_CTL.status code of a closing status (R158). -/
def winStatusCode (st : Status) : Nat :=
  if st = Status.done then 1 else if st = Status.doneExpired then 2 else if st = Status.failedExpired then 3
  else if st = Status.doneClosed then 4 else if st = Status.failedDisabled then 5 else 0

end Sys2Proof.Machine
end

