-- ==== Sys2Proof/Machine/Bobbins.lean ====
section
/-! DEFINITION. Bobbins (R195–R212): acceptance, moves, twin writes, expansion, landing, far conversions, endings. -/
namespace Sys2Proof.Machine
open Sys2Proof

/-! ## Parts -/

/-- BOB events (R212). -/
def evDescFailed : Nat := 16
def evUnmirrored : Nat := 17
def evFmtFail : Nat := 18
def evStrayAck : Nat := 19
def evPostRefused : Nat := 20

/-- Whether a bobbin is a gateway bobbin. -/
def BobId.isGateway : BobId → Bool
  | .gateway _ => true
  | _ => false

/-- BOB_CFG (R212): queue enables, the number of active places, and the ack timeout in ticks. -/
def bobCfg (p : Pkg) (b : BobId) : Word := getReg p (.bob b) 0x088
def queueEn (p : Pkg) (b : BobId) (q : Nat) : Bool := bit (bobCfg p b) q || (b.isGateway && decide (8 ≤ q))
def maxActive (p : Pkg) (b : BobId) : Nat := bits (bobCfg p b) 19 18 + 1
def ackTimeout (p : Pkg) (b : BobId) : Nat :=
  let v := bits (bobCfg p b) 31 20
  (if v = 0 then 1000 else v) * 1000

/-- The descriptors of a queue, in order of acceptance. -/
def Bobbin.queueDescs (b : Bobbin) (q : Nat) : List Desc := b.descs.filter (fun d => d.queue == q)
/-- Free completion entries (R206). -/
def Bobbin.freeEntries (b : Bobbin) : Nat := 64 - b.reserved - b.fifo.length
/-! ## The descriptor (R198) -/

/-- The fields of 64 descriptor bytes (R198). -/
structure DescWord where
  op : Nat
  res0 : Nat
  sspace : Nat
  dspace : Nat
  twin : Bool
  flag : Bool
  flow : Nat
  dueReq : Bool
  res2 : Nat
  len : Nat
  src : Nat
  dst : Nat
  rows : Nat
  spitch : Nat
  dpitch : Nat
  xpitch : Nat
  due : Nat
  mirror : Nat
  tflow : Nat
  xaddr : Nat
  tag : Nat
  res58 : Nat
  deriving DecidableEq, Repr

/-- The fields of a descriptor's bytes. -/
def descWord (b : List Byte) : DescWord :=
  { op := leField b 0 1 % 16, res0 := leField b 0 1 / 16, sspace := leField b 1 1 % 8, dspace := leField b 1 1 / 8 % 8
    twin := (leField b 1 1).testBit 6, flag := (leField b 1 1).testBit 7, flow := leField b 2 2 % 4096
    dueReq := (leField b 2 2).testBit 12, res2 := leField b 2 2 / 8192, len := leField b 4 4, src := leField b 8 8
    dst := leField b 16 8, rows := leField b 24 2, spitch := leField b 26 2, dpitch := leField b 28 2, xpitch := leField b 30 2
    due := leField b 32 8, mirror := leField b 40 2, tflow := leField b 42 2, xaddr := leField b 44 4, tag := leField b 52 4
    res58 := leField b 58 2 }

/-- The scale-plane address of an expand (R198). -/
def DescWord.scaleAddr (w : DescWord) : Nat := w.mirror + w.tflow * 65536 + w.xaddr * 4294967296

/-- Where an address of a space lies: a chip other than the own one, and the offset; or the status that refuses it
(R196 check 4, R199). The poster is the context of a bob.put, or none for a posting. -/
def spaceAddr (p : Pkg) (poster : Option CtxId) (space addr n : Nat) : Except Status (Option Chip × Nat) :=
  let far (chip off : Nat) : Option Chip × Nat :=
    if BitVec.ofNat 16 chip = ownChip p then (none, off) else (some (BitVec.ofNat 16 chip), off)
  let rel (c : CtxId) (k : Pair) (x : Nat) : Except Status Nat :=
    match pairAddr p c k x n with
    | some a => .ok a
    | none => .error Status.refusedBound
  match poster, space with
  | some c, 0 => (rel c .core addr).map (fun a => (none, a))
  | some c, 1 => (rel c .cluster addr).map (fun a => (none, a))
  | some c, 2 => (rel c .dram addr).map (fun a => (none, a))
  | some c, 3 => (rel c .commons (addr % 2 ^ 48)).map (fun a => far (addr / 2 ^ 48) a)
  | none, 4 => .ok (none, addr)
  | none, 5 => .ok (far (addr / 2 ^ 48) (addr % 2 ^ 48))
  | _, 6 => .ok (none, addr)
  | _, _ => .error Status.refusedPrivate

/-- Whether a flag or twin, pitch, size or reserved field breaks check 2 for each op (R196, R198, R203, R208). -/
def DescWord.shapeOk (w : DescWord) : Bool :=
  let common := w.res0 == 0 && w.res2 == 0 && w.res58 == 0 && (w.dueReq || w.due == 0) && w.sspace != 7 && w.dspace != 7
    && (w.sspace == 6 || w.src % 64 == 0) && (w.dspace == 6 || w.dst % 64 == 0)
    && (w.sspace != 6 || w.src < 32) && (w.dspace != 6 || w.dst < 32)
  match w.op with
  | 1 => common && w.sspace != 6 && w.dspace != 6 && w.len != 0 && w.len % 64 == 0 && w.rows != 0
      && decide (w.len / 64 ≤ w.spitch) && decide (w.len / 64 ≤ w.dpitch) && decide (w.rows * w.len ≤ 2 ^ 32 - 64)
      && w.xpitch == 0 && w.xaddr == 0 && (!w.twin || w.tflow / 4096 == 0)
      && (!w.twin || w.dspace == 2 || w.dspace == 4 || w.dspace == 5)
  | 2 => common && !w.twin && !w.flag && w.sspace != 6 && w.len != 0 && w.rows == 0 && w.spitch == 0 && w.dpitch != 0 && w.xpitch != 0
      && (w.dspace == 0 || w.dspace == 1 || w.dspace == 4) && w.scaleAddr % 64 == 0
  | 3 => common && !w.twin && !w.flag && w.sspace == 6 && w.dspace != 6 && 64 ≤ w.len && w.len ≤ 2048 && w.len % 64 == 0
      && w.rows == 0 && w.spitch == 0 && w.dpitch == 0 && w.xpitch == 0 && w.xaddr == 0
  | 4 => common && !w.twin && !w.flag && w.dspace == 6 && w.sspace != 6 && 64 ≤ w.len && w.len ≤ 2048 && w.len % 64 == 0
      && w.rows == 0 && w.spitch == 0 && w.dpitch == 0 && w.xpitch == 0 && w.xaddr == 0
  | _ => false

/-- Whether the store ranges of R203 hold an offset. -/
def inStore (a : Nat) : Bool := match rangeOf a with | .store _ _ => true | _ => false
/-- Whether an offset lies in DRAM. -/
def inDram (a : Nat) : Bool := rangeOf a == .dram

/-- The header of the group at a source offset of this package. -/
def groupAt (p : Pkg) (a : Nat) : Option Codebook := codebookOf (readLocal p a 64)

/-- Check 3 of R196: spaces 4–6 from bob.put, spaces 0–3 from a posting, space 6 on a cluster bobbin, and the queues that
R195 keeps for the hardware. -/
def privateOk (b : BobId) (poster : Option CtxId) (queue : Nat) (w : DescWord) : Bool :=
  let bad (s : Nat) : Bool := match poster with
    | some _ => s ≥ 4
    | none => s < 4
  !bad w.sspace && !bad w.dspace && (b.isGateway || (w.sspace != 6 && w.dspace != 6)) && !(b.isGateway && decide (8 ≤ queue))

/-- Bytes of the source and of the destination that a descriptor's relative ranges span. An expand's source is as many bytes
as its groups take when every group has the first one's shape (R203). -/
def srcSpan (p : Pkg) (srcOff : Nat) (w : DescWord) : Nat :=
  match w.op with
  | 1 => extent w.rows w.len w.spitch
  | 2 => match groupAt p srcOff with
    | some c => w.len * c.groupBytes
    | none => 64
  | _ => w.len
def dstSpan (cb : Option Codebook) (w : DescWord) : Nat :=
  match w.op with
  | 1 => extent w.rows w.len w.dpitch
  | 2 => extent 128 (match cb with | some c => w.len * c.expandedRow | none => 64) w.dpitch
  | _ => w.len

/-- Whether an address of a space names another chip (R199). -/
def farSpace (p : Pkg) (space addr : Nat) : Bool := (space == 3 || space == 5) && BitVec.ofNat 16 (addr / 2 ^ 48) != ownChip p

/-- The header of an expand's first group, where its source resolves in this package (R203). -/
def firstHeader (p : Pkg) (poster : Option CtxId) (w : DescWord) : Option Codebook :=
  match spaceAddr p poster w.sspace w.src 64 with
  | .ok (none, a) => if w.op = 2 then groupAt p a else none
  | _ => none

/-- Whether a plane row of an expand is longer than its pitch (R198). -/
def DescWord.wide (w : DescWord) : Option Codebook → Bool
  | some c => decide (w.dpitch * 64 < w.len * c.expandedRow) || decide (w.xpitch * 64 < w.len * (2 ^ c.log2g / 32))
  | none => false

/-- Whether the places of a descriptor form a combination that check 2 refuses (R198, R199, R203, R208): two ends on other chips, another
chip in anything but a move, a twin destination that is not this package's DRAM, an expand that does not end in a store or whose
rows are longer than their pitch. -/
def DescWord.placesOk (w : DescWord) (p : Pkg) (cb : Option Codebook) : Bool :=
  let s := farSpace p w.sspace w.src
  let d := farSpace p w.dspace w.dst
  let own := w.dst % (if w.dspace = 5 then 2 ^ 48 else 2 ^ 64)
  !(s && d) && (w.op == 1 || !(s || d))
    && (!w.twin || (!d && (w.dspace == 2 || inDram own)))
    && (w.op != 2 || ((w.dspace != 4 || inStore w.dst) && !w.wide cb))

/-- A descriptor checked in the order of R196, checks 2 to 4, with its resolved addresses. -/
def descResolve (p : Pkg) (b : BobId) (poster : Option CtxId) (queue : Nat) (w : DescWord) : Except Status Desc :=
  let cb := firstHeader p poster w
  if !w.shapeOk || !w.placesOk p cb then .error Status.failedFormat
  else if !privateOk b poster queue w then .error Status.refusedPrivate
  else
    match spaceAddr p poster w.sspace w.src 0 with
    | .error e => .error e
    | .ok s0 =>
      match spaceAddr p poster w.sspace w.src (srcSpan p s0.2 w), spaceAddr p poster w.dspace w.dst (dstSpan cb w) with
      | .error e, _ => .error e
      | _, .error e => .error e
      | .ok s1, .ok d1 =>
        let x := if w.op = 2 then
            spaceAddr p poster w.dspace w.scaleAddr (extent 128 (match cb with | some c => w.len * (2 ^ c.log2g / 32) | none => 64) w.xpitch)
          else .ok (none, 0)
        match x with
        | .error e => .error e
        | .ok x1 =>
          .ok { queue := queue, source := .posting, op := w.op, flag := w.flag, twin := w.twin, flow := w.flow
                dueReq := if w.dueReq then some (BitVec.ofNat 64 w.due) else none, len := w.len
                srcChip := s1.1, srcOff := s1.2, dstChip := d1.1, dstOff := d1.2
                slot := if w.sspace = 6 then some w.src else if w.dspace = 6 then some w.dst else none
                rows := w.rows, spitch := w.spitch, dpitch := w.dpitch, xpitch := w.xpitch, xoff := x1.2
                mirror := BitVec.ofNat 16 w.mirror, tflow := w.tflow % 4096, tag := BitVec.ofNat 32 w.tag, order := 0
                active := false, todo := [], frames := [], status := 0, stopped := false, mirrorLost := false, poisoned := 0
                firstFail := none, ticket := 0, mtodo := [], mticket := 0, exposedAt := none }

/-- The outcome of offering a descriptor to a queue: refused, to be held because the queue is full, or accepted. -/
inductive Offer where
  | no (st : Status)
  | held
  | yes (d : Desc)
  deriving DecidableEq, Repr

/-- The checks of R196 in order, for a bob.put's context or a posting. -/
def offer (p : Pkg) (b : BobId) (poster : Option CtxId) (queue : Nat) (bytes : List Byte) : Offer :=
  let x := bobOf p b
  if !enabled p (.bob b) || !queueEn p b queue then .no Status.refusedOffline
  else
    match descResolve p b poster queue (descWord bytes) with
    | .error st => .no st
    | .ok d =>
      let full := decide (32 ≤ ((x.queueDescs queue).filter (fun e => !e.active)).length)
      match poster with
      | some _ => if full then .held else .yes d
      | none =>
        if x.freeEntries = 0 then .no Status.refusedBusy
        else if full then .no Status.refusedFull
        else .yes d

/-- A descriptor accepted into its queue: counted in TALLY_IN, with its completion entry reserved for a posting. -/
def acceptDesc (p : Pkg) (b : BobId) (d : Desc) : Pkg :=
  let (p, n) := freshId p
  let x := bobOf p b
  tallyIn (setBob p b { x with
    descs := x.descs ++ [{ d with order := n }]
    reserved := if d.source = .posting then x.reserved + 1 else x.reserved }) (.bob b) 1

/-- BOB_CFG is used (R42): a value that fails its complement check takes an ENABLED bobbin into FAULT, so that it accepts nothing. -/
def cfgUsed (p : Pkg) (b : BobId) : Pkg := if enabled p (.bob b) && !pairOk p (.bob b) 0x088 then cmpFail p (.bob b) else p

/-- A descriptor that ends at once because a check of R196 fails: it is in no tally, and DESC_FAILED and its event count it (R212); a broken
format shows in fmt_fail. -/
def endedAtOnce (p : Pkg) (b : BobId) (st : Status) : Pkg :=
  let q := raise (bump p (.bob b) 0x120 1) (.bob b) evDescFailed
  if st = Status.failedFormat then raise q (.bob b) evFmtFail else q

/-- POST_CMD with go = 1 (R196, R212): POST_D0–POST_D15 offered to a queue; POST_RESULT holds the status. -/
def postGo (p : Pkg) (b : BobId) (queue : Nat) : Pkg :=
  let p := cfgUsed p b
  let bytes := (List.range 16).flatMap (fun i => leBytes 4 (getReg p (.bob b) (0x200 + 4 * i)).toNat)
  let r (q : Pkg) (st : Status) : Pkg :=
    let q := setBob q b { bobOf q b with postResult := some st }
    let q := setReg q (.bob b) 0x244 (BitVec.ofNat 32 (0x80000000 + st.toNat))
    if st = Status.done then q else raise q (.bob b) evPostRefused
  match offer p b none queue bytes with
  | .no st => r (if st = Status.refusedFull then p else endedAtOnce p b st) st
  | .held => r p Status.refusedFull
  | .yes d => r (acceptDesc p b d) Status.done

def execPostCmdGo (agent : Agent) (bob : BobId) (queue : Fin 16) (s : State) : Host.Outcome State Fault Refusal :=
  act s (fun p => regGateW p agent (.bob bob) 0x240 (fun q => postGo q bob queue.val))

/-! ## Moving (R200–R203, R208) -/

/-- The units of a row of a move from byte pos on: lines for a local move, frames cut at 2,048-byte boundaries of the
destination address otherwise (R200). Each is (row, byte position in the row, bytes). -/
def cutRow (whole : Bool) (dst row len : Nat) : Nat → Nat → List (Nat × Nat × Nat)
  | 0, _ => []
  | k + 1, pos =>
    if len ≤ pos then []
    else
      let room := if whole then 64 else 2048 - (dst + pos) % 2048
      let n := min room (len - pos)
      (row, pos, n) :: cutRow whole dst row len k (pos + n)

/-- Every unit of a move in row order (R200). -/
def unitsOfMove (d : Desc) : List (Nat × Nat × Nat) :=
  let lines := d.srcChip.isNone && d.dstChip.isNone && !d.twin
  (List.range d.rows).flatMap (fun r =>
    cutRow lines ((if lines then 0 else d.dstOff) + r * d.dpitch * 64) r d.len (d.len / 64 + 2) 0)

/-- Source and destination byte of a unit. -/
def Desc.srcAt (d : Desc) (u : Nat × Nat × Nat) : Nat := d.srcOff + u.1 * d.spitch * 64 + u.2.1
def Desc.dstAt (d : Desc) (u : Nat × Nat × Nat) : Nat := d.dstOff + u.1 * d.dpitch * 64 + u.2.1
/-- The destination line of a unit, counted from the start of the destination (R198). -/
def Desc.lineAt (d : Desc) (u : Nat × Nat × Nat) : Nat := d.posOf u / 64

/-- A unit not written: first_fail takes its line. -/
def Desc.miss (d : Desc) (u : Nat × Nat × Nat) (st : Status) : Desc := { d.take st with firstFail := leastOpt d.firstFail (d.lineAt u) }

/-- Bytes counted in the bobbin's page: BYTES_RD, BYTES_WR, POISON_LINES. -/
def bobRead (p : Pkg) (b : BobId) (n : Nat) : Pkg := bump p (.bob b) 0x100 n
def bobWrite (p : Pkg) (b : BobId) (n : Nat) : Pkg := bump p (.bob b) 0x108 n
def bobPoison (p : Pkg) (b : BobId) (n : Nat) : Pkg := if n = 0 then p else bump p (.bob b) 0x130 n

/-- Bytes written line by line into this package for a bobbin, after the checks of R32; tags travel with the lines. -/
def bobStore (p : Pkg) (b : BobId) (a : Nat) (bs : List Byte) (tag : Nat → Bool) : Pkg × Status :=
  let r := checkAccess p (.bobbin b) a bs.length
  if r.2 ≠ Status.done then r
  else if writeBarred p a bs.length then (noteRefusal r.1 a Status.refusedOffline, Status.refusedOffline)
  else
    match rangeOf a with
    | .guest g o =>
      if guestGate r.1 a bs.length 29 = Status.done then (bobWrite (passToGuest r.1 g o (.write bs)) b bs.length, Status.done)
      else (r.1, guestGate r.1 a bs.length 29)
    | _ => (bobWrite (countDram (writeLocal r.1 a bs tag) a bs.length true) b bs.length, Status.done)

/-- Bytes read at this package for a bobbin after the checks of R32. -/
def bobLoad (p : Pkg) (b : BobId) (a n : Nat) : Pkg × Status :=
  let r := checkAccess p (.bobbin b) a n
  if r.2 ≠ Status.done then r
  else
    match rangeOf a with
    | .guest g o => if guestGate r.1 a n 30 = Status.done then (bobRead (passToGuest r.1 g o (.read n)) b n, Status.done) else (r.1, guestGate r.1 a n 30)
    | _ => (bobRead (countDram r.1 a n false) b n, Status.done)

/-- The poison mask of bytes read at a local offset, unit by unit (R284). -/
def readMask (p : Pkg) (a n : Nat) : Word :=
  BitVec.ofNat 32 (((List.range ((n + 63) / 64)).map (fun j =>
    if localPoisoned p (a + 64 * j) (min 64 (n - 64 * j)) then 2 ^ j else 0)).sum)

/-- The line tags that a poison mask gives n bytes of payload whose byte i lands at i + up − down: every line that a marked
unit touches (R284). -/
def maskTagAt (up down n : Nat) (mask : Word) (l : Nat) : Bool :=
  (List.range ((n + 63) / 64)).any (fun j =>
    bit mask j && decide (l + down < up + min n (64 * j + 64)) && decide (up + 64 * j < l + 64 + down))
/-- The same for bytes at an offset. -/
def maskTag (a n : Nat) (mask : Word) (l : Nat) : Bool := maskTagAt a 0 n mask l

/-- The tags of a source range shifted to a destination that is aligned alike. -/
def copyTag (p : Pkg) (src dst : Nat) (l : Nat) : Bool := poisoned p (phys p (src + l - dst))

/-- One frame of a move handed to the die's router: counted, with its deadline (R201). -/
def moveFrame (p : Pkg) (b : BobId) (d : Desc) (f : Frame) (mf : MoveFrame) (due : DWord) : Pkg × Desc :=
  let (p, s) := freshSeq p
  let dl : DWord := if f.flow = 0xFFF then p.bell + BitVec.ofNat 64 (ackTimeout p b) else due + 65536
  let p := debit p b.die f.flow f.payload.length
  let p := bump p (.bob b) 0x110 1
  let d := { d with frames := d.frames ++ [{ mf with seq := s, deadline := dl }] }
  -- the frame is recorded before it is injected, so that an ending at the own router finds it
  let p := setBob p b ((bobOf p b).upd d)
  let p := inject p b.die { f with seq := s, due := due, cls := if f.flow = 0xFFF then 2 else 1, inj := injBob b }
  (p, ((bobOf p b).descs.find? (fun x => x.order == d.order)).getD d)

/-- A frame to another chip before its sequence and due time are set. -/
def rawFrame (p : Pkg) (kind : Nat) (chip : Chip) (flow off : Nat) (payload : List Byte) (mask : Word) (flag : Bool) : Frame :=
  { kind := kind, cls := 2, flag := flag, last := true, dst := chip, src := ownChip p, flow := flow, due := 0, off := off
    inj := 0, seq := 0, payload := payload, poison := mask }

/-- Whether a write frame of a task is outstanding or held, which an own flag store waits for (R318). -/
def Desc.writesOpen (d : Desc) : Bool := d.frames.any (fun f => !f.read && !f.mirror && f.ended.isNone)
/-- The task that queued a descriptor (R318). -/
def Desc.task (b : BobId) (d : Desc) : Option SourceTask :=
  match d.source with
  | .put _ c _ => some (.ctx c)
  | .posting => some (.queue b d.queue)
  | .far _ => none

/-- Whether earlier stores of a flag frame's task are still open (R318): commons stores of the context, and write frames of
the task's descriptors. A far flag store has waited for those before it was converted (R210), and waits here for its own
frames. -/
def storesOpen (p : Pkg) (b : BobId) (d : Desc) : Bool :=
  match d.source with
  | .far _ => d.writesOpen
  | _ =>
  p.bobs.any (fun kv => kv.2.descs.any (fun e =>
      decide (e.order ≤ d.order) && (Desc.task kv.1 e) == (Desc.task b d) && e.writesOpen))
    || (match d.source with
        | .put _ c _ => p.creqs.any (fun r => r.ctx == c && r.kind == 4 && decide (r.id < d.order))
        | _ => false)

/-- Whether an earlier store of the task ended with a class other than done (R318). -/
def storesBad (p : Pkg) (b : BobId) (d : Desc) : Bool :=
  match d.source with
  | .put _ c _ => (match (ctxOf p c).firstBad with | some k => decide (k ≤ d.order) | none => false)
  | .posting => (match Map.look (bobOf p b).firstBad d.queue with | some k => decide (k ≤ d.order) | none => false)
  | .far _ => false

/-- A descriptor whose next frame waits for budget takes its place in the flow's line (R66). -/
def Desc.queueUp (p : Pkg) (b : BobId) (d : Desc) : Desc := { d with ticket := takeTicket p b.die d.flow d.ticket }
/-- The same for its next mirror frame. -/
def Desc.queueMirror (p : Pkg) (b : BobId) (d : Desc) : Desc := { d with mticket := takeTicket p b.die d.tflow d.mticket }

/-- The mirror frame of a unit that stands in local memory (R208): sent, or the mirror found unreachable. The flag says that it waits for
budget. -/
def twinFrame (p : Pkg) (b : BobId) (d : Desc) (u : Nat × Nat × Nat) : Pkg × Desc × Bool :=
  let pos := d.posOf u
  if dramHeld p (d.dstAt u) u.2.2 then (p, d, true)
  else if fenced p d.mirror then let r := loseMirror p b d pos; (r.1, r.2, false)
  else
    match admitLine p b.die d.tflow none u.2.2 (4, d.order) d.mticket with
    | .no st => (p, d.miss u st, false)
    | .wait => (p, d.queueMirror p b, true)
    | .ok due =>
      let f := rawFrame p 4 d.mirror d.tflow (d.dstAt u) (readLocal p (d.dstAt u) u.2.2) (readMask p (d.dstAt u) u.2.2) false
      let r := moveFrame p b d f ⟨0, true, false, pos, u.2.2, d.dstAt u, 0, none⟩ due
      (r.1, { r.2 with mticket := 0 }, false)

/-- The mirror frames still to be sent, in order, until one waits; none once the mirror is lost or the issue stops (R205, R208). -/
def mirrorUnits (b : BobId) : List (Nat × Nat × Nat) → Pkg → Desc → Pkg × Desc
  | [], p, d => (p, { d with mtodo := [], mticket := 0 })
  | u :: r, p, d =>
    if d.mirrorLost then (p, { d with mtodo := [], mticket := 0 })
    else if d.stopped then (p, { d with mtodo := u :: r, mticket := 0 })
    else
      match twinFrame p b { d with mtodo := r } u with
      | (q, e, true) => (q, { e with mtodo := u :: r })
      | (q, e, false) => mirrorUnits b r q e

/-- A unit of a twin write that has been written locally (R208): its mirror frame follows those that wait, or it lies past a lost mirror. -/
def mirrorUnit (p : Pkg) (b : BobId) (d : Desc) (u : Nat × Nat × Nat) : Pkg × Desc :=
  if !d.twin then (p, d)
  else if d.mirrorLost then loseMirror p b d (d.posOf u)
  else mirrorUnits b (d.mtodo ++ [u]) p d

/-- A unit of a local move, with its tags (R200, R202, R208): read, checked, written. -/
def localUnit (p : Pkg) (b : BobId) (d : Desc) (u : Nat × Nat × Nat) : Pkg × Desc :=
  let r := bobLoad p b (d.srcAt u) u.2.2
  if r.2 ≠ Status.done then (r.1, d.miss u r.2)
  else
    let n := (poisonedLines p (d.srcAt u) u.2.2).length
    let w := bobStore r.1 b (d.dstAt u) (readLocal p (d.srcAt u) u.2.2) (copyTag p (d.srcAt u) (d.dstAt u))
    if w.2 ≠ Status.done then (w.1, d.miss u w.2)
    else
      let d := { d with poisoned := d.poisoned + n }
      (bobPoison w.1 b n, if n > 0 then d.take Status.donePoisoned else d)

/-- A write frame to another chip (R200, R202): the flag is set on the last frame of a flagged move, which is held while
earlier stores of its task are open and is never sent after one of them failed (R318). The flag says that the unit waits. -/
def remoteWrite (p : Pkg) (b : BobId) (d : Desc) (u : Nat × Nat × Nat) (chip : Chip) (last : Bool) : Pkg × Desc × Bool :=
  let flagged := d.flag && last
  if fenced p chip then (p, d.miss u Status.refusedFenced, false)
  else if flagged && storesOpen p b d then (p, d, true)
  else if flagged && storesBad p b d then
    (raise (bump p ⟨0x1D, b.die.val⟩ 0x158 1) ⟨0x1D, b.die.val⟩ 19, d.miss u Status.failedOrder, false)
  else
    match admitLine p b.die d.flow d.dueReq u.2.2 (1, d.order) d.ticket with
    | .no st => (p, d.miss u st, false)
    | .wait => (p, d.queueUp p b, true)
    | .ok due =>
      let r := bobLoad p b (d.srcAt u) u.2.2
      if r.2 ≠ Status.done then (r.1, d.miss u r.2, false)
      else
        let n := (poisonedLines p (d.srcAt u) u.2.2).length
        let d := { d with poisoned := d.poisoned + n }
        let d := if n > 0 then d.take Status.donePoisoned else d
        let f := rawFrame p 4 chip d.flow (d.dstAt u) (readLocal p (d.srcAt u) u.2.2) (readMask p (d.srcAt u) u.2.2) flagged
        let r := moveFrame (bobPoison r.1 b n) b d f ⟨0, false, false, u.1 * d.len + u.2.1, u.2.2, d.srcAt u, 0, none⟩ due
        (r.1, r.2, false)

/-- A read request to another chip (R200, R314). -/
def remoteRead (p : Pkg) (b : BobId) (d : Desc) (u : Nat × Nat × Nat) (chip : Chip) : Pkg × Desc × Bool :=
  if fenced p chip then (p, d.miss u Status.refusedFenced, false)
  else
    match admitLine p b.die d.flow d.dueReq 8 (1, d.order) d.ticket with
    | .no st => (p, d.miss u st, false)
    | .wait => (p, d.queueUp p b, true)
    | .ok due =>
      let f := rawFrame p 5 chip d.flow (d.srcAt u) (leBytes 8 u.2.2) 0 false
      let r := moveFrame p b d f ⟨0, false, true, u.1 * d.len + u.2.1, u.2.2, d.dstAt u, 0, none⟩ due
      (r.1, r.2, false)

/-- Whether a local line of a unit lies in a row under a repair copy, which holds the access (R226). -/
def unitHeld (p : Pkg) (d : Desc) (u : Nat × Nat × Nat) : Bool :=
  d.srcChip.isNone && (dramHeld p (d.srcAt u) u.2.2 || (d.dstChip.isNone && dramHeld p (d.dstAt u) u.2.2))

/-- One unit of an active move; the flag says that it waits and stays first in line. -/
def moveUnit (p : Pkg) (b : BobId) (d : Desc) (u : Nat × Nat × Nat) (last : Bool) : Pkg × Desc × Bool :=
  if unitHeld p d u then (p, d, true)
  else
  match d.srcChip, d.dstChip with
  | some c, _ => remoteRead p b d u c
  | none, some c => remoteWrite p b d u c last
  | none, none =>
    let r := localUnit p b d u
    let t := if r.2.stopped then r else mirrorUnit r.1 b r.2 u
    (t.1, t.2, false)

/-- The next unit of an active move (R197): the first that is still to do, after the mirror frames that wait. The flag says that it moved one. -/
def oneUnit (p : Pkg) (b : BobId) (d : Desc) : Pkg × Bool :=
  let m := mirrorUnits b d.mtodo p d
  let sent := decide (m.2.mtodo.length < d.mtodo.length)
  match m.2.todo with
  | [] => (keepDesc b m, sent)
  | u :: r =>
    if m.2.stopped then (keepDesc b m, sent)
    else
      match moveUnit m.1 b m.2 u r.isEmpty with
      | (q, e, true) => (keepDesc b (q, e), sent)
      | (q, e, false) => (keepDesc b (q, { e with todo := r, ticket := 0 }), true)

/-- The active descriptors of a bobbin, by their queues in the rotation Q0 to Q15 after the one served last (R197). -/
def activeOrder (x : Bobbin) : List Nat :=
  ((List.range 16).map (fun i => (x.lastQueue + 1 + i) % 16)).flatMap (fun q =>
    ((x.queueDescs q).filter (fun d => d.active && (!d.todo.isEmpty || !d.mtodo.isEmpty))).map (fun d => d.order))

/-- One turn of the rotation: one unit of each active descriptor. The flag says that any moved. -/
def shareTurn (p : Pkg) (b : BobId) : Pkg × Bool :=
  (activeOrder (bobOf p b)).foldl (fun t k =>
    match (bobOf t.1 b).descs.find? (fun d => d.order == k) with
    | some d => let r := oneUnit t.1 b d; (r.1, t.2 || r.2)
    | none => t) (p, false)

/-- Turns of the rotation until every active descriptor has no unit left or waits (R197; log entry 46). -/
def shareUnits (b : BobId) : Nat → Pkg → Pkg
  | 0, p => p
  | k + 1, p => let r := shareTurn p b; if r.2 then shareUnits b k r.1 else r.1

/-- Turns that are enough for all that the active descriptors of a bobbin have to do. -/
def turnsLeft (x : Bobbin) : Nat := ((x.descs.filter (fun d => d.active)).map (fun d => d.todo.length + d.mtodo.length + 1)).sum

/-- The sides of a bobbin go on with its active descriptors, one unit each in turn. -/
def runSides (p : Pkg) (b : BobId) : Pkg := shareUnits b (turnsLeft (bobOf p b)) p

/-- One row of an expanded group (R83, R203): its indices replaced, its scales written. -/
def expandRow (p : Pkg) (b : BobId) (d : Desc) (c : Codebook) (table : List Byte) (ia : Nat) (bad : Bool) (i n : Nat) :
    Pkg × Status :=
  let e := (readLocal p (ia + n * c.indexRow) c.indexRow).flatMap (fun k => c.entryBytes table k.toNat)
  let a := d.dstOff + n * d.dpitch * 64 + i * c.expandedRow
  let x := d.xoff + n * d.xpitch * 64 + i * (2 ^ c.log2g / 32)
  let r1 := bobStore p b a e (fun _ => bad)
  if r1.2 ≠ Status.done then r1
  else bobStore r1.1 b x (List.replicate (2 ^ c.log2g / 32) (BitVec.ofNat 8 c.scale)) (fun _ => bad)

/-- The rows of a group, in order, until one is refused; that one is given too. -/
def expandRows (b : BobId) (d : Desc) (c : Codebook) (table : List Byte) (ia : Nat) (bad : Bool) (i : Nat) :
    List Nat → Pkg → Pkg × Status × Nat
  | [], p => (p, Status.done, 0)
  | n :: r, p =>
    let x := expandRow p b d c table ia bad i n
    if x.2 ≠ Status.done then (x.1, x.2, n) else expandRows b d c table ia bad i r x.1

/-- The first destination line, counted row by row, that an expand leaves unwritten when group i stops at row n (R198, R205): a row of the
destination holds every group's lines one after another. -/
def expandLine (d : Desc) (c : Option Codebook) (i n : Nat) : Nat :=
  match c with
  | some c =>
    let e := c.expandedRow / 64
    if n = 0 then i * e else if i + 1 < d.len then (i + 1) * e else (n * d.len + i) * e
  | none => 0

/-- An expand stopped in a group: its status, and the first line unwritten. -/
def Desc.stopAt (d : Desc) (line : Nat) (st : Status) : Desc := { d.take st with firstFail := leastOpt d.firstFail line }

/-- One group of an expand of a known shape, whose header has been checked (R203, R84): the table and its CRC, then the index plane, then the
expanded lines; with any line of it poisoned, poisoned lines instead. The flag says that the next group follows. -/
def expandGroup (p : Pkg) (b : BobId) (d : Desc) (c : Codebook) (badHeader : Bool) (i a : Nat) : Pkg × Desc × Bool :=
  let t := bobLoad p b (a + 64) c.tableBytes
  if t.2 ≠ Status.done then (t.1, d.stopAt (expandLine d (some c) i 0) t.2, false)
  else
    let table := readLocal p (a + 64) c.tableBytes
    let badTable := badHeader || localPoisoned p (a + 64) c.tableBytes
    if !badTable && (crc32 table).toNat ≠ c.crc then
      (raise t.1 (.bob b) evFmtFail, d.stopAt (expandLine d (some c) i 0) Status.failedFormat, false)
    else
      let ia := a + 64 + c.tableBytes
      let x := bobLoad t.1 b ia (128 * c.indexRow)
      if x.2 ≠ Status.done then (x.1, d.stopAt (expandLine d (some c) i 0) x.2, false)
      else
        let bad := badTable || localPoisoned p ia (128 * c.indexRow)
        let w := expandRows b d c table ia bad i (List.range 128) x.1
        if w.2.1 ≠ Status.done then (w.1, d.stopAt (expandLine d (some c) i w.2.2) w.2.1, false)
        else (bump w.1 (.bob b) 0x138 1, if bad then d.take Status.failedPoison else d, true)

/-- The groups of an expand from group i on (R203, R84): a group that fails R84, or that differs in shape from the first, ends
the descriptor failed.format; a poisoned one is written poisoned and the next one follows. A poisoned header reads as 0xFF: its group has the
first group's shape; that of the first group gives none, so the group fails R84 (log entry 38). -/
def expandGroups (b : BobId) (first : Option Codebook) : Nat → Nat → Nat → Pkg → Desc → Pkg × Desc
  | 0, _, _, p, d => (p, d)
  | k + 1, i, a, p, d =>
    let h := bobLoad p b a 64
    if h.2 ≠ Status.done then (h.1, d.stopAt (expandLine d first i 0) h.2)
    else
      let bad := localPoisoned p a 64
      let shape := if bad then first else groupAt p a
      let same := match shape, first with
        | some c, some g => g.vecLen == c.vecLen && g.entry == c.entry && g.log2g == c.log2g
        | some _, none => true
        | none, _ => false
      match shape with
      | some c =>
        if same then
          let r := expandGroup h.1 b d c bad i a
          if r.2.2 then expandGroups b (some (first.getD c)) k (i + 1) (a + c.groupBytes) r.1 r.2.1 else (r.1, r.2.1)
        else (raise h.1 (.bob b) evFmtFail, d.stopAt (expandLine d first i 0) Status.failedFormat)
      | none => (raise h.1 (.bob b) evFmtFail, d.stopAt (expandLine d first i 0) Status.failedFormat)

/-- A land: the slot's bytes to the destination (R209); the slot frees when it ends. -/
def landSlot (p : Pkg) (b : BobId) (d : Desc) : Pkg × Desc :=
  let x := bobOf p b
  let n := d.slot.getD 0
  let bytes := (Map.getD x.slots n []).take d.len
  let r := bobStore p b d.dstOff (bytes ++ List.replicate (d.len - bytes.length) 0) noTag
  (r.1, if r.2 = Status.done then d else d.miss (0, 0, 0) r.2)

/-- The slot that an emit fills: the one it names, or when that one is full a free slot of any gateway bobbin, the
manual leaves open which (R209; log entry 14). -/
def emitSlot (p : Pkg) (b : BobId) (n : Nat) : BobId × Nat :=
  if (Map.look (bobOf p b).slots n).isNone then (b, n)
  else
    let free := (List.finRange 8).flatMap (fun k => (List.range 32).filterMap (fun i =>
      if (Map.look (bobOf p (.gateway k)).slots i).isNone then some (BobId.gateway k, i) else none))
    free.getD (Config.slotPick p.count % free.length) (b, n)

/-- An emit: bytes of this package into a free slot (R209). -/
def emitToSlot (p : Pkg) (b : BobId) (d : Desc) : Pkg × Desc :=
  let r := bobLoad p b d.srcOff d.len
  if r.2 ≠ Status.done then (r.1, d.miss (0, 0, 0) r.2)
  else
    let t := emitSlot p b (d.slot.getD 0)
    let x := bobOf r.1 t.1
    (setBob r.1 t.1 { x with slots := Map.put x.slots t.2 (readLocal p d.srcOff d.len) }, d)

/-- What a descriptor that becomes active does at once (R197, R200, R203, R209): its lines move within the command that starts it, those of a
move in rotation with the other active ones that can go on (log entry 46). -/
def startDesc (p : Pkg) (b : BobId) (d : Desc) : Pkg :=
  let d := { d with active := true, todo := if d.op = 1 then unitsOfMove d else [] }
  let p := setBob p b { (bobOf p b).upd d with lastQueue := d.queue }
  match d.op with
  | 1 => runSides p b
  | 2 => keepDesc b (expandGroups b none d.len 0 d.srcOff p d)
  | 3 => keepDesc b (landSlot p b d)
  | _ => keepDesc b (emitToSlot p b d)

/-- Bytes 48–63 written back into the core-store copy (R198, R206). -/
def writeBack (p : Pkg) (c : CtxId) (a poisoned : Nat) (tag : Word) (st : Status) (first : Option Nat) : Pkg :=
  let core := StoreId.core c.core
  if rangeAsleep p core (a - core.base) 64 then countAsleep p core
  else writeLocal p (a + 48) (leBytes 4 poisoned ++ leBytes 4 tag.toNat ++ leBytes 2 st.toNat ++ [0, 0]
    ++ leBytes 4 (first.getD 0xFFFFFFFF)) noTag

/-- A bob.put whose last descriptor has ended ends with the worst of their statuses (R192): Inst.x counts the descriptors not yet
offered, Inst.k holds the worst status. -/
def putDone (p : Pkg) (id : Nat) : Pkg :=
  let more := p.bobs.any (fun kv => kv.2.descs.any (fun e => match e.source with | .put j _ _ => j == id | _ => false))
  match p.insts.find? (fun n => n.id == id) with
  | some n => if more || decide (n.x.toNat > 0) then p else endInst p id (BitVec.ofNat 16 n.k.toNat)
  | none => p

/-- A bob.put takes the status of one of its descriptors. -/
def putTake (p : Pkg) (id : Nat) (st : Status) : Pkg :=
  updInst p id (fun n => { n with k := BitVec.ofNat 64 (Status.worst (BitVec.ofNat 16 n.k.toNat) st).toNat })

/-- The base/bound pairs that a descriptor of a bob.put uses (R144, R199). -/
def handSpaces (w : DescWord) : List Pair :=
  [w.sspace, w.dspace].filterMap (fun s => match s with
    | 0 => some .core | 1 => some .cluster | 2 => some .dram | 3 => some .commons | _ => none)

/-- The next descriptor of a bob.put offered to its queue (R192, R196); the flag says that the queue is full. One refused at
acceptance ends at once and is written back; a stopping context's ends failed.disabled (R207). A base/bound pair that fails its
complement check is not used: the core enters FAULT (R42, R144). -/
def putOne (p : Pkg) (b : BobId) (queue : Nat) (i : Inst) : Pkg × Bool :=
  let n := bits i.word 68 64 + 1
  let x := (handleOf i.a).eplane * 64 + 64 * (n - i.x.toNat)
  let less (q : Pkg) : Pkg := updInst q i.id (fun m => { m with x := m.x - 1, started := m.x == 1 })
  if (ctxOf p i.ctx).state = .stopping then (less (putTake p i.id Status.failedDisabled), false)
  else
    match storeCheck p i.ctx .core x 64 with
    | .error st => (less (putTake (countStore p i.ctx false st) i.id st), false)
    | .ok a =>
      let bytes := readLocal p a 64
      let p := cfgUsed p b
      if !(handSpaces (descWord bytes)).all (pairSound p i.ctx) then (cmpFail p (.core i.ctx.core), true)
      else
      match offer p b (some i.ctx) queue bytes with
      | .held => (p, true)
      | .yes d => (less (acceptDesc p b { d with source := .put i.id i.ctx a }), false)
      | .no st =>
        let q := endedAtOnce p b st
        (less (putTake (writeBack q i.ctx a 0 (BitVec.ofNat 32 (descWord bytes).tag) st (some 0)) i.id st), false)

/-- The descriptors of a bob.put offered until none is left or the queue is full. -/
def putRun (b : BobId) (queue : Nat) (id : Nat) : Nat → Pkg → Pkg
  | 0, p => p
  | k + 1, p =>
    match p.insts.find? (fun i => i.id == id && decide (0 < i.x.toNat)) with
    | none => putDone p id
    | some i =>
      let r := putOne p b queue i
      if r.2 then r.1 else putRun b queue id k r.1

/-- The bobbin and queue that a bob.put names (R192). -/
def putBob (i : Inst) : BobId := .cluster i.ctx.core.die i.ctx.core.cluster (if bit i.word 24 then 1 else 0)
def putQueue (i : Inst) : Nat := bits i.word 31 28

/-- The bob.puts held in the bobbin path of a bobbin go on, in the order of issue. -/
def putMore (p : Pkg) (b : BobId) : Pkg :=
  (p.insts.filter (fun i => opOf i.word == 0xA0 && i.ended.isNone && putBob i == b && decide (0 < i.x.toNat))).foldl
    (fun q i => putRun b (putQueue i) i.id 33 q) p

/-! ## Far conversions (R210) -/

/-- The gateway bobbin that takes a far access: GB(chip mod 8), or the next ENABLED one in ascending order. -/
def gatewayFor (p : Pkg) (chip : Chip) : Option (Fin 8) :=
  ((List.finRange 8).map (fun i => (⟨(chip.toNat + i.val) % 8, by omega⟩ : Fin 8))).find? (fun k => enabled p (.bob (.gateway k)))

/-- The queues Q8–Q15 of a gateway bobbin with room for one more waiting descriptor (R195). -/
def farQueues (x : Bobbin) : List Nat :=
  ((List.range 8).map (· + 8)).filter (fun q => decide (((x.queueDescs q).filter (fun e => !e.active)).length < 32))

/-- A far load or store becomes one descriptor in Q8–Q15 of a gateway bobbin (R210), in a queue that has room (R195); the manual leaves open
which of them, and where all are full the access waits (log entry 14). A store of another size that is no flag store, and an atomic, are
refused. -/
def farConvert (p : Pkg) (r : CReq) : Pkg :=
  if r.kind = 6 then endReq p r Status.refusedFarAtomic false
  else if r.kind = 4 ∧ r.flag = false ∧ (r.len % 256 ≠ 0 ∨ r.len = 0 ∨ r.off % 256 ≠ 0) then endReq p r Status.refusedFarSize false
  else
    match gatewayFor p r.chip with
    | none => endReq p r Status.refusedOffline false
    | some k =>
      match farQueues (bobOf p (.gateway k)) with
      | [] => updReq p { r with stage := .farWait }
      | qs =>
      let lo := if r.kind = 5 then r.off / 256 * 256 else r.off
      let n := if r.kind = 5 then (r.off + r.len + 255) / 256 * 256 - lo else r.len
      let d : Desc :=
        { queue := qs.getD (Config.farQueue r.id % qs.length) 8, source := .far r.id, op := 1, flag := r.flag, twin := false, flow := r.flow
          dueReq := r.dueReq, len := n
          srcChip := if r.kind = 5 then some r.chip else none, srcOff := if r.kind = 5 then lo else r.dest
          dstChip := if r.kind = 5 then none else some r.chip, dstOff := lo, slot := none, rows := 1, spitch := n / 64
          dpitch := n / 64, xpitch := 0, xoff := 0, mirror := 0, tflow := 0, tag := 0, order := 0, active := false, todo := []
          frames := [], status := 0, stopped := false, mirrorLost := false, poisoned := 0, firstFail := none, ticket := 0, mtodo := [], mticket := 0, exposedAt := none }
      acceptDesc (updReq p { r with stage := .gateway }) (.gateway k) d

/-- Far accesses that wait for room in a queue try again, in the order of their issue (R195, R210). -/
def farMore (p : Pkg) : Pkg :=
  ((p.creqs.filter (fun r => r.stage == .farWait)).map CReq.id).foldl (fun q i =>
    match q.creqs.find? (fun r => r.id == i && r.stage == .farWait) with
    | some r => farConvert q r
    | none => q) p

/-- The next queue in the rotation that holds a waiting descriptor and no active one (R197). -/
def nextQueue (x : Bobbin) : Option Nat :=
  ((List.range 16).map (fun i => (x.lastQueue + 1 + i) % 16)).find? (fun q =>
    (x.queueDescs q).any (fun d => !d.active && !d.stopped) && !(x.queueDescs q).any (fun d => d.active))

/-- Whether a descriptor that is no move would touch a row under a repair copy: it starts after the copy (R226). -/
def startHeld (p : Pkg) (d : Desc) : Bool :=
  match d.op with
  | 1 => false
  | 2 => dramHeld p d.srcOff (match groupAt p d.srcOff with | some c => d.len * c.groupBytes | none => 64)
  | 3 => dramHeld p d.dstOff d.len
  | _ => dramHeld p d.srcOff d.len

/-- DESCRIPTOR_START (R197): a place is free and a queue has a descriptor waiting. Descriptors already accepted run on when
the bobbin has left ENABLED (R211). -/
def descriptorStart (p : Pkg) (b : BobId) : Pkg :=
  let x := bobOf p b
  if !x.descs.isEmpty ∧ !pairOk p (.bob b) 0x088 then cmpFail p (.bob b)
  else if (x.descs.filter (fun d => d.active)).length < maxActive p b then
    match nextQueue x with
    | some q =>
      match (x.queueDescs q).find? (fun d => !d.active && !d.stopped) with
      | some d => if startHeld p d then p else farMore (putMore (startDesc p b d) b)
      | none => p
    | none => p
  else p

def execDescriptorStart (bob : BobId) (s : State) : Host.Outcome State Fault Refusal := act s (fun p => descriptorStart p bob)

/-- Active descriptors of a bobbin with units still to do go on: at a new round's budget, or when a flag store's earlier
stores have ended (R66, R318). -/
def resumeBob (p : Pkg) (b : BobId) : Pkg :=
  if (activeOrder (bobOf p b)).isEmpty then p
  else if !pairOk p (.bob b) 0x088 then cmpFail p (.bob b)
  else runSides p b

/-! ## Endings of frames (R201, R205, R208) -/

/-- The data of a read reply written at its place (R200, R202): a far load's bytes go to its issuer's handle (R210). -/
def landReply (p : Pkg) (b : BobId) (d : Desc) (mf : MoveFrame) (f : Frame) : Pkg × Status × Nat :=
  match d.source with
  | .far id =>
    match p.creqs.find? (fun r => r.id == id) with
    | some r =>
      let lo := max mf.local_ r.off
      let hi := min (mf.local_ + mf.len) (r.off + r.len)
      if lo < hi then
        let bs := (f.payload.drop (lo - mf.local_)).take (hi - lo)
        let (q, st) := checkAccess p (.bobbin b) (r.dest + (lo - r.off)) bs.length
        if st ≠ Status.done then (q, st, 0)
        else
          (writeLocal q (r.dest + (lo - r.off)) bs (maskTagAt (mf.local_ + r.dest) r.off mf.len f.poison), Status.done
            , popcount 32 f.poison.toNat)
      else (p, Status.done, 0)
    | none => (p, Status.done, 0)
  | _ =>
    let r := bobStore p b mf.local_ f.payload (maskTag mf.local_ mf.len f.poison)
    (r.1, r.2, popcount 32 f.poison.toNat)

/-- The status that a response carries and the kind that it answers (R315). -/
def respStatus (f : Frame) : Status := BitVec.ofNat 16 f.due.toNat
def respKind (f : Frame) : Nat := bits f.due 23 16

/-- A response for a bobbin of a die: its injector is a bobbin. -/
def isMoveResp (die : Fin 4) (x : Delivered) : Bool :=
  x.die == die && x.frame.kind == 8 && !injIsCore x.frame.inj && (respKind x.frame == 4 || respKind x.frame == 5)

/-- The bobbin that an injector field names. -/
def bobOfInj (i : Nat) : Option BobId := bobOfPage ⟨0x15, injInst i⟩

/-- MOVE_FRAME_ACK_RECEIVE (R201): an acknowledgement ends its frame, a read reply is written first; one whose frame has ended
is stray. -/
def moveAck (p : Pkg) (die : Fin 4) : Pkg :=
  match takeInbox p (isMoveResp die) with
  | none => p
  | some (x, q) =>
    match frameHolder q x.frame.seq with
    | some (b, d, mf) =>
      let st := respStatus x.frame
      if mf.read && dramHeld q mf.local_ mf.len then p
      else
      if mf.read ∧ Status.cls st = 0 then
        let r := landReply q b d mf x.frame
        let d := { d with poisoned := d.poisoned + r.2.2 }
        let t := settleFrame (bobPoison r.1 b r.2.2) b d mf (if r.2.1 = Status.done then st else r.2.1)
        keepDesc b (if r.2.1 = Status.done then mirrorUnit t.1 b t.2 (mf.off / max 1 d.len, mf.off % max 1 d.len, mf.len) else t)
      else keepDesc b (settleFrame q b d mf st)
    | none =>
      match bobOfInj x.frame.inj with
      | some b => raise (bump q (.bob b) 0x140 1) (.bob b) evStrayAck
      | none => q

def execMoveFrameAckReceive (die : Fin 4) (s : State) : Host.Outcome State Fault Refusal := act s (fun p => moveAck p die)

/-- ACK_DEADLINE (R201): a frame past its deadline with no answer ends unknown.no_ack. -/
def ackDeadline (p : Pkg) (b : BobId) (s : Word) : Pkg :=
  match frameHolder p s with
  | some (b2, d, f) => if b2 = b ∧ f.deadline.toNat ≤ p.bell.toNat then keepDesc b (settleFrame p b d f Status.unknownNoAck) else p
  | none => p

def execAckDeadline (bob : BobId) (seq : Word) (s : State) : Host.Outcome State Fault Refusal := act s (fun p => ackDeadline p bob seq)

/-- Whether a descriptor is over: it has nothing to issue and no frame outstanding; a waiting one only when it was stopped. -/
def Desc.isOver (d : Desc) : Bool :=
  (d.active || d.stopped) && ((d.todo.isEmpty && d.mtodo.isEmpty) || d.stopped) && d.frames.all (fun f => f.ended.isSome)

/-- The first destination line that a descriptor has not written (R198, R205): what it recorded, what it never issued, the frames that are
still open; a mirror frame never sent counts unless the mirror is lost (R208). -/
def Desc.unwritten (d : Desc) : Option Nat :=
  let open_ := ((d.frames.filter (fun f => f.ended.isNone)).map (fun f => f.off / 64))
    ++ d.todo.map d.lineAt ++ (if d.mirrorLost then [] else d.mtodo.map d.lineAt) ++ (if d.active then [] else [0])
  open_.foldl leastOpt d.firstFail

/-- A descriptor ends (R205, R206): counted; its status is written back, put in the completion FIFO or reported to the far
access; a land's slot has been freed. -/
def endDesc (p : Pkg) (b : BobId) (d : Desc) : Pkg :=
  let x := bobOf p b
  let q := setBob p b { x with descs := x.descs.filter (fun e => e.order != d.order) }
  let q := if Status.cls d.status = 0 then q else raise (bump q (.bob b) 0x120 1) (.bob b) evDescFailed
  let q := endItem q (.bob b) d.tag.toNat d.status
  match d.source with
  | .put i c a =>
    putDone (putTake (writeBack q c a d.poisoned d.tag d.status d.unwritten) i d.status) i
  | .posting =>
    let y := bobOf q b
    setBob q b { y with fifo := y.fifo ++ [(d.queue, d.status, d.tag)], reserved := y.reserved - 1 }
  | .far id =>
    match q.creqs.find? (fun r => r.id == id) with
    | some r => endReq q r d.status false
    | none => q

/-- DESCRIPTOR_END (R205): the first descriptor of a queue that is over ends with its worst status. -/
def descriptorEnd (p : Pkg) (b : BobId) (queue : Nat) : Pkg :=
  match ((bobOf p b).queueDescs queue).find? (fun d => d.isOver) with
  | some d =>
    let q := farMore (putMore (endDesc p b d) b)
    if d.op = 3 then landWaiting q else q
  | none => p

def execDescriptorEnd (bob : BobId) (queue : Fin 16) (s : State) : Host.Outcome State Fault Refusal :=
  act s (fun p => descriptorEnd p bob queue.val)

/-! ## Landing slots (R209) -/

/-- LAND_FULL: bit s says that slot s of a gateway bobbin holds a payload. -/
def landFull (p : Pkg) (k : Fin 8) : Word :=
  BitVec.ofNat 32 (((bobOf p (.gateway k)).slots.map (fun kv => 2 ^ kv.1)).sum)

/-- LAND_FULL_CLEAR (R209): writing 1 frees the slot; a payload that waits for one takes it. -/
def landClear (p : Pkg) (k : Fin 8) (v : Word) : Pkg :=
  let x := bobOf p (.gateway k)
  landWaiting (setBob p (.gateway k) { x with slots := x.slots.filter (fun kv => !bit v kv.1) })

def execLandFullClear (gateway : Fin 8) (value : Word) (s : State) : Host.Outcome State Fault Refusal :=
  act s (fun p => ifOn p (.bob (.gateway gateway)) (fun p => landClear p gateway value))

end Sys2Proof.Machine
end

