-- ==== Sys2Proof/Machine/Commons.lean ====
section
/-! DEFINITION. The commons (R312–R325, R334, R335): requests of the cores, arriving requests, the ledger and twin atomics. -/
namespace Sys2Proof.Machine
open Sys2Proof

/-! ## Registers and tables (R334) -/

/-- The CMN page of a die. -/
def cmnDie (d : Fin 4) : Page := ⟨0x1D, d.val⟩

/-- CMN_CFG.reply_wait and atom_limit in ticks. -/
def replyWait (p : Pkg) (d : Fin 4) : Nat :=
  let v := bits (getReg p (cmnDie d) 0x088) 23 16
  (if v = 0 then 16 else v) * 1000
def atomLimit (p : Pkg) (d : Fin 4) : Nat :=
  let v := bits (getReg p (cmnDie d) 0x088) 31 24
  (if v = 0 then 100 else v) * 10000

/-- Whether a chip has a valid entry in the domain table of a CMN page (R312). -/
def inDomain (p : Pkg) (g : Page) (chip : Chip) : Bool :=
  (List.range 64).any (fun i => bit (entryVal p g 0 i) 31 && bits (entryVal p g 0 i) 15 0 == chip.toNat)

/-- The mirror of a local offset: chip and flow of the first valid range of the mirror table that holds its granule (R324,
R334). Words 0 and 1 are those in force since word 2 committed. -/
def mirrorOf (p : Pkg) (g : Page) (off : Nat) : Option (Chip × Nat) :=
  ((List.range 16).find? (fun r =>
    let first := (entryVal p g 1 (256 + 4 * r)).toNat
    let len := (entryVal p g 1 (257 + 4 * r)).toNat
    bit (entryVal p g 1 (4 * r + 2)) 31 && decide (first ≤ off / 65536) && decide (off / 65536 < first + len))).map (fun r =>
      (BitVec.ofNat 16 (entryVal p g 1 (4 * r + 2)).toNat, bits (entryVal p g 1 (4 * r + 3)) 11 0))

/-- The width of the entries a CMN table defines, as the mask of their fields; none where index or table is reserved (R334). -/
def cmnEntryMask (table idx : Nat) : Option Word :=
  match table with
  | 0 => if idx < 64 then some 0x8000FFFF#32 else none
  | 1 => if idx < 64 then (match idx % 4 with | 0 => some 0xFFFFFFFF#32 | 1 => some 0xFFFFFFFF#32 | 2 => some 0x8000FFFF#32 | _ => some 0xFFF#32) else none
  | _ => none

/-- CMN_TBL_WRITE (R334): the write of TBL_DATA_C. Tables 0 and 1 are taken only while the page is DISABLED. -/
def cmnTblWrite (p : Pkg) (i : Fin 5) (c : Word) : Pkg :=
  let g := Page.cmn i
  let v := getReg p g 0x204
  let a := getReg p g 0x200
  let table := bits a 30 29
  let idx := bits a 9 0
  if c ≠ ~~~v then raise p g evPairErr
  else
    match cmnEntryMask table idx with
    | none => raise p g evRsvdWrite
    | some m =>
      if stateOf p g ≠ .disabled then raise p g 24
      else
        let q := setEntry p g table idx (v &&& m)
        let q := if v &&& ~~~m = 0 then q else raise q g evRsvdWrite
        let q := if table = 1 ∧ idx % 4 = 2 then
            setEntry (setEntry q g 1 (254 + idx) (entryVal q g 1 (idx - 2))) g 1 (255 + idx) (entryVal q g 1 (idx - 1))
          else q
        advance q g 0x200 10

def execCmnTblWrite (inst : Fin 5) (value : Word) (s : State) : Host.Outcome State Fault Refusal :=
  act s (fun p => ifOn p (.cmn inst) (fun p => cmnTblWrite p inst value))

/-! ## Atomics on a line (R320) -/

/-- The operations of R190. -/
def atomNew (opc w : Nat) (old operand compare : Nat) : Nat :=
  let m := 2 ^ w
  let o := old % m
  let x := operand % m
  match opc with
  | 0 => (o + x) % m
  | 1 => if signed w o ≤ signed w x then o else x
  | 2 => if signed w o ≤ signed w x then x else o
  | 3 => min o x
  | 4 => max o x
  | 5 => x
  | 6 => if o = compare % m then x else o
  | 7 => o &&& x
  | 8 => o ||| x
  | _ => o ^^^ x

/-- Whether an operation code is defined, and the offset aligned to its width (R190, R320). -/
def atomFormOk (opc off : Nat) (wide : Bool) : Bool := decide (opc ≤ 9) && off % (if wide then 8 else 4) == 0

/-- One indivisible read-modify-write of a DRAM line: the old and the new value; a poisoned line is not touched (R320). -/
def atomApply (p : Pkg) (off opc : Nat) (wide : Bool) (operand compare : DWord) : Except Status (Pkg × DWord × DWord) :=
  let n := if wide then 8 else 4
  if localPoisoned p off n then .error Status.failedPoison
  else
    let old := leNat (readLocal p off n)
    let new := atomNew opc (8 * n) old operand.toNat compare.toNat
    .ok (countDram (countDram (writeLocal p off (leBytes n new) noTag) off n false) off n true, BitVec.ofNat 64 old, BitVec.ofNat 64 new)

/-! ## Requests at the source (R312, R313, R316, R318, R321, R323) -/

/-- Checks 3 to 5 for a commons access to DRAM of this package: any other range is private (R313). -/
def dramReach (p : Pkg) (off n : Nat) : Status :=
  if rangeOf off = .hole ∨ !sameRange off n then Status.refusedUnmapped
  else if !inDram off then Status.refusedPrivate
  else if !rangeServes p off n then Status.refusedOffline
  else Status.done

/-- The same for a write: a page retired unrelieved takes none (R227). -/
def dramWrite (p : Pkg) (off n : Nat) : Status :=
  if dramReach p off n = Status.done ∧ writeBarred p off n then Status.refusedOffline else dramReach p off n

/-- The result register of an atomic, which its request names, written while its instruction has not retired. -/
def writeResult (p : Pkg) (r : CReq) (v : DWord) : Pkg :=
  if p.insts.any (fun i => i.id == r.inst) then setCtx p r.ctx (setSreg (ctxOf p r.ctx) r.dest v) else p

/-- The data of a load written to its destination in the issuer's store; asleep banks refuse it (R152, R316). -/
def landLoad (p : Pkg) (r : CReq) (bs : List Byte) (mask : Word) : Pkg × Status :=
  match rangeOf r.dest with
  | .store st o =>
    if rangeAsleep p st o r.len then (countAsleep p st, Status.refusedAsleep)
    else (writeLocal p r.dest bs (maskTag r.dest r.len mask), Status.done)
  | _ => (p, Status.refusedUnmapped)

/-- A request that names the own chip goes to the local map, DRAM alone (R30, R313, R319). -/
def localReq (p : Pkg) (r : CReq) : Pkg :=
  let n := if r.kind = 6 then (if r.wide then 8 else 4) else r.len
  let st := if r.kind = 5 then dramReach p r.off n else dramWrite p r.off n
  if st ≠ Status.done then endReq (countRefusal p (cmnOfOffset p r.off)) r st false
  else if r.kind = 4 then
    let q := writeLocal (countDram p r.off r.len true) r.off (readLocal p r.dest r.len) (maskTag r.off r.len (readMask p r.dest r.len))
    endReq q r Status.done false
  else if r.kind = 5 then
    let mask := readMask p r.off r.len
    let l := landLoad (countDram p r.off r.len false) r (readLocal p r.off r.len) mask
    endReq l.1 r (if l.2 ≠ Status.done then l.2 else if mask = 0 then Status.done else Status.donePoisoned) false
  else
    match atomApply p r.off r.opc r.wide r.operand r.compare with
    | .error st => endReq p r st false
    | .ok (q, old, _) => endReq (writeResult q r (if r.fetch then old else 0)) r Status.done false

/-- The frame of a request (R314). -/
def reqFrame (p : Pkg) (r : CReq) (due : DWord) : Frame :=
  { kind := r.kind, cls := if r.flow = 0xFFF then 2 else 1, flag := r.flag, last := true, dst := r.chip, src := ownChip p
    flow := r.flow, due := due, off := r.off, inj := injCore r.ctx.core, seq := r.seq
    payload :=
      (if r.kind = 4 then readLocal p r.dest r.len
      else if r.kind = 5 then leBytes 8 r.len
      else leBytes 1 (r.opc + (if r.wide then 16 else 0) + (if r.fetch then 32 else 0)) ++ leBytes 1 r.ctx.core.die.val ++ [0, 0]
        ++ leBytes 4 (r.ledger.getD 0).toNat
        ++ leBytes 8 (if r.wide then r.operand.toNat else r.operand.toNat % 2 ^ 32)
        ++ leBytes 8 (if r.opc = 6 then (if r.wide then r.compare.toNat else r.compare.toNat % 2 ^ 32) else 0)
        ++ List.replicate 8 0)
    poison := if r.kind = 4 then readMask p r.dest r.len else 0 }

/-- Payload bytes of a request. -/
def CReq.payloadLen (r : CReq) : Nat := if r.kind = 4 then r.len else if r.kind = 5 then 8 else 32

/-- The counters of a request that is sent for the first time. -/
def countReq (p : Pkg) (r : CReq) : Pkg :=
  let g := r.cmn
  let q := if r.kind = 5 then bump p g 0x100 1 else if r.kind = 6 then bump p g 0x110 1 else bump p g 0x108 1
  tallyIn (if r.flag then bump q g 0x118 1 else q) g 1

/-- One copy of a request sent, or the request left waiting for budget, or refused at admission (R66, R316, R323). Its deadline uses
CMN_CFG; one that fails its complement check puts the unit in FAULT, which takes no new request (R42, R334). -/
def sendReq (p : Pkg) (r : CReq) : Pkg :=
  let d := r.ctx.core.die
  match admitLine p d r.flow r.dueReq r.payloadLen (0, r.id) r.ticket with
  | .no st =>
    if r.copies = 0 then endReq p r st false
    else if !pairOk p (cmnDie d) 0x088 then cmpFail p (cmnDie d)
    else updReq p { r with stage := .sent, ticket := 0, deadline := p.bell + BitVec.ofNat 64 (replyWait p d) }
  | .wait => updReq p { r with stage := .budget, ticket := takeTicket p d r.flow r.ticket }
  | .ok due =>
    if !pairOk p (cmnDie d) 0x088 then
      let q := cmpFail p (cmnDie d)
      if r.copies = 0 then endReq q r Status.refusedOffline false else q
    else
    let first := r.copies = 0
    let q := if first then countReq p r else bump p r.cmn 0x140 1
    let (q, s) := if first then freshSeq q else (q, r.seq)
    let ref := if r.flow = 0xFFF then p.bell else due
    let r := { r with
      stage := .sent, seq := s, copies := r.copies + 1, firstAt := if first then p.bell else r.firstAt
      deadline := ref + BitVec.ofNat 64 (replyWait p d), ticket := 0 }
    inject (debit (updReq q r) d r.flow r.payloadLen) d (reqFrame q r due)

/-- Whether an earlier store of a flag store's context is still open, or failed (R318). -/
def flagOpen (p : Pkg) (r : CReq) : Bool :=
  p.creqs.any (fun x => x.ctx == r.ctx && x.kind == 4 && decide (x.id < r.id))
    || p.bobs.any (fun kv => kv.2.descs.any (fun e => (Desc.task kv.1 e) == some (.ctx r.ctx) && decide (e.order < r.id) && e.writesOpen))
def flagBad (p : Pkg) (r : CReq) : Bool :=
  match (ctxOf p r.ctx).firstBad with
  | some b => decide (b < r.id)
  | none => false

/-- Whether a ledger sequence may be taken: next − lowest unresolved < 8 (R321). -/
def windowRoom (a : AtomWin) : Bool := (a.outstanding ++ a.pinned).all (fun s => decide ((a.next - s).toNat < 8))

/-- A request goes on from where it stands: its flag store's order, which binds one to the own chip too, its atomic window, its path
(R210, R312, R318, R321). -/
def goReq (p : Pkg) (r : CReq) : Pkg :=
  let d := r.ctx.core.die
  if r.flag && flagOpen p r then updReq p { r with stage := .flagHeld }
  else if r.flag && flagBad p r then endReq (raise (bump p r.cmn 0x158 1) r.cmn 19) r Status.failedOrder false
  else if r.chip = ownChip p then localReq p r
  else if !inDomain p (cmnDie d) r.chip then
    (if inSlice p d r.chip then farConvert p r else endReq p r Status.refusedSlice false)
  else if r.kind = 6 ∧ r.ledger = none then
    let a := atomWinOf p d r.chip
    if windowRoom a then
      let q := setAtomWin p d r.chip { a with next := a.next + 1, outstanding := a.outstanding ++ [a.next] }
      let r := { r with ledger := some a.next }
      sendReq (updReq q r) r
    else updReq p { r with stage := .window }
  else sendReq p r

/-- A commons request enters (R312): listed, then refused, or on its way. -/
def startReq (p : Pkg) (r : CReq) : Pkg :=
  let q := { p with creqs := p.creqs ++ [r] }
  if r.chip = ownChip p then goReq q r
  else if p.quarantined then endReq q r Status.refusedQuarantined false
  else if !enabled p r.cmn then endReq q r Status.refusedOffline false
  else if fenced p r.chip then endReq q r Status.refusedFenced false
  else goReq q r

/-- A request whose outcome stays open ends and is counted; an atomic is logged, reported and sets its event (R316, R323). -/
def endUnknown (p : Pkg) (r : CReq) (st : Status) (pin : Bool) : Pkg :=
  let g := r.cmn
  let q := if st = Status.unknownTargetLost then (if r.kind = 6 then raise (bump p g 0x130 1) g 17 else bump p g 0x130 1)
    else if st = Status.unknownNoReply then raise (bump p g 0x138 1) g 18 else p
  endReq (if r.kind = 6 then atomLog q r st else q) r st pin

/-- A load whose target is dead (R316): dead_target, DEAD_TARGET, Caselm's record. -/
def endDead (p : Pkg) (r : CReq) : Pkg :=
  endReq (record (raise (bump p r.cmn 0x120 1) r.cmn 16) (some r.cmn) 16 Status.failedDeadTarget 2 false [r.chip.toNat, r.off]) r Status.failedDeadTarget false

/-- Another copy of an atomic (R323): while the target is not fenced and atom_limit has not passed. -/
def resendAtom (p : Pkg) (r : CReq) : Pkg :=
  usePairs p (cmnDie r.ctx.core.die) [0x088] (fun p =>
    if !fenced p r.chip ∧ p.bell.toNat < r.firstAt.toNat + atomLimit p r.ctx.core.die then sendReq p r else p)

/-! ## The ledger (R322, R324) -/

/-- s < t among sequences, modulo 2³², in the nearer order (R321). -/
def seqLess (s t : Word) : Bool := s != t && decide ((t - s).toNat < 2 ^ 31)

/-- The lowest entry of a key. -/
def lowestEntry (l : List LedgerEntry) : Option LedgerEntry :=
  l.foldl (fun o e => match o with | some m => if seqLess e.seq m.seq then some e else some m | none => some e) none

/-- A key's entries with a new one, which replaces the lowest when 8 are held (R322). -/
def addEntry (l : List LedgerEntry) (e : LedgerEntry) : List LedgerEntry :=
  match (if l.length < 8 then none else lowestEntry l) with
  | some m => l.filter (fun x => x.seq != m.seq) ++ [e]
  | none => l ++ [e]

/-- The payload of an atomic's response (R315). -/
def atomReply (old : DWord) (fetch : Bool) (seq : Word) (cached stale : Bool) : List Byte :=
  leBytes 8 (if fetch then old.toNat else 0) ++ leBytes 4 seq.toNat
    ++ leBytes 1 ((if cached then 1 else 0) + (if stale then 2 else 0)) ++ [0, 0, 0]

/-- The fields of an atomic's payload (R314). -/
def atomSeq (f : Frame) : Word := BitVec.ofNat 32 (leField f.payload 4 4)
def atomDie (f : Frame) : Nat := leField f.payload 1 1 % 4
def atomOpc (f : Frame) : Nat := leField f.payload 0 1 % 16
def atomWide (f : Frame) : Bool := (leField f.payload 0 1).testBit 4
def atomFetch (f : Frame) : Bool := (leField f.payload 0 1).testBit 5
def atomTwin (f : Frame) : Bool := (leField f.payload 0 1).testBit 6
def atomOperand (f : Frame) : DWord := BitVec.ofNat 64 (leField f.payload 8 8)
def atomCompare (f : Frame) : DWord := BitVec.ofNat 64 (leField f.payload 16 8)

/-- Whether an atomic's payload has its length and zero reserved fields, and a 32-bit one zero upper bits (R314). -/
def atomPayloadOk (f : Frame) : Bool :=
  f.payload.length == 32 && leField f.payload 0 1 / 128 == 0 && leField f.payload 1 1 / 4 == 0
    && (atomTwin f || leField f.payload 2 2 == 0) && leField f.payload 24 8 == 0
    && (atomWide f || (leField f.payload 12 4 == 0 && leField f.payload 20 4 == 0))

/-- A response leaves the die; CMN's item ends (R315, R334). -/
def reply (p : Pkg) (d : Fin 4) (f : Frame) (st : Status) (payload : List Byte) (mask : Word) : Pkg :=
  inject (tallyOut p (cmnDie d) 1) d (respFrame p f st payload mask)

/-- An atomic's reply: the LEDG item ends too. -/
def replyAtom (p : Pkg) (d : Fin 4) (f : Frame) (st : Status) (payload : List Byte) : Pkg :=
  reply (tallyOut p (.ledg d) 1) d f st payload 0

/-- The own entries of a key and their replacement. -/
def ownEntries (p : Pkg) (d : Fin 4) (k : Chip × Nat) : List LedgerEntry := Map.getD (ledgerOf p d).own k []
def setOwn (p : Pkg) (d : Fin 4) (k : Chip × Nat) (l : List LedgerEntry) : Pkg :=
  setLedger p d { ledgerOf p d with own := Map.put (ledgerOf p d).own k l }

/-- The twin atomic of an applied one (R324): the header and payload of R314 with twin = 1. -/
def twinFrameOf (p : Pkg) (d : Fin 4) (f : Frame) (m : Chip × Nat) (s : Word) (due : DWord) (old new : DWord) : Frame :=
  { kind := 6, cls := if m.2 = 0xFFF then 2 else 1, flag := false, last := true, dst := m.1, src := ownChip p, flow := m.2
    due := due, off := f.off, inj := injField true d.val 0xFF, seq := s
    payload := leBytes 1 (atomOpc f + (if atomWide f then 16 else 0) + (if atomFetch f then 32 else 0) + 64) ++ leBytes 1 (atomDie f)
      ++ leBytes 2 f.src.toNat ++ leBytes 4 (atomSeq f).toNat ++ leBytes 8 new.toNat ++ leBytes 8 old.toNat ++ List.replicate 8 0
    poison := 0 }

/-- A pending entry completes (R322, R324): its request and every copy held under row 2 are answered. -/
def completeEntry (p : Pkg) (d : Fin 4) (k : Chip × Nat) (e : LedgerEntry) (st : Status) : Pkg :=
  let p := setOwn p d k ((ownEntries p d k).map (fun x => if x.seq = e.seq then { x with pending := false, status := st, request := none } else x))
  let p := match e.request with
    | some f => replyAtom p d f st (atomReply e.old (atomFetch f) e.seq false false)
    | none => p
  let mine (f : Frame) : Bool := f.src == k.1 && atomDie f == k.2 && atomSeq f == e.seq
  let held := (ledgerOf p d).held.filter mine
  let p := setLedger p d { ledgerOf p d with held := (ledgerOf p d).held.filter (fun f => !mine f) }
  held.foldl (fun q f => replyAtom (bump q (.ledg d) 0x108 1) d f st (atomReply e.old (atomFetch f) e.seq true false)) p

/-- The mirror is unreachable for an atomic: it completes locally, done.unmirrored (R324); Caselm adds the line to the exposed
regions. -/
def completeUnmirrored (p : Pkg) (d : Fin 4) (k : Chip × Nat) (e : LedgerEntry) : Pkg :=
  let off := match e.request with | some f => f.off | none => 0
  completeEntry (addExposed (record (raise (bump p (.ledg d) 0x128 1) (.ledg d) 17) (some (.ledg d)) 17 Status.doneUnmirrored 1 false [off]) (off / 64 * 64) 64) d k e Status.doneUnmirrored

/-- The value that an applied atomic wrote: the operation on the old value that its entry keeps. -/
def writtenBy (f : Frame) (old : DWord) : DWord :=
  BitVec.ofNat 64 (atomNew (atomOpc f) (if atomWide f then 64 else 32) old.toNat (atomOperand f).toNat (atomCompare f).toNat)

/-- The twin of a pending entry goes its way (R66, R324): admitted and sent on the range's flow, left waiting for budget in the
flow's line, or, with the mirror fenced or the flow refused, completed unmirrored. -/
def sendTwin (p : Pkg) (d : Fin 4) (k : Chip × Nat) (e : LedgerEntry) (f : Frame) (m : Chip × Nat) : Pkg :=
  match (if fenced p m.1 then .no Status.refusedFenced else admitLine p d m.2 none 32 (3, e.seq.toNat) e.ticket) with
  | .no _ => completeUnmirrored (setOwn p d k (addEntry (ownEntries p d k) { e with ticket := 0 })) d k e
  | .wait => setOwn p d k (addEntry (ownEntries p d k) { e with flow := m.2, ticket := takeTicket p d m.2 e.ticket })
  | .ok due =>
    if m.2 = 0xFFF ∧ !pairOk p (cmnDie d) 0x088 then
      completeUnmirrored (setOwn (cmpFail p (cmnDie d)) d k (addEntry (ownEntries p d k) { e with ticket := 0 })) d k e
    else
    let (p, s) := freshSeq p
    let dl := if m.2 = 0xFFF then p.bell + BitVec.ofNat 64 (replyWait p d) else due + 65536
    let p := setOwn p d k (addEntry (ownEntries p d k) { e with twinSeq := s, deadline := dl, flow := m.2, ticket := 0 })
    inject (debit (bump p (.ledg d) 0x118 1) d m.2 32) d (twinFrameOf p d f m s due e.old (writtenBy f e.old))

/-- An atomic applied and its entry made (R322 row 3, R324): unmirrored lines are answered at once; mirrored ones wait for the
twin's acknowledgement. -/
def applyEntry (p : Pkg) (d : Fin 4) (f : Frame) (old : DWord) : Pkg :=
  let k := (f.src, atomDie f)
  let p := bump p (.ledg d) 0x100 1
  let e : LedgerEntry := ⟨atomSeq f, old, Status.done, false, none, 0, 0, 0, 0⟩
  match mirrorOf p (cmnDie d) f.off with
  | none => replyAtom (setOwn p d k (addEntry (ownEntries p d k) e)) d f Status.done (atomReply old (atomFetch f) (atomSeq f) false false)
  | some m => sendTwin p d k { e with pending := true, request := some f } f m

/-- The rows of R322, in order. -/
def ledgerDecide (p : Pkg) (d : Fin 4) (f : Frame) : Pkg :=
  let l := ownEntries p d (f.src, atomDie f)
  let s := atomSeq f
  match l.find? (fun e => e.seq == s) with
  | some e =>
    if e.pending then setLedger p d { ledgerOf p d with held := (ledgerOf p d).held ++ [f] }
    else replyAtom (bump p (.ledg d) 0x108 1) d f e.status (atomReply e.old (atomFetch f) s true false)
  | none =>
    let row3 := decide (l.length < 8) || (match lowestEntry l with | some m => seqLess m.seq s | none => true)
    if row3 then
      match atomApply p f.off (atomOpc f) (atomWide f) (atomOperand f) (atomCompare f) with
      | .error st => replyAtom p d f st (atomReply 0 false s false false)
      | .ok (q, old, _) => applyEntry q d f old
    else replyAtom (raise (bump p (.ledg d) 0x110 1) (.ledg d) 16) d f Status.refusedStale (atomReply 0 false s false true)

/-! ## Arriving requests (R313–R315, R332, R334) -/

/-- Checks 3 to 7 of R32 for an arriving access of n bytes (R313): a core reaches DRAM alone; a bobbin DRAM, and the stores
through their windows. -/
def arriveCheck (p : Pkg) (f : Frame) (write : Bool) (n : Nat) : Pkg × Status :=
  let st :=
    if rangeOf f.off = .hole ∨ !sameRange f.off n then Status.refusedUnmapped
    else if !permitted (.remote f.src) (rangeOf f.off) || (injIsCore f.inj && !inDram f.off) then Status.refusedPrivate
    else if !rangeServes p f.off n || (write && writeBarred p f.off n) then Status.refusedOffline
    else Status.done
  if st ≠ Status.done then (noteRefusal p f.off st, st)
  else
    match rangeOf f.off with
    | .store s o => winAdmit p s write f.src f.inj o n
    | _ => (p, Status.done)

/-- What stops every arriving request before its checks (R332, R334). -/
def arriveBar (p : Pkg) (d : Fin 4) : Status :=
  if p.quarantined then Status.refusedQuarantined else if !enabled p (cmnDie d) then Status.refusedOffline else Status.done

/-- A delivered frame of a kind on a die. -/
def isKind (die : Fin 4) (k : Nat) (x : Delivered) : Bool := x.die == die && x.frame.kind == k

/-- COMMONS_WRITE_RECEIVE (R314): a write frame is written whole or refused, and answered. -/
def serveWrite (p : Pkg) (d : Fin 4) : Pkg :=
  serveNext p (isKind d 4) (fun q x =>
    let f := x.frame
    let q := tallyIn q (cmnDie d) 1
    if arriveBar q d ≠ Status.done then reply q d f (arriveBar q d) [] 0
    else
      let r := arriveCheck q f true f.payload.length
      if r.2 ≠ Status.done then reply r.1 d f r.2 [] 0
      else
        let n := f.payload.length
        reply (writeLocal (countDram r.1 f.off n true) f.off f.payload (maskTag f.off n f.poison)) d f Status.done [] 0)

def execCommonsWriteReceive (die : Fin 4) (s : State) : Host.Outcome State Fault Refusal := act s (fun p => serveWrite p die)

/-- COMMONS_READ_RECEIVE (R314, R315): a read request is answered with its data and line poison mask; a malformed one ends
failed.format (log entry 15). -/
def serveRead (p : Pkg) (d : Fin 4) : Pkg :=
  serveNext p (isKind d 5) (fun q x =>
    let f := x.frame
    let q := tallyIn q (cmnDie d) 1
    let n := leField f.payload 0 2
    if arriveBar q d ≠ Status.done then reply q d f (arriveBar q d) [] 0
    else if f.payload.length ≠ 8 ∨ leField f.payload 2 6 ≠ 0 ∨ n < 4 ∨ 2048 < n ∨ n % 4 ≠ 0 then reply q d f Status.failedFormat [] 0
    else
      let r := arriveCheck q f false n
      if r.2 ≠ Status.done then reply r.1 d f r.2 [] 0
      else
        let mask := readMask q f.off n
        reply (countDram r.1 f.off n false) d f (if mask = 0 then Status.done else Status.donePoisoned) (readLocal q f.off n) mask)

def execCommonsReadReceive (die : Fin 4) (s : State) : Host.Outcome State Fault Refusal := act s (fun p => serveRead p die)

/-- COMMONS_ATOMIC_RECEIVE (R313, R320, R322): the form, the domain, the range, then the rows of the ledger. -/
def serveAtomic (p : Pkg) (d : Fin 4) : Pkg :=
  serveNext p (fun x => isKind d 6 x && !atomTwin x.frame) (fun q x =>
    let f := x.frame
    let q := tallyIn (tallyIn q (cmnDie d) 1) (.ledg d) 1
    let no (q : Pkg) (st : Status) : Pkg := replyAtom q d f st (atomReply 0 false (atomSeq f) false false)
    let n := if atomWide f then 8 else 4
    if arriveBar q d ≠ Status.done then no q (arriveBar q d)
    else if !enabled q (.ledg d) then no q Status.refusedOffline
    else if !inDomain q (cmnDie d) f.src then no q Status.refusedFarAtomic
    else if !atomPayloadOk f || !atomFormOk (atomOpc f) f.off (atomWide f) then no q Status.failedFormat
    else if dramWrite q f.off n ≠ Status.done then no (countRefusal q (cmnOfOffset q f.off)) (dramWrite q f.off n)
    else ledgerDecide q d f)

def execCommonsAtomicReceive (die : Fin 4) (s : State) : Host.Outcome State Fault Refusal := act s (fun p => serveAtomic p die)

/-- TWIN_ATOMIC_RECEIVE (R324): the mirror writes the new value, makes its twin entry and acknowledges; the twin section
serves one primary. -/
def serveTwin (p : Pkg) (d : Fin 4) : Pkg :=
  serveNext p (fun x => isKind d 6 x && atomTwin x.frame) (fun q x =>
    let f := x.frame
    let q := tallyIn (tallyIn q (cmnDie d) 1) (.ledg d) 1
    let no (q : Pkg) (st : Status) : Pkg := replyAtom q d f st (atomReply 0 false (atomSeq f) false false)
    let n := if atomWide f then 8 else 4
    let l := ledgerOf q d
    if arriveBar q d ≠ Status.done then no q (arriveBar q d)
    else if !enabled q (.ledg d) then no q Status.refusedOffline
    else if !atomPayloadOk f || !atomFormOk (atomOpc f) f.off (atomWide f) then no q Status.failedFormat
    else if dramWrite q f.off n ≠ Status.done then no (countRefusal q (cmnOfOffset q f.off)) (dramWrite q f.off n)
    else if l.primary.isSome ∧ l.primary ≠ some f.src then no (raise q (.ledg d) 18) Status.refusedBusy
    else
      let k := (BitVec.ofNat 16 (leField f.payload 2 2), atomDie f)
      let e : LedgerEntry := ⟨atomSeq f, atomCompare f, Status.done, false, none, 0, 0, 0, 0⟩
      let q := setLedger q d { l with primary := some f.src, twin := Map.put l.twin k (addEntry (Map.getD l.twin k []) e) }
      let q := writeLocal (countDram q f.off n true) f.off (leBytes n (atomOperand f).toNat) noTag
      replyAtom (bump q (.ledg d) 0x120 1) d f Status.done (atomReply 0 false (atomSeq f) false false))

def execTwinAtomicReceive (die : Fin 4) (s : State) : Host.Outcome State Fault Refusal := act s (fun p => serveTwin p die)

/-- The pending entry whose twin has an item sequence. -/
def pendingTwin (p : Pkg) (s : Word) : Option (Fin 4 × (Chip × Nat) × LedgerEntry) :=
  p.ledgers.findSome? (fun kv => kv.2.own.findSome? (fun oe =>
    (oe.2.find? (fun e => e.pending && e.ticket == 0 && e.twinSeq == s)).map (fun e => (kv.1, oe.1, e))))

/-- A response to a twin atomic. -/
def isTwinResp (die : Fin 4) (x : Delivered) : Bool :=
  isKind die 8 x && respKind x.frame == 6 && injIsCore x.frame.inj && injInst x.frame.inj == 0xFF

/-- TWIN_ACK_RECEIVE (R324): the primary replies once the mirror has acknowledged; a refusal leaves the mirror unreachable. -/
def twinAck (p : Pkg) (d : Fin 4) : Pkg :=
  match takeInbox p (isTwinResp d) with
  | none => p
  | some (x, q) =>
    match pendingTwin q x.frame.seq with
    | some (e, k, n) => if respStatus x.frame = Status.done then completeEntry q e k n Status.done else completeUnmirrored q e k n
    | none => q

def execTwinAckReceive (die : Fin 4) (s : State) : Host.Outcome State Fault Refusal := act s (fun p => twinAck p die)

/-! ## Responses and deadlines at the source -/

/-- A response to a core's request. -/
def isCoreResp (die : Fin 4) (x : Delivered) : Bool :=
  isKind die 8 x && injIsCore x.frame.inj && injInst x.frame.inj != 0xFF && decide (4 ≤ respKind x.frame) && decide (respKind x.frame ≤ 6)

/-- A response with the stale flag (R322). -/
def respStale (f : Frame) : Bool := respKind f == 6 && (leField f.payload 12 1).testBit 1

/-- A response for a sequence that no request waits for: a pinned atomic's pin is released (R323); others are discarded. -/
def lateResponse (p : Pkg) (d : Fin 4) (f : Frame) : Pkg :=
  let s : Word := BitVec.ofNat 32 (leField f.payload 8 4)
  let a := atomWinOf p d f.src
  if respKind f = 6 ∧ a.pinned.contains s then
    record (raise (setAtomWin p d f.src { a with pinned := a.pinned.filter (· != s) }) (cmnDie d) 25) (some (cmnDie d)) 25
      (respStatus f) 1 false [f.src.toNat, s.toNat]
  else p

/-- A response ends its request (R315, R316, R323). -/
def endByResponse (p : Pkg) (r : CReq) (f : Frame) : Pkg :=
  let st := respStatus f
  if r.kind = 5 ∧ (st = Status.done ∨ st = Status.donePoisoned) then
    let l := landLoad p r f.payload f.poison
    endReq l.1 r (if l.2 = Status.done then st else l.2) false
  else if r.kind = 6 ∧ st = Status.done then
    endReq (writeResult p r (BitVec.ofNat 64 (leField f.payload 0 8))) r st false
  else endReq p r st false

/-- COMMONS_RESPONSE_RECEIVE (R316, R323). -/
def coreResponse (p : Pkg) (d : Fin 4) : Pkg :=
  match takeInbox p (isCoreResp d) with
  | none => p
  | some (x, q) =>
    if respStale x.frame then bump q (cmnDie d) 0x148 1
    else
      match reqBySeq q x.frame.seq with
      | some r => endByResponse q r x.frame
      | none => lateResponse q d x.frame

def execCommonsResponseReceive (die : Fin 4) (s : State) : Host.Outcome State Fault Refusal := act s (fun p => coreResponse p die)

/-- REPLY_DEADLINE (R316, R323): a request of a sequence past its deadline; a pending twin past its own (R324). -/
def replyDeadline (p : Pkg) (s : Word) : Pkg :=
  match reqBySeq p s with
  | some r =>
    if p.bell.toNat < r.deadline.toNat then p
    else if r.kind = 5 then endDead p r
    else if r.kind = 4 then endReq (bump p r.cmn 0x128 1) r Status.unknownNoAck false
    else resendAtom p r
  | none =>
    match pendingTwin p s with
    | some (d, k, e) => if p.bell.toNat < e.deadline.toNat then p else completeUnmirrored p d k e
    | none => p

def execReplyDeadline (seq : Word) (s : State) : Host.Outcome State Fault Refusal := act s (fun p => replyDeadline p seq)

/-- ATOM_WINDOW_RELEASE (R321): the first atomic that waits for the window of a chip goes on when there is room. -/
def atomWindowRelease (p : Pkg) (d : Fin 4) (chip : Chip) : Pkg :=
  match p.creqs.find? (fun r => r.stage == .window && r.ctx.core.die == d && r.chip == chip) with
  | some r => if windowRoom (atomWinOf p d chip) then goReq p r else p
  | none => p

def execAtomWindowRelease (die : Fin 4) (chip : Chip) (s : State) : Host.Outcome State Fault Refusal :=
  act s (fun p => atomWindowRelease p die chip)

/-- ATOM_LIMIT_EXPIRY (R321, R323): an atomic that has waited atom_limit for the window ends refused.busy; one whose first copy
is atom_limit old ends unknown.no_reply, its sequence pinned. -/
def atomLimitExpiry (p : Pkg) (id : Nat) : Pkg :=
  match p.creqs.find? (fun r => r.id == id && r.kind == 6) with
  | some r => usePairs p (cmnDie r.ctx.core.die) [0x088] (fun p =>
    if p.bell.toNat < r.firstAt.toNat + atomLimit p r.ctx.core.die then p
    else if r.copies > 0 then endUnknown p r Status.unknownNoReply true
    else if r.stage = .window then endReq p r Status.refusedBusy false
    else p)
  | none => p

def execAtomLimitExpiry (id : Nat) (s : State) : Host.Outcome State Fault Refusal := act s (fun p => atomLimitExpiry p id)

/-- FLAG_STORE_RELEASE (R318): a held flag store whose earlier stores have all ended goes on or ends failed.order; a bobbin
whose flagged frame waits goes on. -/
def flagRelease (p : Pkg) (id : Nat) : Pkg :=
  match p.creqs.find? (fun r => r.id == id && r.stage == .flagHeld) with
  | some r => if flagOpen p r then p else goReq p r
  | none =>
    match p.bobs.find? (fun kv => kv.2.descs.any (fun d => d.order == id)) with
    | some kv => resumeBob p kv.1
    | none => p

def execFlagStoreRelease (id : Nat) (s : State) : Host.Outcome State Fault Refusal := act s (fun p => flagRelease p id)

/-- The pending entries of a die whose twins wait for budget, with their keys (R66, R324). -/
def waitingTwins (p : Pkg) (d : Fin 4) : List ((Chip × Nat) × LedgerEntry) :=
  (ledgerOf p d).own.flatMap (fun kv => (kv.2.filter (fun e => e.pending && e.ticket != 0)).map (fun e => (kv.1, e)))

/-- The places taken in the lines of a die's flows, rising and each once. -/
def takenPlaces (p : Pkg) (d : Fin 4) : List Nat :=
  (((p.creqs.filter (fun r => r.ctx.core.die == d)).map CReq.ticket
    ++ p.bobs.flatMap (fun kv => if kv.1.die = d then kv.2.descs.flatMap (fun e => [e.ticket, e.mticket]) else [])
    ++ (waitingTwins p d).map (fun e => e.2.ticket)).filter (· != 0)).foldl insertLine []

/-- What stands at a place of a line checked again from order 1 (R66): a request, a bobbin's descriptor, a twin atomic. -/
def recheckPlace (p : Pkg) (d : Fin 4) (t : Nat) : Pkg :=
  let q := ((p.creqs.filter (fun r => r.stage == .budget && r.ctx.core.die == d && r.ticket == t)).map CReq.id).foldl (fun q i =>
    match q.creqs.find? (fun r => r.id == i && r.stage == .budget) with
    | some r => sendReq q r
    | none => q) p
  let q := (q.bobs.map (fun kv => kv.1)).foldl (fun q b =>
    if b.die = d ∧ (bobOf q b).descs.any (fun e => e.ticket == t || e.mticket == t) then resumeBob q b else q) q
  ((waitingTwins q d).filter (fun e => e.2.ticket == t)).foldl (fun q e =>
    match e.2.request with
    | some f => (match mirrorOf q (cmnDie d) f.off with
      | some m => sendTwin (setOwn q d e.1 ((ownEntries q d e.1).filter (fun x => x.seq != e.2.seq))) d e.1 e.2 f m
      | none => q)
    | none => q) q

/-- BUDGET_WAIT_RECHECK (R66): what waits for budget on a die is checked again, in the order of its lines. A chunk goes on with its
own CHUNK_SEND. -/
def budgetRecheck (p : Pkg) (d : Fin 4) : Pkg := (takenPlaces p d).foldl (fun q t => recheckPlace q d t) p

def execBudgetWaitRecheck (die : Fin 4) (s : State) : Host.Outcome State Fault Refusal := act s (fun p => budgetRecheck p die)

/-- LQ_CMD with go (R325, R335): the key looked up among own or twin entries. -/
def ledgerLookup (p : Pkg) (d : Fin 4) (primary source : Chip) (sd : Nat) (s : Word) : Option LedgerEntry :=
  let l := ledgerOf p d
  if primary = ownChip p then (Map.getD l.own (source, sd) []).find? (fun e => e.seq == s)
  else if l.primary = some primary then (Map.getD l.twin (source, sd) []).find? (fun e => e.seq == s)
  else none

def lqGo (p : Pkg) (d : Fin 4) (sd : Fin 4) : Pkg :=
  let g := Page.ledg d
  let k0 := getReg p g 0x200
  let r := ledgerLookup p d (BitVec.ofNat 16 (bits k0 31 16)) (BitVec.ofNat 16 (bits k0 15 0)) sd.val (getReg p g 0x204)
  let w : Nat := match r with | some e => 0xC0000000 + e.status.toNat | none => 0x80000000
  let v : DWord := match r with | some e => e.old | none => 0
  raise (setReg64 (setReg p g 0x20C (BitVec.ofNat 32 w)) g 0x210 v) g 19

def execLqCmdGo (die : Fin 4) (sourceDie : Fin 4) (s : State) : Host.Outcome State Fault Refusal :=
  act s (fun p => ifOn p (.ledg die) (fun p => lqGo p die sourceDie))

end Sys2Proof.Machine
end

