-- ==== Sys2Proof/Machine/Fence.lean ====
section
/-! DEFINITION. Fencing and quarantine (R328–R333), and the sampler pass (R408). -/
namespace Sys2Proof.Machine
open Sys2Proof

/-- All five CMN pages. -/
def cmnPages : List Page := [.cmn 0, .cmn 1, .cmn 2, .cmn 3, .cmn 4]

/-- Whether a chip is in slice on this package (R296): every die holds the same table; one that says so is enough. -/
def chipInSlice (p : Pkg) (chip : Chip) : Bool := (List.finRange 4).any (fun d => inSlice p d chip)

/-! ## Quarantine (R332) -/

/-- One block goes to QUARANTINED with cause 0x04 (R43): from ENABLED it begins its drain; a DRAINING one keeps the drain it
is in. -/
def quarantineBlock (p : Pkg) (g : Page) : Pkg :=
  match stateOf p g with
  | .enabled => leaveOne p g .quarantined 0x04
  | .draining => setState p g .quarantined 0x04
  | _ => p

/-- The package enters quarantine (R332, R334): every ENABLED or DRAINING block goes to QUARANTINED, commons traffic is
refused, the bell frames say so (R326), and Caselm records and reports it. Its bell, training, identity and management traffic
goes on. -/
def quarantine (p : Pkg) : Pkg :=
  if p.quarantined then p
  else
    let q := (p.rg.blocks.map (fun kv => kv.1)).foldl quarantineBlock { p with quarantined := true }
    let q := raise q hubCmn 22
    emit (record q (some hubCmn) 22 0 3 true [(getReg q (.drt 0) 0x0B0).toNat]) (.report 22 [(ownChip p).toNat])

/-! ## Fences (R328–R331) -/

/-- The outstanding or waiting request of a fenced chip ends (R316, R323, R328). -/
def fenceReq (p : Pkg) (r : CReq) : Pkg :=
  if r.copies > 0 then
    (if r.kind = 5 then endDead p r else endUnknown p r Status.unknownTargetLost false)
  else if r.stage = .gateway then p
  else endReq p r Status.refusedFenced false

/-- Every mirror frame still outstanding to a fenced chip loses its mirror (R208). -/
def fenceMirrors (p : Pkg) (chip : Chip) : Pkg :=
  let fs := p.bobs.flatMap (fun kv => kv.2.descs.flatMap (fun d =>
    if d.twin && d.mirror == chip then (d.frames.filter (fun f => f.mirror && f.ended.isNone)).map (fun f => f.seq) else []))
  fs.foldl (fun q s => endMoveFrame q s Status.failedLink) p

/-- Every atomic that waits for a fenced mirror completes locally (R324). -/
def fenceTwins (p : Pkg) (chip : Chip) : Pkg :=
  let es := p.ledgers.flatMap (fun kv => kv.2.own.flatMap (fun oe =>
    (oe.2.filter (fun e => e.pending && (match e.request with
      | some f => (mirrorOf p (cmnDie kv.1) f.off).any (fun m => m.1 == chip)
      | none => false))).map (fun e => (kv.1, oe.1, e))))
  es.foldl (fun q x => completeUnmirrored q x.1 x.2.1 x.2.2) p

/-- The twin entries of a fenced primary freeze (R324). -/
def freezeTwins (p : Pkg) (chip : Chip) : Pkg :=
  { p with ledgers := p.ledgers.map (fun kv => (kv.1, if kv.2.primary = some chip then { kv.2 with frozen := true } else kv.2)) }

/-- The ranges that a fenced chip mirrors, or is the primary of, are exposed in full (R403). -/
def exposeRanges (p : Pkg) (chip : Chip) : Pkg :=
  match p.rv.job with
  | some j => (j.sec.mirrors.filter (fun (m : MirrorDef) => m.partner == chip)).foldl (fun q m => addExposed q (m.first * 65536) (m.granules * 65536)) p
  | none => p

/-- Ports whose peer is a chip. -/
def portsTo (p : Pkg) (chip : Chip) : List (Fin 32) :=
  (List.finRange 32).filter (fun n => match (portOfPkg p n).lastPeer with | some e => e.chip == chip | none => false)

/-- The notice of a fence out of a port (R329). -/
def noticeTo (p : Pkg) (n : Fin 32) (chip declarer : Chip) (reason : Nat) (at_ : DWord) : Pkg :=
  pushPort p n { controlFrame p 2 0 0 (fencePayload chip declarer reason at_) with dst := 0 }

/-- Ports that carry a notice: UP Sitre 2 ports whose peer is in slice (R329). -/
def noticePorts (p : Pkg) : List (Fin 32) :=
  (List.finRange 32).filter (fun n =>
    let x := portOfPkg p n
    x.lstate == .up && x.version == 2 && (match x.peer with | some e => chipInSlice p e.chip | none => false))

/-- The windows of every die toward a chip are cleared (R323). -/
def clearWindows (p : Pkg) (chip : Chip) : Pkg :=
  (List.finRange 4).foldl (fun q d =>
    let a := atomWinOf q d chip
    if a.outstanding.isEmpty && a.pinned.isEmpty then q else setAtomWin q d chip { a with outstanding := [], pinned := [] }) p

/-- A chip is fenced (R328, R329): the entry in every page, the ports, the requests, the mirrors, the twins, the notices. A
chip already in the table changes nothing; a full table quarantines the package (R331). -/
def fenceChip (p : Pkg) (chip : Chip) (reason : Nat) (declarer : Chip) (at_ : DWord) (arrival : Option (Fin 32)) : Pkg :=
  if fenced p chip then p
  else if 1024 ≤ p.fences.length then quarantine (raise p hubCmn 21)
  else
    let q := { p with fences := p.fences ++ [⟨chip, reason, false⟩] }
    let q := cmnPages.foldl (fun q g => raise (bump q g 0x160 1) g 20) q
    let q := record q (some hubCmn) 20 0 2 true [chip.toNat, reason]
    let q := (portsTo q chip).foldl (fun q n => raise (clearPortEn q n) (.drt (dieOfPort n)) 24) q
    let q := (q.creqs.filter (fun r => r.chip == chip)).foldl fenceReq q
    let q := clearWindows q chip
    let q := fenceMirrors q chip
    let q := fenceTwins q chip
    let q := exposeRanges (freezeTwins q chip) chip
    ((noticePorts q).filter (fun n => some n != arrival)).foldl (fun q n => noticeTo q n chip declarer reason at_) q

/-- FENCE_NOTICE_RECEIVE (R329, R332, R333): a notice that fails its complement sets cmp_fail and is dropped; a reserved reason
and a chip outside the slice are ignored; the own chip quarantines. -/
def fenceNotice (p : Pkg) (n : Fin 32) : Pkg :=
  match takeInbox p (localFrom n 2) with
  | none => p
  | some (x, q) =>
    let b := x.frame.payload
    if !complOk 32 b then raise q hubCmn evCmpFail
    else
      let chip : Chip := BitVec.ofNat 16 (leField b 0 2)
      let reason := leField b 4 1
      if reason = 0 ∨ 3 < reason then q
      else if chip = ownChip q ∧ chipAssigned q then quarantine q
      else if !chipInSlice q chip then q
      else fenceChip q chip reason (BitVec.ofNat 16 (leField b 2 2)) (BitVec.ofNat 64 (leField b 8 8)) (some n)

def execFenceNoticeReceive (port : Fin 32) (s : State) : Host.Outcome State Fault Refusal := act s (fun p => fenceNotice p port)

/-- The whole fence table to one peer, with reason 0x3 (R329). -/
def reannounceTo (p : Pkg) (n : Fin 32) : Pkg :=
  p.fences.foldl (fun q e => noticeTo q n e.chip (ownChip q) 3 q.bell) p

/-- FENCE_REANNOUNCE (R329): to every peer in slot 0 of every 1,024th round, and to the peer of a link that has entered UP. -/
def fenceReannounce (p : Pkg) : Pkg :=
  let all := roundNow p % 1024 = 0 ∧ slotOf p.bell = 0
  (noticePorts p).foldl (fun q n =>
    if (portOfPkg q n).fenceDue ∨ all then setPort (reannounceTo q n) n { portOfPkg (reannounceTo q n) n with fenceDue := false } else q) p

def execFenceReannounce (s : State) : Host.Outcome State Fault Refusal := act s fenceReannounce

/-- FENCE_REQ with go = 1 (R328, R334): reason 0x2; ignored for a chip not in slice. The package's own chip is not fenced by its
own request (log entry 16). -/
def fenceReqWrite (p : Pkg) (v : Word) : Pkg :=
  let q := if v &&& 0x7FFF0000#32 = 0 then p else raise p hubCmn evRsvdWrite
  let chip : Chip := BitVec.ofNat 16 v.toNat
  if bit v 31 ∧ chipInSlice q chip ∧ chip ≠ ownChip q then fenceChip q chip 2 (ownChip q) q.bell none else q

def execFenceReqWrite (value : Word) (s : State) : Host.Outcome State Fault Refusal := act s (fun p => ifOn p hubCmn (fun p => fenceReqWrite p value))

/-- The pass bit of a chip's fence entry (R408); ignored for a chip with no entry. -/
def setPass (p : Pkg) (chip : Chip) (b : Bool) : Pkg :=
  { p with fences := p.fences.map (fun e => if e.chip = chip then { e with pass := b } else e) }

/-- SAMPLER_PASS_SET (R408). -/
def execSamplerPassSet (chip : Chip) (s : State) : Host.Outcome State Fault Refusal := act s (fun p => ifOn p hubCmn (fun p => setPass p chip true))
/-- SAMPLER_PASS_CLEAR (R408). -/
def execSamplerPassClear (chip : Chip) (s : State) : Host.Outcome State Fault Refusal := act s (fun p => ifOn p hubCmn (fun p => setPass p chip false))

end Sys2Proof.Machine
end

