-- ==== Sys2Proof/Machine/Bell.lean ====
section
/-! DEFINITION. The bell unit (R49–R58, R498): frames, the join step, judgement, references; and the heartbeats of R326–R327. -/
namespace Sys2Proof.Machine
open Sys2Proof

/-! ## Roots (R51) -/

/-- The chip of root entry i. -/
def BellCfg.root (c : BellCfg) (i : Nat) : Chip :=
  BitVec.ofNat 16 (match i with | 0 => bits c.root01 15 0 | 1 => bits c.root01 31 16 | 2 => bits c.root23 15 0 | _ => bits c.root23 31 16)
/-- Whether root entry i is valid. -/
def BellCfg.valid (c : BellCfg) (i : Nat) : Bool := bit c.cfg i
/-- CFG.max_hops, never more than 15. -/
def BellCfg.maxHops (c : BellCfg) : Nat := bits c.cfg 15 12
/-- CFG.holdover_limit in rounds. -/
def BellCfg.holdLimit (c : BellCfg) : Nat := (if bits c.cfg 23 16 = 0 then 0x80 else bits c.cfg 23 16) * 32
def BellCfg.extRef (c : BellCfg) : Bool := bit c.cfg 4

/-- The bell record of a port. -/
def BellPort.reset : BellPort := ⟨none, false, false, 0, 0, none, none, 0⟩
def bellPort (p : Pkg) (n : Fin 32) : BellPort := Map.getD p.bellU.ports n BellPort.reset
def setBellPort (p : Pkg) (n : Fin 32) (b : BellPort) : Pkg := { p with bellU := { p.bellU with ports := Map.put p.bellU.ports n b } }

/-- Whether a port carries bell frames: UP and Sitre 2 (R52, R53). -/
def carriesBell (p : Pkg) (n : Fin 32) : Bool := (portOfPkg p n).lstate == .up && (portOfPkg p n).version == 2

/-- Whether a port hears root entry i: it carries bell frames, its peer is locked to that chip and its frames are not 2 rounds
silent (R51, R52, R56). -/
def hearsOn (p : Pkg) (i : Nat) (n : Fin 32) : Bool :=
  let b := bellPort p n
  carriesBell p n && decide (b.silent < 2) &&
  (match b.peer with
    | some e => e.locked && e.root == p.bellU.inForce.root i
    | none => false)

/-- Whether the package is the chip of root entry i. -/
def isRootEntry (p : Pkg) (i : Nat) : Bool := chipAssigned p && p.bellU.inForce.valid i && p.bellU.inForce.root i == ownChip p

/-- Whether the package hears root entry i; a root hears itself. -/
def hears (p : Pkg) (i : Nat) : Bool :=
  p.bellU.inForce.valid i && (isRootEntry p i || (List.finRange 32).any (hearsOn p i))

/-- Whether the package is the current root. -/
def isRoot (p : Pkg) : Bool := p.bellU.state != .unjoined && isRootEntry p p.bellU.rootIndex

/-- The lesser of two parent candidates by R52: hops, delay, port. -/
def betterParent (p : Pkg) (a b : Fin 32) : Bool :=
  let h (n : Fin 32) : Nat := match (bellPort p n).peer with | some e => e.hops | none => 16
  let d (n : Fin 32) : Nat := (bellPort p n).dly.getD (2 ^ 32)
  decide (h a < h b) || (h a == h b && (decide (d a < d b) || (d a == d b && decide (a.val < b.val))))

/-- The parent R52 chooses for root entry i. -/
def chooseParent (p : Pkg) (i : Nat) : Option (Fin 32) :=
  ((List.finRange 32).filter (hearsOn p i)).foldl (fun o n =>
    match o with
    | none => some n
    | some m => if betterParent p n m then some n else some m) none

/-- The hop count through a parent. -/
def hopsVia (p : Pkg) (n : Fin 32) : Nat := match (bellPort p n).peer with | some e => e.hops + 1 | none => 16

/-! ## The join step (R54, R57) -/

/-- Whether a forward step from one time to another passes over slot 0 of the round that a router armed (R57, R63). -/
def swapPassed (old new : DWord) (armed : Nat) : Bool :=
  let d := (armed + 2 ^ 24 - roundOf old % 2 ^ 24) % 2 ^ 24
  let r := roundOf old + d
  decide (r < roundOf new) || (r == roundOf new && decide (0 < slotOf new))

/-- An armed swap that a forward step passes is disarmed and sets swap_late. -/
def stepSwap (old new : DWord) (p : Pkg) (d : Fin 4) : Pkg :=
  match (router p d).armed with
  | some a => if swapPassed old new a.1 then raise (setRouter p d { router p d with armed := none }) (.drt d) 16 else p
  | none => p

/-- A bell wait whose target a step has reached retires done (R177). -/
def stepWait (p : Pkg) (c : CtxId) : Pkg :=
  match (ctxOf p c).wait with
  | some (.bell t) => if t.toNat ≤ p.bell.toNat then endWait p c Status.done else p
  | _ => p

/-- The last round whose boundary a step to a bell time leaves behind it: what the device does every round resumes at the first
round boundary after the step (R57), which a step onto a boundary itself has reached. -/
def stepRound (new : DWord) : Option Nat := if new.toNat % 32768 = 0 then none else some (roundOf new)

/-- Bell time is stepped (R50, R54, R57). -/
def stepBell (p : Pkg) (new : DWord) : Pkg :=
  let old := p.bell
  let shift : Int := ((new.toNat : Int) - old.toNat) * 16
  let q := { p with
    bell := new
    bellU := { p.bellU with
      slew := 0
      roundDone := stepRound new
      judged := stepRound new
      ports := p.bellU.ports.map (fun kv => (kv.1, { kv.2 with ofs := if kv.2.dly.isSome then kv.2.ofs - shift else 0 })) } }
  let q := if old.toNat < new.toNat then [(0 : Fin 4), 1, 2, 3].foldl (stepSwap old new) q else q
  let q := match q.pw.trans with
    | some t =>
      if old.toNat < new.toNat ∧ !t.running ∧ swapPassed old new t.round then
        let q := endItem (setReg q .pwr 0x098 (BitVec.ofNat 32 (Status.refusedPower.toNat * 65536 + t.dies * 16))) .pwr t.target Status.refusedPower
        raise { q with pw := { q.pw with trans := none } } .pwr 17
      else q
    | none => q
  (q.ctxs.map (fun kv => kv.1)).foldl stepWait q

/-- The time that a parent's measurement gives: own time plus the offset, in whole ticks. The offset is in 1/16 tick and is cut
toward zero here (log entry 36). -/
def parentTime (p : Pkg) (ofs : Int) : DWord := BitVec.ofInt 64 ((p.bell.toNat : Int) + ofs.tdiv 16)

/-- The first valid measurement on the parent in JOINING steps bell time, once (R54). -/
def joinStep (p : Pkg) : Pkg :=
  match p.bellU.parent with
  | some n =>
    if p.bellU.state = .joining ∧ !p.bellU.stepped ∧ (bellPort p n).dly.isSome then
      let q := stepBell p (parentTime p (bellPort p n).ofs)
      { q with bellU := { q.bellU with stepped := true, aligned := 0 } }
    else p
  | none => p

/-! ## Frames (R53) -/

/-- The heartbeat nibble (R326). -/
def heartbeat (p : Pkg) : Nat :=
  (if enabled p hubCmn && !p.quarantined then 1 else 0) + (if p.quarantined then 2 else 0) + (if p.serving then 4 else 0)

/-- The bell frame of a port; its departure fraction is a free value (log entry 17). -/
def bellFrame (p : Pkg) (n : Fin 32) : Frame :=
  let u := p.bellU
  let locked := u.state == .locked || u.state == .holdover || isRoot p
  let pl := bellPayload p.bell (Config.departFrac p.count n.val) u.hops u.rootIndex locked (u.state == .holdover) (u.inForce.root u.rootIndex) (ownChip p) n.val
    (bellPort p n).echo (heartbeat p)
  { kind := 0, cls := 0, flag := false, last := false, dst := 0, src := ownChip p, flow := 0, due := 0, off := 0, inj := 0
    seq := 0, payload := pl, poison := 0 }

/-- What slot 0 of a round sends on a port: the bell frame, then the audit frame (R53, R288). -/
def sendSlot0 (p : Pkg) (n : Fin 32) : Pkg :=
  let p := setBellPort p n { bellPort p n with arrived := false, live := false }
  if carriesBell p n then auditSend (takeLine (emit p (.frame n (frameBytes 2 0 (bellFrame p n)))) n (wireSize (bellFrame p n))) n else p

/-- ROUND_BOUNDARY (R57, R66): slot 0 of a round not yet begun: budgets refill, bell and audit frames leave. -/
def roundBoundary (p : Pkg) : Pkg :=
  let fresh : Bool := match p.bellU.roundDone with
    | some r => decide (r < roundNow p)
    | none => true
  if slotOf p.bell = 0 ∧ fresh then
    (List.finRange 32).foldl sendSlot0 { p with budget := [], bellU := { p.bellU with roundDone := some (roundNow p) } }
  else p

def execRoundBoundary (s : State) : Host.Outcome State Fault Refusal := act s roundBoundary

/-- BELL_FRAME_RECEIVE (R53): a payload that fails its complement sets cmp_fail and is not used; a valid one is echoed later, and
with echo_valid = 1 gives the delay and offset; the parent's sets the slew, or the join step. The halves are rounded down and a
negative delay is held as 0 (log entry 36). -/
def bellReceive (p : Pkg) (n : Fin 32) (b : List Byte) (frac : Nat) : Pkg :=
  if !carriesBell p n then p
  else if !complOk 32 b then raise p .bell evCmpFail
  else
    let depart : DWord := BitVec.ofNat 64 (leField b 0 8)
    let dfrac := leField b 8 1 % 16
    let flags := leField b 9 1
    let x := bellPort p n
    let peer : PeerBell := ⟨flags % 16, flags / 16 % 4, flags.testBit 6, BitVec.ofNat 16 (leField b 10 2), BitVec.ofNat 16 (leField b 12 2)⟩
    let t4 : Int := p.bell.toNat * 16 + frac
    let t3 : Int := depart.toNat * 16 + dfrac
    let t2 : Int := (leField b 24 8 * 16 + leField b 8 1 / 16 : Nat)
    let t1 : Int := (leField b 16 8 * 16 + leField b 15 1 % 16 : Nat)
    let meas := (leField b 14 1).testBit 5
    let delay := ((t4 - t1) - (t3 - t2)) / 2
    let ofs := ((t2 - t1) - (t4 - t3)) / 2
    let y : BellPort := { x with
      echo := some ⟨depart, dfrac, p.bell, frac⟩, arrived := true, live := (leField b 15 1).testBit 4, peer := some peer
      dly := if meas then some (delay.toNat % 2 ^ 31) else x.dly, ofs := if meas then ofs else x.ofs }
    let q := setBellPort p n y
    if !meas then q
    else if q.bellU.parent = some n then
      (if q.bellU.state = .joining ∧ !q.bellU.stepped then joinStep q
      else { q with bellU := { q.bellU with slew := ofs.tdiv 16 } })
    else if 256 < ofs.natAbs then raise q .bell 22
    else q

def execBellFrameReceive (port : Fin 32) (payload : List Byte) (frac : BitVec 4) (s : State) : Host.Outcome State Fault Refusal :=
  act s (fun p => bellReceive p port payload frac.toNat)

/-! ## Judgement (R498) -/

/-- The rounds of silence of each port, and of its heartbeat (R327, R498). A port without live bell frames in this round is
silent to the heartbeat. -/
def judgePort (p : Pkg) (n : Fin 32) : Pkg :=
  let b := bellPort p n
  let up := carriesBell p n
  let hb := if up && b.arrived && b.live then 0 else min 255 (b.hbSilent + 1)
  let q := setBellPort p n { b with silent := if up && b.arrived then 0 else b.silent + 1, hbSilent := hb }
  let watched := (portOfPkg p n).lastPeer.isSome && (portOfPkg p n).lastVersion == 2 && enabled p hubCmn
  if watched && hb == 1 then raise q hubCmn 23 else q

/-- The state of the bell unit changed. -/
def setBell (p : Pkg) (f : BellUnit → BellUnit) : Pkg := { p with bellU := f p.bellU }

/-- The best root to follow now: the lowest index heard (R51). -/
def heardRoot (p : Pkg) : Option Nat := (List.range 4).find? (hears p)

/-- Whether a parent is near enough (R52): max_hops bounds the joining package, and 15 every one. -/
def nearEnough (p : Pkg) (n : Fin 32) : Bool :=
  decide (hopsVia p n ≤ 15) && (p.bellU.state != .joining || decide (hopsVia p n ≤ p.bellU.inForce.maxHops))

/-- The package takes a root and parent (R51, R52): as the root itself, or through the parent of R52 when it is not too deep. A
package that has locked before keeps its own time as root (R50, R56): no PPS edge steps it. -/
def takeRoot (p : Pkg) (i : Nat) : Pkg :=
  if isRootEntry p i then
    setBell p (fun u => { u with rootIndex := i, parent := none, hops := 0, stepped := u.stepped || u.state != .joining })
  else
    match chooseParent p i with
    | some n =>
      if nearEnough p n then
        setBell p (fun u => { u with rootIndex := i, parent := some n, hops := hopsVia p n })
      else raise (setBell p (fun u => { u with rootIndex := i, parent := none })) .bell 21
    | none => p

/-- Whether the parent is kept at a judgement: it hears the root and is near enough still (R52, R56). -/
def keepsParent (p : Pkg) (i : Nat) : Bool :=
  match p.bellU.parent with
  | some n => p.bellU.rootIndex == i && hearsOn p i n && nearEnough p n
  | none => false

/-- The hop count is the parent's plus one (R52). -/
def takeHops (p : Pkg) : Pkg :=
  match p.bellU.parent with
  | some n => setBell p (fun u => { u with hops := hopsVia p n })
  | none => p

/-- LOCKED is entered (R54): joined is set and Caselm records the join. -/
def lockBell (p : Pkg) : Pkg :=
  record (raise (setBell p (fun u => { u with state := .locked, rootSilent := 0, holdRounds := 0 })) .bell 16) (some .bell) 16 0 0 false []

/-- Whether the parent measured an offset of at most 2 ticks in this round (R54). -/
def alignedNow (p : Pkg) : Bool :=
  match p.bellU.parent with
  | some n => (bellPort p n).arrived && (bellPort p n).dly.isSome && decide ((bellPort p n).ofs.natAbs ≤ 32)
  | none => false

/-- The count of consecutive aligned rounds. -/
def countAligned (p : Pkg) : Pkg := setBell p (fun u => { u with aligned := if alignedNow p then u.aligned + 1 else 0 })

/-- root_change with its cause, recorded (R56). -/
def rootChange (p : Pkg) (parent : Bool) : Pkg :=
  record (raise p .bell 18) (some .bell) 18 0 1 false [if parent then 1 else 0]

/-- JOINING (R52, R54): a root is taken; the root itself locks at once, a follower after its step and 16 aligned rounds. -/
def judgeJoining (p : Pkg) : Pkg :=
  match heardRoot p with
  | none => p
  | some i =>
    let q := if keepsParent p i then takeHops p else takeRoot p i
    if isRootEntry q i then lockBell q
    else if !q.bellU.stepped then
      (match q.bellU.parent with
        | some n => if (bellPort q n).arrived then joinStep q else q
        | none => q)
    else
      let q := countAligned q
      if 16 ≤ q.bellU.aligned then lockBell q else q

/-- A LOCKED package takes a root by slewing only (R56); root_change is raised when the root or a parent is taken. -/
def changeRoot (p : Pkg) (i : Nat) (parent : Bool) : Pkg :=
  let q := takeRoot (setBell p (fun u => { u with aligned := 0 })) i
  if isRootEntry q i || q.bellU.parent.isSome then rootChange q parent else q

/-- While LOCKED or in HOLDOVER the parent and root are looked after (R56): a higher root heard again is followed; a parent lost
while another port hears the root is replaced; after 8 silent rounds a lower root is followed. -/
def followRoot (p : Pkg) : Pkg :=
  let i := p.bellU.rootIndex
  match (List.range i).find? (hears p) with
  | some h => changeRoot p h false
  | none =>
    if isRootEntry p i then p
    else if keepsParent p i then takeHops p
    else
      match chooseParent p i with
      | some _ => changeRoot p i true
      | none =>
        if 8 ≤ p.bellU.rootSilent then
          (match (List.range 4).find? (fun k => decide (i < k) && hears p k) with
            | some k => changeRoot (setBell p (fun u => { u with rootSilent := 0 })) k false
            | none => p)
        else p

/-- Rounds in which no port heard the current root. -/
def countRootSilence (p : Pkg) : Pkg :=
  let i := p.bellU.rootIndex
  let heard := isRootEntry p i || (List.finRange 32).any (fun n =>
    (bellPort p n).arrived && (match (bellPort p n).peer with | some e => e.locked && e.root == p.bellU.inForce.root i | none => false))
  setBell p (fun u => { u with rootSilent := if heard then 0 else u.rootSilent + 1 })

/-- UNALIGNED is entered (R54, R56). -/
def unalign (p : Pkg) : Pkg :=
  record (raise (setBell p (fun u => { u with state := .unaligned })) .bell 19) (some .bell) 19 0 2 false []

/-- The judgement of LOCKED, HOLDOVER and the limits (R54, R56). -/
def judgeLocked (p : Pkg) : Pkg :=
  let q := followRoot (countRootSilence p)
  let overLimit := match q.bellU.parent with
    | some n => (bellPort q n).dly.isSome && decide (256 < (bellPort q n).ofs.natAbs)
    | none => false
  if q.bellU.state = .locked then
    if isRoot q then q
    else if overLimit then unalign q
    else if 2 ≤ q.bellU.rootSilent then
      raise (setBell q (fun u => { u with state := .holdover, holdRounds := 0, aligned := 0 })) .bell 17
    else countAligned q
  else
    let q := countAligned (setBell q (fun u => { u with holdRounds := u.holdRounds + 1 }))
    if isRoot q ∨ 16 ≤ q.bellU.aligned then setBell q (fun u => { u with state := .locked, rootSilent := 0 })
    else if q.bellU.inForce.holdLimit < q.bellU.holdRounds then unalign q
    else q

/-- HB_CFG.silent_rounds (R334). -/
def silentRounds (p : Pkg) : Nat :=
  let v := bits (getReg p hubCmn 0x090) 7 4
  if v = 0 then 8 else v

/-- The neighbours that R327 watches: peers named on a Sitre 2 port, in slice. -/
def neighbours (p : Pkg) : List Chip :=
  ((List.finRange 32).filterMap (fun n =>
    let x := portOfPkg p n
    match x.lastPeer with
    | some e => if x.lastVersion == 2 && e.assigned && chipInSlice p e.chip then some e.chip else none
    | none => none)).eraseDups

/-- A neighbour is declared dead when every port that it shares has been silent for silent_rounds rounds (R327). -/
def judgeNeighbour (p : Pkg) (chip : Chip) : Pkg :=
  if (portsTo p chip).all (fun n => decide (silentRounds p ≤ (bellPort p n).hbSilent)) then
    fenceChip p chip 1 (ownChip p) p.bell none
  else p

/-- ROUND_JUDGEMENT (R498): once a round, at slot 512. -/
def roundJudgement (p : Pkg) : Pkg :=
  let fresh : Bool := match p.bellU.judged with
    | some r => decide (r < roundNow p)
    | none => true
  if slotOf p.bell = 512 ∧ fresh then
    let q := (List.finRange 32).foldl judgePort (setBell p (fun u => { u with judged := some (roundNow p) }))
    let q := match q.bellU.state with
      | .joining => judgeJoining q
      | .locked | .holdover => judgeLocked q
      | _ => q
    if enabled q hubCmn then usePairs q hubCmn [0x090] (fun q => (neighbours q).foldl judgeNeighbour q) else q
  else p

def execRoundJudgement (s : State) : Host.Outcome State Fault Refusal := act s roundJudgement

/-! ## External reference (R51, R56) -/

/-- PPS_EDGE (R51): pps_ok when edges arrive within 1 s ± 1 ms of each other. A root with ext_ref = 1 takes EPOCH at the first
edge after the configuration was committed, and slews toward EPOCH + k × 10⁹ at each later one, k counting every edge since.
A package that had locked before it became the root keeps its own time (R50, R56) and only slews (log entry 36). -/
def ppsEdge (p : Pkg) (tenm : Bool) : Pkg :=
  let u := p.bellU
  let ok := match u.ppsAt with
    | some t => decide (t + 999000000 ≤ p.count) && decide (p.count ≤ t + 1001000000)
    | none => false
  let k := u.ppsEdges
  let q := setBell p (fun u => { u with ppsAt := some p.count, ppsOk := ok, tenmOk := tenm, ppsEdges := k + 1 })
  if isRoot q && u.inForce.extRef then
    if k = 0 && !u.stepped then stepBell (setBell q (fun u => { u with stepped := true })) u.inForce.epoch
    else setBell q (fun u => { u with slew := ((u.inForce.epoch.toNat + k * 1000000000 : Nat) : Int) - p.bell.toNat })
  else q

def execPpsEdge (tenmOk : Bool) (s : State) : Host.Outcome State Fault Refusal := act s (fun p => ppsEdge p tenmOk)

/-- REF_LOST (R56): an input of the root is lost; the count goes on at the last disciplined rate. -/
def refLost (p : Pkg) (pps tenm : Bool) : Pkg :=
  let q := setBell p (fun u => { u with ppsOk := u.ppsOk && !pps, tenmOk := u.tenmOk && !tenm })
  if isRoot q && q.bellU.inForce.extRef && (pps || tenm) then raise (setBell q (fun u => { u with slew := 0 })) .bell 20 else q

def execRefLost (pps tenm : Bool) (s : State) : Host.Outcome State Fault Refusal := act s (fun p => refLost p pps tenm)

/-- A commit to CFG, ROOT01, ROOT23 or EPOCH (R58): in force at once unless the state is LOCKED or HOLDOVER. -/
def bellCommit (p : Pkg) : Pkg :=
  if p.bellU.state = .locked ∨ p.bellU.state = .holdover then p
  else if !bellPairsOk p then cmpFail p .bell
  else setBell p (fun u => { u with inForce := bellRegs p, ppsEdges := 0 })

/-- BELL.STATUS (R58). -/
def bellStatus (p : Pkg) : Word :=
  let u := p.bellU
  let code : Nat := match u.state with | .unjoined => 0 | .joining => 1 | .locked => 2 | .holdover => 3 | .unaligned => 4
  BitVec.ofNat 32 (u.hops % 16 * 2 ^ 20 + u.rootIndex % 4 * 2 ^ 18
    + (match u.parent with | some n => n.val * 2 ^ 11 + 2 ^ 10 | none => 0)
    + (if u.ppsOk then 512 else 0) + (if u.tenmOk then 256 else 0) + code)

/-- DLYp and OFSp (R53). -/
def dlyReg (p : Pkg) (n : Fin 32) : Word := match (bellPort p n).dly with | some d => BitVec.ofNat 32 (0x80000000 + d) | none => 0
def ofsReg (p : Pkg) (n : Fin 32) : Word := if (bellPort p n).dly.isSome then BitVec.ofInt 32 (bellPort p n).ofs else 0

end Sys2Proof.Machine
end

