-- ==== Sys2Proof/Machine/Prick.lean ====
section
/-! DEFINITION. Prickings and flow tables as software writes them (R60–R65), swaps (R63, R64), and the reads of the tables. -/
namespace Sys2Proof.Machine
open Sys2Proof

/-- Whether a swap of a port is armed on its die (R63). -/
def swapArmedOn (p : Pkg) (n : Fin 32) : Bool :=
  match (router p (dieOfPort n)).armed with
  | some a => a.2.testBit (portIdx n)
  | none => false

/-- PRK_TBL_DATA_WRITE (R60, R62, R63): an entry of the standby copy; any write of it unseals the copy. -/
def prkTblWrite (p : Pkg) (n : Fin 32) (v : Word) : Pkg :=
  let g := Page.prk n
  let slot := bits (getReg p g 0x100) 11 0
  let e := bits v 15 0
  if bits v 31 16 + e ≠ 0xFFFF then raise p g evPairErr
  else if slot = 0 ∧ e ≠ 0x8000 then raise p g evRsvdWrite
  else if swapArmedOn p n then raise p g 17
  else
    let q := if bits v 14 12 = 0 then p else raise p g evRsvdWrite
    let q := setEntry q g (standbyCopy p n) slot (BitVec.ofNat 32 (e &&& 0x8FFF))
    let q := setPort q n ((portOfPkg q n).setSealed (standbyCopy p n) false)
    advance q g 0x100 12

def execPrkTblDataWrite (port : Fin 32) (value : Word) (s : State) : Host.Outcome State Fault Refusal :=
  act s (fun p => ifOn p (.prk port) (fun p => prkTblWrite p port value))

/-- PRK.STATUS.sitre1: the port trained to Sitre 1. -/
def isSitre1 (p : Pkg) (n : Fin 32) : Bool := (portOfPkg p n).version == 1

/-- Whether rising slots are nowhere more than 512 apart, taken cyclically (R62). -/
def gapsOk : Nat → Nat → List Nat → Bool
  | first, prev, [] => decide (first + 4096 - prev ≤ 512)
  | first, prev, s :: r => decide (s - prev ≤ 512) && gapsOk first s r

/-- The checks of R62 on the standby copy. -/
def sealOk (p : Pkg) (n : Fin 32) : Bool :=
  let c := standbyCopy p n
  let es := copyEntries p n c
  let ctl := copySlots p n c 1
  es.all (fun e =>
    e.2.2 == ~~~e.2.1
      && (if e.1 = 0 then e.2.1 == 0x8000#32
          else if bit e.2.1 15 then
            decide (bits e.2.1 11 0 ≠ 0) && decide (bits e.2.1 11 0 ≠ 0xFFF) && !isSitre1 p n
          else bits e.2.1 11 0 == 0))
    && (isSitre1 p n || (decide (16 ≤ ctl.length) && (match ctl with | s :: r => gapsOk s s r | [] => false)))

/-- PRK_SEAL (R62, R63): refused while a swap of the port is armed; a copy that fails a check stays unsealed, seal_refused. -/
def prkSeal (p : Pkg) (n : Fin 32) : Pkg :=
  let g := Page.prk n
  if swapArmedOn p n then raise p g 17
  else
    let x := { portOfPkg p n with standbyRes := reservedCount p n (standbyCopy p n) }
    let q := storePair p g 0x088 1
    if sealOk p n then setPort q n (x.setSealed (standbyCopy p n) true)
    else raise (setPort q n (x.setSealed (standbyCopy p n) false)) g 16

def execPrkSeal (port : Fin 32) (s : State) : Host.Outcome State Fault Refusal := act s (fun p => ifOn p (.prk port) (fun p => prkSeal p port))

/-- PRK_UNSEAL (R62, R63). -/
def prkUnseal (p : Pkg) (n : Fin 32) : Pkg :=
  let g := Page.prk n
  if swapArmedOn p n then raise p g 17
  else setPort (storePair p g 0x088 0) n ((portOfPkg p n).setSealed (standbyCopy p n) false)

def execPrkUnseal (port : Fin 32) (s : State) : Host.Outcome State Fault Refusal := act s (fun p => ifOn p (.prk port) (fun p => prkUnseal p port))

/-- PRK_SWAP with a non-zero mask (R63): each condition that is not met sets its event; all met, the swap is armed. A mask of 0
cancels. -/
def swapArm (p : Pkg) (d : Fin 4) (round mask : Nat) : Pkg :=
  let g := Page.drt d
  let v : Word := BitVec.ofNat 32 (round * 256 + mask)
  if mask = 0 then setRouter (storePair p g 0x100 v) d { router p d with armed := none }
  else
    let k := (round + 2 ^ 24 - roundNow p % 2 ^ 24) % 2 ^ 24
    let late := decide (k < 2) || decide (2 ^ 23 ≤ k)
    let open_ := (portsOf d).any (fun n => mask.testBit (portIdx n) && !(portOfPkg p n).sealed (standbyCopy p n))
    let busy := (router p d).armed.isSome
    if late || open_ || busy then
      raiseAll p g ((if late then [16] else []) ++ (if open_ then [17] else []) ++ (if busy then [18] else []))
    else setRouter (storePair p g 0x100 v) d { router p d with armed := some (round, mask) }

def execPrkSwapArm (die : Fin 4) (round : BitVec 24) (mask : BitVec 8) (s : State) : Host.Outcome State Fault Refusal :=
  act s (fun p => ifOn p (.drt die) (fun p => swapArm p die round.toNat mask.toNat))

/-- PRK_SWAP_CANCEL (R63): mask 0 cancels the armed swap; with none armed it changes nothing. -/
def execPrkSwapCancel (die : Fin 4) (round : BitVec 24) (s : State) : Host.Outcome State Fault Refusal :=
  act s (fun p => ifOn p (.drt die) (fun p => swapArm p die round.toNat 0))

/-- At a swap, items queued for a flow that holds no slot in the new active copy end late.no_slot (R64). A copy with an entry that
fails its complement check is not used (R42, R60). -/
def dropUnslotted (p : Pkg) (n : Fin 32) : Pkg :=
  let x := portOfPkg p n
  if !copyOk p n x.active then cmpFail p (.prk n) else
  let bad (q : Queued) : Bool := q.frame.cls == 1 && !holdsSlot p n q.frame.flow
  let gone := (x.queue.filter bad).map Queued.frame
  let q := setPort p n { x with queue := x.queue.filter (fun e => !bad e) }
  gone.foldl (fun q f => frameEndsAtPort (tallyOut q (.prk n) 1) n f Status.lateNoSlot) q

/-- The copies of a port exchange roles (R63, R73): each keeps its seal, so that the copy active since reset and never sealed becomes an
unsealed standby (log entry 37). Reservations revoked on it are in force again once at
least 15 lanes serve. -/
def swapPort (p : Pkg) (n : Fin 32) : Pkg :=
  let x := portOfPkg p n
  let q := setPort p n { x with active := 1 - x.active, revoked := x.revoked && decide (popcount 16 x.txMap.toNat < 15) }
  let q := setPort q n { portOfPkg q n with activeRes := reservedCount q n (activeCopy q n) }
  dropUnslotted q n

/-- PRICKING_SWAP (R57, R63, R64): at slot 0 of the armed round. -/
def prickingSwap (p : Pkg) (d : Fin 4) : Pkg :=
  match (router p d).armed with
  | some (r, m) =>
    if roundNow p % 2 ^ 24 = r ∧ slotOf p.bell = 0 then usePairs p (.drt d) [0x100] fun p =>
      let q := setRouter p d { router p d with armed := none, swapDone := BitVec.ofNat 32 (r * 256 + m) }
      let q := ((portsOf d).filter (fun n => m.testBit (portIdx n))).foldl swapPort q
      raise q (.drt d) 19
    else p
  | none => p

def execPrickingSwap (die : Fin 4) (s : State) : Host.Outcome State Fault Refusal := act s (fun p => prickingSwap p die)

/-- FLOW_DATA_COMMIT (R65): the write of FLOW_DATA1_C commits the entry at FLOW_ADDR when both complements match. -/
def flowCommit (p : Pkg) (d : Fin 4) (c1 : Word) : Pkg :=
  let g := Page.drt d
  let v0 := getReg p g 0x124
  let v1 := getReg p g 0x128
  let f := bits (getReg p g 0x120) 11 0
  if getReg p g 0x12C ≠ ~~~v0 ∨ c1 ≠ ~~~v1 then raise p g evPairErr
  else
    let q := setEntry (setEntry p g 1 (2 * f) (v0 &&& 0x8FFFFFFF#32)) g 1 (2 * f + 1) (v1 &&& 0xFFFF#32)
    let q := if v0 &&& 0x70000000#32 = 0 ∧ v1 &&& 0xFFFF0000#32 = 0 then q else raise q g evRsvdWrite
    advance q g 0x120 12

def execFlowDataCommit (die : Fin 4) (value : Word) (s : State) : Host.Outcome State Fault Refusal :=
  act s (fun p => ifOn p (.drt die) (fun p => flowCommit p die value))

/-- What a table's data window shows: the committed entry at its address register (R65, R295, and each page's own table). -/
def tableView (p : Pkg) (g : Page) : Word :=
  match g.type with
  | 0x19 => entryVal p g 0 (bits (getReg p g 0x140) 15 0)
  | 0x1A =>
    let a := getReg p g 0x100
    match (List.finRange 32).find? (fun n => n.val == g.inst) with
    | some n =>
      let c := if bit a 12 then activeCopy p n else standbyCopy p n
      let e := (entryVal p g c (bits a 11 0)).toNat % 65536
      BitVec.ofNat 32 (e + (65535 - e) * 65536)
    | none => 0
  | 0x1D =>
    let a := getReg p g 0x200
    let i := bits a 9 0
    if bits a 30 29 = 2 then
      (match (if g.inst = 4 then p.fences[i]? else none) with
        | some e => BitVec.ofNat 32 (0x80000000 + e.reason % 8 * 2 ^ 28 + (if e.pass then 2 ^ 27 else 0) + e.chip.toNat)
        | none => 0)
    else if bits a 30 29 ≤ 1 ∧ i < 64 then entryVal p g (bits a 30 29) i
    else 0
  | 0x1B =>
    let e := (match selOfPage g with
      | some e => ringEntry p e (bits (getReg p g 0x200) 30 29) (bits (getReg p g 0x200) 12 0)
      | none => 0).toNat % 65536
    BitVec.ofNat 32 (e + (65535 - e) * 65536)
  | _ => entryVal p g (bits (getReg p g 0x200) 30 29) (bits (getReg p g 0x200) 12 0)

/-- The address register of a page's table, and the width of its index. -/
def tableAddr (g : Page) : Nat × Nat :=
  match g.type with
  | 0x19 => (0x140, 16)
  | 0x1A => (0x100, 12)
  | 0x1D => (0x200, 10)
  | 0x16 => (0x200, 11)
  | 0x1B => (0x200, 13)
  | 0x18 => (0x200, 12)
  | _ => (0x200, 10)

/-- FLOW_DATA1_READ (R65): the committed entry; with inc = 1 the flow advances. -/
def flowData1Read (p : Pkg) (ag : Agent) (d : Fin 4) : Pkg :=
  advance (answer p ag (flowData1 p d (bits (getReg p (.drt d) 0x120) 11 0))) (.drt d) 0x120 12

/-- TABLE_DATA_READ_INC (R295, R60, R334): the entry at the table address; with inc = 1 the index advances. -/
def tableRead (p : Pkg) (ag : Agent) (g : Page) : Pkg :=
  advance (answer p ag (tableView p g)) g (tableAddr g).1 (tableAddr g).2

def execFlowData1Read (agent : Agent) (die : Fin 4) (s : State) : Host.Outcome State Fault Refusal :=
  act s (fun p => regGate p agent (.drt die) 0x128 (fun q => flowData1Read q agent die))

def execTableDataReadInc (agent : Agent) (page : Page) (s : State) : Host.Outcome State Fault Refusal :=
  act s (fun p => regGate p agent page (tableAddr page).1 (fun q => tableRead q agent page))

end Sys2Proof.Machine
end

