-- ==== Sys2Proof/Machine/Cores.lean ====
section
/-! DEFINITION. Cores and stores (R131–R157): context commands, base and bound, interleave, bank gating, patrol, ECC, and the
retirement of instructions. -/
namespace Sys2Proof.Machine
open Sys2Proof

/-- Whether n cycles of the 1.2 GHz array clock have passed since a local tick (R16). -/
def cyclesPast (p : Pkg) (start n : Nat) : Bool := decide (start * 6 + n * 5 ≤ p.count * 6)

/-- A paired register committed: its defined fields stored with their complement; a non-zero reserved field sets rsvd_write
(R41, R46). -/
def commitPair (p : Pkg) (g : Page) (off : Nat) (v mask : Word) : Pkg :=
  let q := storePair p g off (v &&& mask)
  if v &&& ~~~mask = 0 then q else raise q g evRsvdWrite

/-- A commit discarded for a reserved or out-of-range value (R44). -/
def discardCommit (p : Pkg) (g : Page) : Pkg := raiseAll p g [evPairErr, evRsvdWrite]

/-! ## Context commands (R131, R132) -/

def evCtxStopped : Nat := 25
def evCfgBusy (st : StoreId) : Nat := match st with | .core _ => 26 | .cluster _ _ => 23
def evCtxBusy : Nat := 29

/-- A context becomes IDLE; the die's idle time counts from here (R131, R414). -/
def goIdle (p : Pkg) (c : CtxId) : Pkg :=
  let q := setCtx p c { ctxOf p c with state := .idle, stop := none }
  { q with pw := { q.pw with idleAt := Map.put q.pw.idleAt c.core.die q.count } }

/-- A die in P1 returns to P0 (R414). -/
def leaveP1 (p : Pkg) (d : Fin 4) : Pkg :=
  if Map.getD p.pw.die d 0 = 1 then { p with pw := { p.pw with die := Map.put p.pw.die d 0 } } else p

/-- CTX_CMD start (R131, R172, R173): an IDLE context of an ENABLED core starts at CTX_ENTRY with its registers and latches
clear and the halt policy set; in any other case ctx_busy. -/
def ctxStart (p : Pkg) (c : CtxId) : Pkg :=
  let g := Page.core c.core
  if (ctxOf p c).state = .idle ∧ enabled p g then
    if pairOk p g (ctxReg c 0x08) then
      leaveP1 (setCtx p c { Ctx.reset with
        state := .running, pc := bits (ctxRegVal p c 0x08) 15 0, halted := (ctxOf p c).halted, issuedAt := (ctxOf p c).issuedAt }) c.core.die
    else cmpFail p g
  else raise p g evCtxBusy

def execCtxStart (c : CtxId) (s : State) : Host.Outcome State Fault Refusal := act s (fun p => ifOn p (.core c.core) (fun p => ctxStart p c))

/-- CTX_CMD stop (R131, R132). -/
def ctxStop (p : Pkg) (c : CtxId) : Pkg :=
  if (ctxOf p c).state = .running ∨ (ctxOf p c).state = .waiting then
    beginStop p c ⟨0, 2, 0, 0, none, 0, 0⟩
  else raise p (.core c.core) evCtxBusy

def execCtxStop (c : CtxId) (s : State) : Host.Outcome State Fault Refusal := act s (fun p => ifOn p (.core c.core) (fun p => ctxStop p c))

/-- CTX_CMD clear (R131). -/
def ctxClear (p : Pkg) (c : CtxId) : Pkg :=
  if (ctxOf p c).state = .stopped then goIdle p c else raise p (.core c.core) evCtxBusy

def execCtxClear (c : CtxId) (s : State) : Host.Outcome State Fault Refusal := act s (fun p => ifOn p (.core c.core) (fun p => ctxClear p c))

/-- The unretired instructions of a context, in the order of issue. -/
def instsOf (p : Pkg) (c : CtxId) : List Inst := p.insts.filter (fun i => i.ctx == c)

/-! ## The stop record (R174) -/

/-- The 64 bytes of a stop record. -/
def stopRecord (p : Pkg) (x : Ctx) (r : StopInfo) : List Byte :=
  leBytes 2 r.status.toNat ++ leBytes 1 r.cause ++ leBytes 1 r.op ++ leBytes 2 r.pc
    ++ leBytes 1 (match r.tok with | some t => 8 + t | none => 0) ++ [0]
    ++ leBytes 8 p.bell.toNat ++ leBytes 2 (min 65535 r.disabled) ++ leBytes 2 x.sticky.worst.toNat ++ List.replicate 44 0

/-- The stop record written to the last line of the context's core-store range, and ctx_stopped: a bound of 0 has no record; a
sleeping bank refuses the write. -/
def reachStopped (p : Pkg) (c : CtxId) : Pkg :=
  let x := ctxOf p c
  let bound := pairBound p c .core
  let st := StoreId.core c.core
  let off := pairBase p c .core + bound - 64
  let rec_ := stopRecord p x (x.stop.getD ⟨0, 0, 0, 0, none, 0, 0⟩)
  let q :=
    if bound = 0 then p
    else if st.size < off + 64 then countRefusal p ⟨0x1D, c.core.die.val⟩
    else if rangeAsleep p st off 64 then countAsleep p st
    else writeLocal p (st.base + off) rec_ noTag
  raise (setCtx q c { x with state := .stopped }) (.core c.core) evCtxStopped

/-! ## Base and bound (R144) -/

/-- The registers of the pairs with the bits their fields define (R158). -/
def pairReg (k : Fin 6) : Nat × Word :=
  match k with
  | 0 => (0x18, 0x01FF00FF#32)
  | 1 => (0x20, 0x0FFF07FF#32)
  | 2 => (0x28, 0x00FFFFFF#32)
  | 3 => (0x30, 0x01FFFFFF#32)
  | 4 => (0x38, 0xFFFFFFFF#32)
  | _ => (0x40, 0xFFFFFFFF#32)

/-- Whether a value keeps the bound within the range its field states: 256 and 2,048 pages, 12,582,912 granules (R158). -/
def pairRange (k : Fin 6) (v : Word) : Bool :=
  match k with
  | 0 => decide (bits v 24 16 ≤ 256)
  | 1 => decide (bits v 27 16 ≤ 2048)
  | 3 => decide (bits v 24 0 ≤ 12582912)
  | _ => true

/-- BASE_BOUND_COMMIT (R144): discarded with ctx_busy while the context is RUNNING or WAITING. -/
def baseBoundCommit (p : Pkg) (c : CtxId) (k : Fin 6) (v : Word) : Pkg :=
  let g := Page.core c.core
  if !pairRange k v then discardCommit p g
  else if (ctxOf p c).state = .running ∨ (ctxOf p c).state = .waiting then raise p g evCtxBusy
  else commitPair p g (ctxReg c (pairReg k).1) v (pairReg k).2

def execBaseBoundCommit (c : CtxId) (pair : Fin 6) (value : Word) (s : State) : Host.Outcome State Fault Refusal :=
  act s (fun p => ifOn p (.core c.core) (fun p => baseBoundCommit p c pair value))

/-! ## Interleave (R137, R138) -/

/-- The cores that a store's interleave depends on: its own, or the enabled cores of its cluster. -/
def coresOfStore (p : Pkg) (st : StoreId) : List CoreId :=
  match st with
  | .core c => [c]
  | .cluster d c => (coresOf d c).filter (coreInService p)

/-- The condition of R138: every context IDLE, no window open, no gate request pending. -/
def ilvFree (p : Pkg) (st : StoreId) : Bool :=
  (coresOfStore p st).all (fun c => (ctxsOfCore c).all (fun x => (ctxOf p x).state == .idle))
    && (List.range st.windows).all (fun w => (winOf p st w).state == .closed)
    && (storeOf p st).pend.isEmpty

/-- Zero lines in every awake bank of a store: bytes cleared and poison taken off (R138). -/
def zeroAwake (p : Pkg) (st : StoreId) : Pkg :=
  let hit (a : Nat) : Bool :=
    decide (st.base ≤ a) && decide (a < st.base + st.size) && !(storeOf p st).asleep.testBit (bankOf p st (a - st.base))
  { p with mem := p.mem.filter (fun c => !hit c.1), poison := p.poison.filter (fun l => !hit (l * 64)) }

/-- A bank's lines become zero without poison: what a sleeping bank loses and a woken one holds (R152, R153). -/
def zeroBank (p : Pkg) (st : StoreId) (bank : Nat) : Pkg :=
  let hit (a : Nat) : Bool :=
    decide (st.base ≤ a) && decide (a < st.base + st.size) && bankOf p st (a - st.base) == bank
  { p with mem := p.mem.filter (fun c => !hit c.1), poison := p.poison.filter (fun l => !hit (l * 64)) }

/-- ILV_COMMIT (R138): a commit of CORE_CFG or CLST_CFG. ilv = 0b11 is reserved; a change of ilv takes effect only when the store
is free, and starts the fill; a commit that leaves ilv alone is stored. -/
def ilvCommit (p : Pkg) (st : StoreId) (v : Word) : Pkg :=
  let g := st.page
  if bits v 5 4 = 3 then discardCommit p g
  else if bits v 5 4 = ilvOf p st then commitPair p g 0x088 v 0x000FFF31#32
  else if !ilvFree p st then raise p g (evCfgBusy st)
  else
    let q := commitPair p g 0x088 v 0x000FFF31#32
    let q := zeroAwake q st
    setStore q st { storeOf q st with filling := some p.count }

def execIlvCommit (store : StoreId) (value : Word) (s : State) : Host.Outcome State Fault Refusal :=
  act s (fun p => ifOn p store.page (fun p => ilvCommit p store value))

/-- The cycles of a fill: one line per bank and cycle (R138, R153). -/
def StoreId.fillCycles : StoreId → Nat
  | .core _ => 512
  | .cluster _ _ => 2048

/-- ILV_FILL_END (R138). -/
def ilvFillEnd (p : Pkg) (st : StoreId) : Pkg :=
  match (storeOf p st).filling with
  | some t => if cyclesPast p t st.fillCycles then setStore p st { storeOf p st with filling := none } else p
  | none => p

def execIlvFillEnd (store : StoreId) (s : State) : Host.Outcome State Fault Refusal := act s (fun p => ilvFillEnd p store)

/-! ## Bank gating (R150–R153) -/

def evGateDone (st : StoreId) : Nat := match st with | .core _ => 22 | .cluster _ _ => 20
def evGateTimeout (st : StoreId) : Nat := match st with | .core _ => 23 | .cluster _ _ => 21

/-- BANK_GATE of a store. -/
def bankGate (p : Pkg) (st : StoreId) : Nat :=
  match st with
  | .core c => (getReg p (.core c) 0x090).toNat
  | .cluster d c => (getReg64 p (.clst d c) 0x090).toNat

/-- BANK_GATE stored with its complement. -/
def setBankGate (p : Pkg) (st : StoreId) (v : DWord) : Pkg :=
  match st with
  | .core c => storePair p (.core c) 0x090 (lo32 v)
  | .cluster d c => storePair64 p (.clst d c) 0x090 v

/-- What one bank's bit does in a commit: a new 1 makes a gate request; a 0 cancels a pending one, or wakes a sleeping bank. -/
def gateBit (v : DWord) (st : StoreId) (old : Nat) (p : Pkg) (b : Nat) : Pkg :=
  let x := storeOf p st
  if bit v b then
    (if old.testBit b then p else setStore p st { x with pend := Map.put x.pend b p.count })
  else if (Map.look x.pend b).isSome then gateEnds p st b Status.doneCancelled false
  else if x.asleep.testBit b ∧ (Map.look x.bankFill b).isNone then
    setStore p st { x with bankFill := Map.put x.bankFill b p.count }
  else p

/-- BANK_GATE_COMMIT (R150, R151, R153). -/
def bankGateCommit (p : Pkg) (st : StoreId) (v : DWord) : Pkg :=
  let old := bankGate p st
  (List.range st.banks).foldl (gateBit v st old) (setBankGate p st v)

def execBankGateCommit (store : StoreId) (value : DWord) (s : State) : Host.Outcome State Fault Refusal :=
  act s (fun p => ifOn p store.page (fun p => bankGateCommit p store value))

/-- BANK_SLEEP (R150, R152): a pending request's bank sleeps once nothing holds it. The lines of an access are written in the
command that admits it, so nothing is outstanding between commands; an engine instruction that holds the bank is the argument. -/
def bankSleep (held : Pkg → StoreId → Nat → Bool) (p : Pkg) (st : StoreId) (b : Nat) : Pkg :=
  let x := storeOf p st
  if (Map.look x.pend b).isSome ∧ (Map.look x.bankFill b).isNone ∧ !held p st b then
    let q := gateEnds p st b Status.done false
    let q := zeroBank q st b
    let y := storeOf q st
    raise (setStore q st { y with asleep := y.asleep ||| 2 ^ b }) st.page (evGateDone st)
  else p

/-- The gate timeout of a store in ticks (R151, R158). -/
def gateLimit (p : Pkg) (st : StoreId) : Nat :=
  let us := bits (getReg p st.page 0x088) 19 8
  (if us = 0 then 1000 else us) * 1000

/-- GATE_TIMEOUT (R151): the request ends failed.busy and its bank's bit is cleared. -/
def gateTimeout (p : Pkg) (st : StoreId) (b : Nat) : Pkg :=
  match Map.look (storeOf p st).pend b with
  | some t =>
    usePairs p st.page [0x088] (fun p =>
      if t + gateLimit p st ≤ p.count then raise (gateEnds p st b Status.failedBusy true) st.page (evGateTimeout st) else p)
  | none => p

def execGateTimeout (store : StoreId) (bank : Fin 64) (s : State) : Host.Outcome State Fault Refusal :=
  act s (fun p => gateTimeout p store bank.val)

/-- BANK_WAKE_FILL_END (R153): the woken bank holds zero lines and BANK_ASLEEP clears. -/
def bankWakeFillEnd (p : Pkg) (st : StoreId) (b : Nat) : Pkg :=
  let x := storeOf p st
  match Map.look x.bankFill b with
  | some t =>
    if cyclesPast p t st.fillCycles then
      setStore (zeroBank p st b) st { x with bankFill := Map.drop x.bankFill b, asleep := x.asleep &&& (2 ^ 64 - 1 - 2 ^ b) }
    else p
  | none => p

def execBankWakeFillEnd (store : StoreId) (bank : Fin 64) (s : State) : Host.Outcome State Fault Refusal :=
  act s (fun p => bankWakeFillEnd p store bank.val)

/-! ## ECC and patrol (R155, R156) -/

/-- The row within its bank of a store offset: the offset bits that R137's formula leaves unused. -/
def bankRow (p : Pkg) (st : StoreId) (a : Nat) : Nat :=
  match st, ilvOf p st with
  | .core _, 0 => a / 2 ^ 11 % 512
  | .core _, 1 => a / 2 ^ 10 % 512
  | .core _, _ => a / 2 ^ 9 % 512
  | .cluster _ _, 0 => a / 2 ^ 12 % 2048
  | .cluster _ _, 1 => a / 2 ^ 11 % 2048
  | .cluster _ _, _ => a / 2 ^ 10 % 2048

/-- Offsets of STORE_ERR, ECC_CORR and ECC_UNCORR, and their events (R158, R159). -/
def offStoreErr : StoreId → Nat | .core _ => 0x0A0 | .cluster _ _ => 0x0B0
def offEccCorr : StoreId → Nat | .core _ => 0x0A8 | .cluster _ _ => 0x0B8
def offEccUncorr : StoreId → Nat | .core _ => 0x0B0 | .cluster _ _ => 0x0C0
def evEccCorr : StoreId → Nat | .core _ => 20 | .cluster _ _ => 18
def evEccUncorr : StoreId → Nat | .core _ => 21 | .cluster _ _ => 19

/-- The 24 hours over which Caselm counts a bank's errors, in ticks (R156). -/
def dayTicks : Nat := 86400000000000

/-- An error of a bank kept for Caselm's counts; those of more than 24 hours ago are let go (R156). -/
def keepErr (p : Pkg) (st : StoreId) (bank : Nat) (double : Bool) : Pkg :=
  let x := storeOf p st
  setStore p st { x with errs := x.errs.filter (fun e => decide (p.count < e.2.2 + dayTicks)) ++ [(bank, double, p.count)] }

/-- What a read of a store line does with an error (R155). -/
def eccFound (st : StoreId) (p : Pkg) (f : EccFinding) : Pkg :=
  let g := st.page
  let log : Word := BitVec.ofNat 32 (0x80000000 + (if f.double then 0x40000000 else 0) + bankOf p st f.off * 2 ^ 24
    + f.word.val * 2 ^ 22 + bankRow p st f.off)
  if st.size ≤ f.off then p
  else if f.double then
    let q := poisonLine (keepErr p st (bankOf p st f.off) true) (st.base + f.off)
    let q := raise (bump q g (offEccUncorr st) 1) g (evEccUncorr st)
    record (setReg q g (offStoreErr st) log) (some g) (evEccUncorr st) 0 2 false [f.off]
  else
    let q := raise (bump (keepErr p st (bankOf p st f.off) false) g (offEccCorr st) 1) g (evEccCorr st)
    if bit (getReg p g (offStoreErr st)) 30 then q else setReg q g (offStoreErr st) log

/-- STORE_PATROL_READ (R156): with scrub_en set, every 65,536 cycles the next row of every awake bank is read; what the read
finds is the operand. -/
def patrolRead (p : Pkg) (st : StoreId) (found : List EccFinding) : Pkg :=
  let x := storeOf p st
  if stateOf p st.page ≠ .off ∧ !pairOk p st.page 0x088 then cmpFail p st.page
  else if bit (getReg p st.page 0x088) 0 ∧ stateOf p st.page ≠ .off ∧ cyclesPast p x.patrolAt 65536 then
    let q := setStore p st { x with patrolRow := (x.patrolRow + 1) % st.fillCycles, patrolAt := p.count }
    (found.filter (fun f => bankRow p st f.off == x.patrolRow && !x.asleep.testBit (bankOf p st f.off))).foldl (eccFound st) q
  else p

def execStorePatrolRead (store : StoreId) (found : List EccFinding) (s : State) : Host.Outcome State Fault Refusal :=
  act s (fun p => patrolRead p store found)

end Sys2Proof.Machine
end

