-- ==== Sys2Proof/Machine/Issue.lean ====
section
/-! DEFINITION. Fetch, the checks of the instruction word, and issue (R133, R134, R160–R170, R490). -/
namespace Sys2Proof.Machine
open Sys2Proof

/-! ## The word (R161–R163, R175–R194) -/

/-- The bits [hi:lo] as a mask. -/
def fld (hi lo : Nat) : Nat := (2 ^ (hi - lo + 1) - 1) * 2 ^ lo
def mA : Nat := fld 43 39
def mB : Nat := fld 48 44
def mC : Nat := fld 53 49
def mD : Nat := fld 58 54
def mX : Nat := fld 63 59

/-- The vector slots that a vector opcode reads beside rC: a, b, c (R187). -/
def vecUses (op : Nat) : Bool × Bool × Bool := (true, decide (op ≤ 0x65), op == 0x63)

/-- The bits beyond [20:0] that the fields and slots of an opcode cover; none for an undefined opcode. -/
def usedBits (w : BitVec 128) : Option Nat :=
  match opOf w with
  | 0x00 | 0x01 => some 0
  | 0x02 => some (fld 28 24)
  | 0x03 => some (fld 26 24 + mA + mB + fld 79 64)
  | 0x04 => some (fld 27 24 + mA + mB + mC + fld 127 64)
  | 0x05 => some (mC + fld 127 64)
  | 0x06 => some (mA + mC + fld 127 64)
  | 0x07 => some (mA + mB + fld 127 64)
  | 0x08 => some (fld 27 24 + mC)
  | 0x09 | 0x0A => some mC
  | 0x10 => some (fld 24 24 + mA + fld 127 64)
  | 0x11 => some (fld 28 24)
  | 0x12 => some (fld 25 24 + mA + mB + mD + fld 127 64)
  | 0x20 | 0x21 => some (fld 37 24 + mA + mB + mC + mD + mX + fld 68 64 + fld 90 70)
  | 0x30 => some (fld 37 24 + mA + mB + mC + mD + mX + fld 88 64)
  | 0x40 => some (fld 38 24 + mA + mB + mC + mD + (if bits w 37 36 = 3 then mX else 0))
  | 0x50 | 0x51 => some (fld 26 24 + mA + mB + mC + mD)
  | 0x80 => some (mA + mC + mD)
  | 0x81 => some (mB + mC + mD)
  | 0x90 => some (mA + mC + fld 83 64)
  | 0xA0 => some (fld 24 24 + fld 31 28 + mA + fld 68 64)
  | 0xA1 => some (fld 28 24 + mA)
  | 0xA2 => some (fld 28 24)
  | 0xB0 => some (mA + mB + mD + mX + fld 87 64)
  | 0xB1 => some (fld 24 24 + mA + mB + mD + mX + fld 87 64)
  | 0xB2 => some (fld 29 24 + mA + mB + mC + mD + mX + fld 75 64 + fld 92 88)
  | op =>
    if 0x60 ≤ op ∧ op ≤ 0x6F then
      some (fld 27 24 + fld 36 32 + mA + mC + fld 75 64 + (if op = 0x6D ∨ op = 0x6F then fld 31 28 else 0)
        + (if op = 0x6F then fld 37 37 + mD else 0) + (if (vecUses op).2.1 then mB else 0) + (if (vecUses op).2.2 then mX else 0))
    else none

/-- A vector-register slot has bits [4:3] zero (R187). -/
def vecSlotsOk (w : BitVec 128) : Bool :=
  let u := vecUses (opOf w)
  (!bit w 32 || decide (slotC w < 8)) && (!bit w 33 || decide (slotA w < 8)) && (!u.2.1 || !bit w 34 || decide (slotB w < 8))
    && (!u.2.2 || !bit w 35 || decide (slotX w < 8))

/-- Whether a word meets none of the conditions of R162: a defined opcode, reserved fields and unused slots zero. -/
def wordOk (w : BitVec 128) : Bool :=
  match usedBits w with
  | none => false
  | some m =>
    w.toNat &&& (2 ^ 128 - 1 - (2 ^ 21 - 1 + m)) == 0
      && (!(decide (0x60 ≤ opOf w) && decide (opOf w ≤ 0x6F)) || vecSlotsOk w)
      && (!(opOf w == 0x20 || opOf w == 0x21) || bits w 66 64 != 0 || bits w 90 86 == 0)

/-- The unit that runs an opcode (R163). -/
def unitOf (op : Nat) : UnitKind :=
  if op < 0x10 then .sequencer else if op < 0x20 then .waitUnit else if op < 0x60 then .engine
  else if op < 0x90 then .vector else if op < 0xA0 then .mill
  else if op = 0xA0 then .bobbin else if op < 0xB0 then .sequencer else .commons

/-! ## The register interlock (R164) -/

def isVec (w : BitVec 128) : Bool := decide (0x60 ≤ opOf w) && decide (opOf w ≤ 0x6F)

/-- Scalar registers that a word names. -/
def namedScalars (w : BitVec 128) : List Nat :=
  (if isVec w && bit w 33 then [] else [slotA w]) ++ (if isVec w && bit w 34 then [] else [slotB w])
    ++ (if isVec w && bit w 32 then [] else [slotC w]) ++ (if isVec w && bit w 35 then [] else [slotX w]) ++ [slotD w]
    ++ (if opOf w = 0x21 then [slotB w + 1] else [])
    ++ (if opOf w = 0x20 ∨ opOf w = 0x21 then [bits w 90 86] else [])
    ++ (if opOf w = 0xB2 then [bits w 92 88] else [])

/-- Vector registers that a word names. -/
def namedVectors (w : BitVec 128) : List Nat :=
  if isVec w then
    (if bit w 32 then [slotC w] else []) ++ (if bit w 33 then [slotA w] else []) ++ (if bit w 34 then [slotB w] else [])
      ++ (if bit w 35 then [slotX w] else [])
  else []

/-- The scalar register that an unretired instruction will write: catom's result. -/
def pendingScalar (w : BitVec 128) : Option Nat := if opOf w = 0xB2 ∧ slotC w ≠ 0 then some (slotC w) else none
/-- The vector register that an unretired instruction will write. -/
def pendingVector (w : BitVec 128) : Option Nat := if isVec w ∧ bit w 32 then some (slotC w) else none

/-- Whether the interlock is free. -/
def interlockFree (p : Pkg) (c : CtxId) (w : BitVec 128) : Bool :=
  (instsOf p c).all (fun i =>
    (match pendingScalar i.word with | some r => !(namedScalars w).contains r | none => true)
      && (match pendingVector i.word with | some r => !(namedVectors w).contains r | none => true))

/-! ## Queue space (R169) -/

/-- Instructions of a core on a unit that have not started. -/
def queuedOn (p : Pkg) (c : CoreId) (u : UnitKind) : Nat :=
  (p.insts.filter (fun i => i.ctx.core == c && i.unit == u && !i.started && i.ended.isNone)).length

/-- Whether the target unit of a word has space. -/
def unitRoom (p : Pkg) (c : CtxId) (w : BitVec 128) : Bool :=
  match unitOf (opOf w) with
  | .engine => decide (queuedOn p c.core .engine < 8)
  | .vector => decide (queuedOn p c.core .vector < 8)
  | .mill => decide (queuedOn p c.core .mill < 8)
  | .bobbin => decide (queuedOn p c.core .bobbin < 8)
  | .waitUnit => (waitInst p c).isNone
  | .commons => decide ((p.insts.filter (fun i => i.ctx.core == c.core && i.unit == .commons)).length < 32)
  | .sequencer => true

/-- The conditions of R168 beyond the context's state; end has an implied fence (R175), and tstat waits for its token (R172). -/
def mayIssue (p : Pkg) (c : CtxId) (w : BitVec 128) : Bool :=
  let x := ctxOf p c
  let clear (t : Nat) : Bool := Map.getD x.toks t 0 == 0
  (setBits 8 (wmask w)).all clear
    && (!(fenceBit w || opOf w == 0x01) || (instsOf p c).isEmpty)
    && interlockFree p c w && unitRoom p c w
    && (!sigEn w || decide (Map.getD x.toks (sigTok w) 0 < 15))
    && (!(opOf w == 0x08 && decide (bits w 27 24 < 8)) || clear (bits w 27 24))

/-! ## Fetch (R134) -/

/-- The line of a program counter, as its offset from the core-store base. -/
def pcLine (pc : Nat) : Nat := pc * 16 / 64 * 64

/-- The line of a program counter: from the fetch buffer where it is held, else from the store; or the status of the check that refuses it. -/
def fetchLine (p : Pkg) (c : CtxId) (pc : Nat) : Except Status (List Byte) :=
  match Map.look (ctxOf p c).buf (pcLine pc) with
  | some bs => .ok bs
  | none =>
    match storeCheck p c .core (pcLine pc) 64 with
    | .error st => .error st
    | .ok a => .ok (readLocal p a 64)

/-- The instruction at a program counter, or the status of the check that refuses its line. -/
def fetch (p : Pkg) (c : CtxId) (pc : Nat) : Except Status (BitVec 128) :=
  match fetchLine p c pc with
  | .error st => .error st
  | .ok bs => .ok (BitVec.ofNat 128 (leField bs (pc * 16 % 64) 16))

/-- The fetch buffer with the line of a program counter in it: a line that comes in takes the place of the oldest of four (log entry 44). -/
def bufWith (p : Pkg) (c : CtxId) (pc : Nat) : List (Nat × List Byte) :=
  let x := ctxOf p c
  if (Map.look x.buf (pcLine pc)).isSome then x.buf
  else
    match fetchLine p c pc with
    | .ok bs => (x.buf ++ [(pcLine pc, bs)]).drop (x.buf.length - 3)
    | .error _ => x.buf

/-- The armed breakpoint at a context's program counter (R490). -/
def breakpointAt (p : Pkg) (c : CtxId) (pc : Nat) : Option Nat :=
  (List.range 4).find? (fun b =>
    let v := getReg p .dbg (0x0A0 + 8 * b)
    pairOk p .dbg (0x0A0 + 8 * b) && bit v 31 && bits v 30 29 == c.core.die.val && bits v 28 21 == c.core.slot && bits v 17 16 == c.ctx.val && bits v 15 0 == pc)

/-- Whether the stored breakpoints pass their complement checks (R42). -/
def breakpointsOk (p : Pkg) : Bool := (List.range 4).all (fun b => pairOk p .dbg (0x0A0 + 8 * b))

/-- The handle registers of a word, and whether it uses the commons pair: the pairs whose complements its use checks (R42). -/
def handlePairs (x : Ctx) (w : BitVec 128) : List Pair :=
  let h (r : Nat) : List Pair := if r = 0 then [] else [(handleOf (sreg x r)).pair]
  let op := opOf w
  if op = 0x20 ∨ op = 0x21 ∨ op = 0x30 ∨ op = 0x40 ∨ op = 0x50 ∨ op = 0x51 then
    h (slotA w) ++ h (slotB w) ++ h (slotC w) ++ h (slotX w)
  else if isVec w then
    (if bit w 33 || op == 0x6E then [] else h (slotA w)) ++ (if bit w 34 then [] else h (slotB w))
      ++ (if bit w 32 then [] else h (slotC w)) ++ (if bit w 35 then [] else h (slotX w))
  else if op = 0x80 ∨ op = 0x90 then h (slotA w) ++ h (slotC w)
  else if op = 0x81 then h (slotC w)
  else if op = 0xA0 then h (slotA w)
  else if op = 0xA1 then h (slotA w) ++ (if bit w 24 then [.cluster] else [.core])
  else if op = 0xB0 ∨ op = 0xB1 then .commons :: h (slotX w)
  else if op = 0xB2 then [.commons]
  else []

/-! ## Issue (R168, R170) -/

/-- Whether a context's next instruction is looked at: it is RUNNING and not held by a debug halt, a step or a branch. -/
def mayFetch (p : Pkg) (c : CtxId) : Bool :=
  let x := ctxOf p c
  x.state == .running && !x.halted && x.stepInst.isNone && decide (x.brUntil ≤ p.count)

/-- Whether a context's next instruction is ready (R133, R168). -/
def readyCtx (p : Pkg) (c : CtxId) : Bool :=
  mayFetch p c && pairSound p c .core && (match fetch p c (ctxOf p c).pc with | .ok w => mayIssue p c w | .error _ => false)

/-- Array cycles that have begun before a local tick: 1.2 for each (R16). -/
def cyclesAt (t : Nat) : Nat := (t * 6 + 4) / 5

/-- The context of a core that issued last, with one more than its cycle; 0 where none has. -/
def lastIssue (p : Pkg) (k : CoreId) : Nat × Nat :=
  (List.range 4).foldl (fun a i =>
    let n := (ctxOf p ⟨k, ⟨i % 4, Nat.mod_lt _ (by decide)⟩⟩).issuedAt
    if a.2 < n then (i, n) else a) (3, 0)

/-- The array cycle of a core's next issue: each takes one (R133). -/
def issueCycle (p : Pkg) (k : CoreId) : Nat := max (lastIssue p k).2 (cyclesAt p.count)

/-- Whether it is a context's turn (R133): an array cycle of this tick is left, and no context before it in the rotation, which begins after
the one that issued last, is ready. -/
def mayTurn (p : Pkg) (c : CtxId) : Bool :=
  let first := ((lastIssue p c.core).1 + 1) % 4
  decide (issueCycle p c.core < cyclesAt (p.count + 1))
    && (List.range ((c.ctx.val + 4 - first) % 4)).all (fun k => !readyCtx p ⟨c.core, ⟨(first + k) % 4, Nat.mod_lt _ (by decide)⟩⟩)

/-- The instruction enters: it reads its registers, its token's count rises, the program counter advances by one and the CORE
tally counts it (R157, R160, R164, R170). -/
def issueInst (p : Pkg) (c : CtxId) (w : BitVec 128) : Pkg × Inst :=
  let (p, n) := freshId p
  let x := ctxOf p c
  let i : Inst :=
    { id := n, ctx := c, pc := x.pc, word := w, unit := unitOf (opOf w), a := sreg x (slotA w), b := sreg x (slotB w)
      b1 := sreg x ((slotB w + 1) % 32), c := sreg x (slotC w), d := sreg x (slotD w), x := sreg x (slotX w)
      k := if opOf w = 0xB2 then sreg x (bits w 92 88) else if opOf w = 0x20 ∨ opOf w = 0x21 then sreg x (bits w 90 86) else 0
      blk := [], recv := none, worst := 0, started := false, ended := none }
  let y := { x with
    pc := (x.pc + 1) % 65536
    toks := if sigEn w then Map.put x.toks (sigTok w) (Map.getD x.toks (sigTok w) 0 + 1) else x.toks
    skipBp := false
    stepInst := if x.stepping then some n else none
    issuedAt := issueCycle p c.core + 1
    buf := bufWith p c x.pc }
  (tallyIn { setCtx p c y with insts := p.insts ++ [i] } (.core c.core) 1, i)

/-- An instruction row: the next instruction of a RUNNING context that is not held by a debug halt or a branch is fetched. A
refused fetch is counted (R33, R152) and stops the context with cause 0x4 (R134). An instruction of the row that may issue, and whose
context's turn it is, meets an armed breakpoint, is refused under R162, or issues and runs. A stored breakpoint that fails its complement
check is not used, and DBG enters FAULT (R42). -/
def runRow (row : BitVec 128 → Bool) (go : Pkg → Inst → Pkg) (p : Pkg) (c : CtxId) : Pkg :=
  let x := ctxOf p c
  if !mayFetch p c then p
  else if !pairSound p c .core then cmpFail p (.core c.core)
  else
    match fetch p c x.pc with
    | .error st => beginStop (countStore p c false st) c ⟨st, 4, 0, x.pc, none, 0, 0⟩
    | .ok w =>
      if !row w || !mayIssue p c w || !mayTurn p c then p
      else
        let p := if x.skipBp || breakpointsOk p then p else cmpFail p .dbg
        match (if x.skipBp then none else breakpointAt p c x.pc) with
        | some b => raise (setCtx p c { x with halted := true, bp := some b, stepping := false }) .dbg 16
        | none =>
          if (handlePairs x w).any (fun k => !pairSound p c k) then cmpFail p (.core c.core)
          else
            let r := issueInst p c w
            if wordOk w then go r.1 r.2 else retire r.1 r.2 Status.failedOpcode

/-- A row of one opcode. -/
def opRow (op : Nat) (w : BitVec 128) : Bool := opOf w == op

/-- An instruction that retires as it issues, with its effect on the context before it. -/
def retireNow (p : Pkg) (i : Inst) (st : Status) (f : Ctx → Ctx) : Pkg :=
  retire (setCtx p i.ctx (f (ctxOf p i.ctx))) i st

/-- An instruction that has run on its unit and ends; INSTR_RETIRE retires it. -/
def endNow (p : Pkg) (i : Inst) (st : Status) : Pkg := endInst (updInst p i.id (fun (n : Inst) => { n with started := true })) i.id st

end Sys2Proof.Machine
end

