-- ==== Sys2Proof/Machine/Ranges.lean ====
section
/-! DEFINITION. Store ranges of instructions: rows at a pitch relative to a base/bound pair, and the checks of R123 over them. -/
namespace Sys2Proof.Machine
open Sys2Proof

/-- A plane of an operand: rows of n bytes, pitch bytes apart, from a relative address of a pair. -/
structure Rng where
  pair : Pair
  x : Nat
  rows : Nat
  n : Nat
  pitch : Nat
  deriving DecidableEq, Repr

/-- Bytes from its first to its last byte. -/
def Rng.len (r : Rng) : Nat := if r.rows = 0 then 0 else (r.rows - 1) * r.pitch + r.n
/-- The local offset of its first byte. -/
def Rng.at_ (p : Pkg) (c : CtxId) (r : Rng) : Nat := pairOrigin c r.pair + pairBase p c r.pair + r.x
/-- The local offset of a row. -/
def Rng.row (p : Pkg) (c : CtxId) (r : Rng) (k : Nat) : Nat := r.at_ p c + k * r.pitch
/-- The store it lies in. -/
def Rng.store (c : CtxId) (r : Rng) : StoreId := ctxStore c (r.pair == .cluster)

def Rng.inBound (p : Pkg) (c : CtxId) (r : Rng) : Bool := (pairAddr p c r.pair r.x r.len).isSome
def Rng.inStore (p : Pkg) (c : CtxId) (r : Rng) : Bool :=
  decide (r.at_ p c - (r.store c).base + r.len ≤ (r.store c).size)
def Rng.online (p : Pkg) (c : CtxId) (r : Rng) : Bool := storeServes p (r.store c)
/-- Whether a row of it touches a bank that sleeps or is being woken. -/
def Rng.asleep (p : Pkg) (c : CtxId) (r : Rng) : Bool :=
  (List.range r.rows).any (fun k => rangeAsleep p (r.store c) (r.row p c k - (r.store c).base) r.n)

/-- Whether two extents share a line (R123). -/
def Rng.meets (p : Pkg) (c : CtxId) (a b : Rng) : Bool :=
  a.store c == b.store c && a.len != 0 && b.len != 0
    && decide (a.at_ p c / 64 ≤ (b.at_ p c + b.len - 1) / 64) && decide (b.at_ p c / 64 ≤ (a.at_ p c + a.len - 1) / 64)

/-- The range checks of R123 in their order; the overlap check is made between the outputs and the inputs when asked for. -/
def rangeCheck (p : Pkg) (c : CtxId) (ins outs : List Rng) (overlap : Bool) : Status :=
  let all := ins ++ outs
  if !all.all (Rng.inBound p c) then Status.refusedBound
  else if !all.all (Rng.inStore p c) then Status.refusedUnmapped
  else if !all.all (Rng.online p c) then Status.refusedOffline
  else if overlap && outs.any (fun o => ins.any (fun i => o.meets p c i)) then Status.refusedOverlap
  else if all.any (Rng.asleep p c) then Status.refusedAsleep
  else Status.done

/-- The counts of a refused range (R33): refusals 3 and 5 in the CMN page of the die. -/
def countRange (p : Pkg) (c : CtxId) (st : Status) : Pkg :=
  if st = Status.refusedUnmapped ∨ st = Status.refusedOffline then countRefusal p ⟨0x1D, c.core.die.val⟩ else p

/-- Ranges that a store has admitted: accesses of a cluster store count as items of its page (R159, R392). -/
def admitRanges (p : Pkg) (c : CtxId) (rs : List Rng) : Pkg := rs.foldl (fun q r => if r.rows = 0 then q else clstAccess q (r.store c)) p

/-- The bytes of a row. -/
def Rng.read (p : Pkg) (c : CtxId) (r : Rng) (k : Nat) : List Byte := readLocal p (r.row p c k) r.n
/-- Whether a row touches a poisoned line. -/
def Rng.bad (p : Pkg) (c : CtxId) (r : Rng) (k : Nat) : Bool := localPoisoned p (r.row p c k) r.n
/-- A row written, poisoned when tagged. -/
def Rng.write (p : Pkg) (c : CtxId) (r : Rng) (k : Nat) (bs : List Byte) (bad : Bool) : Pkg :=
  writeLocal p (r.row p c k) bs (fun _ => bad)
/-- Every row written poisoned (R98, R125). -/
def Rng.poison (c : CtxId) (p : Pkg) (r : Rng) : Pkg :=
  (List.range r.rows).foldl (fun q k => poisonLocal q (r.row q c k) r.n) p
/-- Whether any row is poisoned. -/
def Rng.anyBad (p : Pkg) (c : CtxId) (r : Rng) : Bool := (List.range r.rows).any (r.bad p c)

/-- Dimensions of a register (R166). -/
def dimM (v : DWord) : Nat := bits v 63 48
def dimK (v : DWord) : Nat := bits v 47 23
def dimN (v : DWord) : Nat := bits v 22 0
/-- A length register: its count, none when bits [63:40] are not zero or the count is. -/
def lenOf (v : DWord) : Option Nat := if bits v 63 40 = 0 ∧ bits v 39 0 ≠ 0 then some (bits v 39 0) else none

/-- A plane of consecutive bytes at a handle's element plane. -/
def Handle.flat (h : Handle) (n : Nat) : Rng := ⟨h.pair, h.eplane * 64, 1, n, n⟩

end Sys2Proof.Machine
end

