-- ==== Sys2Proof/Machine/Matrix.lean ====
section
/-! DEFINITION. What the matrix engine computes (R104–R118, R181–R186): the operands of each form, the format checks of R123, and one
drained row of a pass. -/
namespace Sys2Proof.Machine
open Sys2Proof

/-! ## Operands -/

/-- The parameters of a convolution (R114, R184). -/
structure Conv where
  taps : Nat
  stride : Nat
  pad : Nat
  width : Nat
  channels : Nat
  deriving DecidableEq, Repr

/-- A multiply or convolution (R105, R114): k counts the K positions of an operand-B row. -/
structure Mm where
  fa : OpFmt
  fb : OpFmt
  fo : OpFmt
  sparse : Bool
  m : Nat
  k : Nat
  n : Nat
  a : Handle
  b : Handle
  mt : Handle
  out : Handle
  acc : Option Handle
  accIn : Bool
  sat : Bool
  conv : Option Conv
  deriving DecidableEq, Repr

/-- An element-wise instruction (R116, R185). -/
structure Ew where
  fa : OpFmt
  fb : OpFmt
  fo : OpFmt
  op : Nat
  sat : Bool
  a : Handle
  b : Handle
  c : Handle
  out : Handle
  len : Nat
  deriving DecidableEq, Repr

/-- A pairwise compare (R117, R186). -/
structure Cmp where
  op : Nat
  signed_ : Bool
  a : Handle
  b : Handle
  out : Handle
  m : Nat
  k : Nat
  n : Nat
  deriving DecidableEq, Repr

/-- What an engine instruction does. -/
inductive Job where
  | mm (x : Mm)
  | ew (x : Ew)
  | cmp (x : Cmp)
  | cmpAl (signed_ : Bool) (a b out : Handle) (len : Nat)
  deriving DecidableEq, Repr

/-- The collective suffix (R181). -/
def collOf (w : BitVec 128) : Nat := if opOf w = 0x20 ∨ opOf w = 0x21 then bits w 66 64 else 0
/-- Bytes i to i + 7 of the collective block, as a handle (R339). -/
def blkHandle (i : Inst) (off : Nat) : Handle := handleOf (BitVec.ofNat 64 (leField i.blk off 8))

/-- K positions of a convolution's operand B: whole tiles of G × T positions padded to 128, the last one as far as its channels
reach (R114; DESIGN CHOICE, log entry 40). -/
def Conv.g (v : Conv) : Nat := 128 / v.taps
def Conv.tiles (v : Conv) : Nat := (v.channels + v.g - 1) / v.g
def Conv.k (v : Conv) : Nat := (v.tiles - 1) * 128 + (v.channels - (v.tiles - 1) * v.g) * v.taps

/-- The operands of mma and mma.sp (R181): a reduce form computes FP32 into partial, a combine its ofmt into partial, and the forms
that gather take A from their gathered range (R339, R347, R348). -/
def mmOf (i : Inst) : Option Mm :=
  let w := i.word
  match opFmt (bits w 27 24), opFmt (bits w 31 28), opFmt (bits w 35 32) with
  | some fa, some fb, some fo =>
    let coll := collOf w
    let rows := match i.recv with | some n => n | none => dimM i.d
    some
      { fa := fa, fb := fb, fo := if coll = 1 ∨ coll = 2 then .fp32 else fo, sparse := opOf w == 0x21, m := rows, k := dimK i.d
        n := dimN i.d, a := if coll = 3 ∨ coll = 4 then blkHandle i 40 else handleOf i.a, b := handleOf i.b, mt := handleOf i.b1
        out := if coll = 1 ∨ coll = 2 ∨ coll = 5 then blkHandle i 16 else handleOf i.c
        acc := if slotX w = 0 then none else some (handleOf i.x), accIn := bit w 36, sat := bit w 37, conv := none }
  | _, _, _ => none

/-- The operands of conv (R184). -/
def convOf (i : Inst) : Option Mm :=
  let w := i.word
  match opFmt (bits w 27 24), opFmt (bits w 31 28), opFmt (bits w 35 32) with
  | some fa, some fb, some fo =>
    let v : Conv := ⟨bits w 67 64 + 1, bits w 68 68 + 1, bits w 72 69, bits w 88 73, dimK i.d⟩
    some
      { fa := fa, fb := fb, fo := fo, sparse := false, m := dimM i.d, k := v.k, n := dimN i.d, a := handleOf i.a, b := handleOf i.b
        mt := handleOf 0, out := handleOf i.c, acc := if slotX w = 0 then none else some (handleOf i.x), accIn := bit w 36
        sat := bit w 37, conv := some v }
  | _, _, _ => none

/-- The operands of ew (R185). -/
def ewOf (i : Inst) : Option Ew :=
  let w := i.word
  match opFmt (bits w 27 24), opFmt (bits w 31 28), opFmt (bits w 35 32), lenOf i.d with
  | some fa, some fb, some fo, some n =>
    some ⟨fa, fb, fo, bits w 37 36, bit w 38, handleOf i.a, handleOf i.b, handleOf i.x, handleOf i.c, n⟩
  | _, _, _, _ => none

/-- What an engine instruction does; none where a format or a length is reserved. -/
def jobOf (i : Inst) : Option Job :=
  let w := i.word
  match opOf w with
  | 0x20 | 0x21 => (mmOf i).map Job.mm
  | 0x30 => (convOf i).map Job.mm
  | 0x40 => (ewOf i).map Job.ew
  | 0x50 => some (.cmp ⟨bits w 25 24, bit w 26, handleOf i.a, handleOf i.b, handleOf i.c, dimM i.d, dimK i.d, dimN i.d⟩)
  | _ => (lenOf i.d).map (fun n => .cmpAl (bit w 26) (handleOf i.a) (handleOf i.b) (handleOf i.c) n)

/-! ## Planes -/

/-- The element plane of an operand of rows × n elements. -/
def Handle.elems (h : Handle) (f : OpFmt) (rows n : Nat) : Rng := ⟨h.pair, h.eplane * 64, rows, rowBytes f n, h.epitch * 64⟩
/-- The scale plane of an operand. -/
def Handle.scales (h : Handle) (rows n : Nat) : Rng := ⟨h.pair, h.splane * 64, rows, blocksOf n, h.spitch * 64⟩
/-- The planes of an operand: elements, and scales for an MX format. -/
def Handle.planes (h : Handle) (f : OpFmt) (rows n : Nat) : List Rng :=
  if f.isMx then [h.elems f rows n, h.scales rows n] else [h.elems f rows n]
/-- Whether a handle is one of rows × n elements of a format (R165, R166): pitches where they are used, at least a row long. -/
def Handle.fits (h : Handle) (f : OpFmt) (n : Nat) : Bool :=
  h.clean && decide (1 ≤ h.epitch) && decide (rowBytes f n ≤ h.epitch * 64)
    && (if f.isMx then decide (1 ≤ h.spitch) && decide (blocksOf n ≤ h.spitch * 64) else h.spitch == 0 && h.splane == 0)
/-- A vector operand's handle: space, eplane and, for MX data, splane (R165). -/
def Handle.vector (h : Handle) (f : OpFmt) : Bool := h.clean && h.epitch == 0 && h.spitch == 0 && (f.isMx || h.splane == 0)
/-- A vector operand's planes. -/
def Handle.vectorPlanes (h : Handle) (f : OpFmt) (n : Nat) : List Rng :=
  h.flat (rowBytes f n) :: (if f.isMx then [⟨h.pair, h.splane * 64, 1, blocksOf n, blocksOf n⟩] else [])

/-! ## Multiply and convolution -/

/-- The kept elements of a stored sparse row (R79). -/
def keptOf (k : Nat) : Nat := 16 * blocksOf k
/-- Elements of an operand-B row in its element plane. -/
def Mm.bElems (x : Mm) : Nat := if x.sparse then keptOf x.k else x.k
/-- Whether the dual form applies (R105). -/
def Mm.dual (x : Mm) : Bool := x.fa == .mxfp4 && x.fb == .mxfp4
/-- K positions of a span (R106). -/
def Mm.kp (x : Mm) : Nat := (if x.dual then 256 else 128) * (if x.sparse then 2 else 1)
/-- K spans and N blocks (R107). -/
def Mm.spans (x : Mm) : Nat := (x.k + x.kp - 1) / x.kp
def Mm.blocks (x : Mm) : Nat := (x.n + 127) / 128
def Mm.passes (x : Mm) : Nat := x.blocks * x.spans

/-- The accumulator range: M rows of 512 bytes (R108, R165). -/
def accRng (h : Handle) (m : Nat) : Rng := ⟨h.pair, h.eplane * 64, m, 512, 512⟩

/-- Operand A's planes: the rows of a multiply, or the channels of a convolution. -/
def Mm.aPlanes (x : Mm) : List Rng :=
  match x.conv with
  | none => x.a.planes x.fa x.m x.k
  | some v => x.a.planes x.fa v.channels v.width
/-- The metadata plane of a sparse operand (R79, R165), in the store of B. -/
def Mm.metaRng (x : Mm) : Rng := ⟨x.b.pair, x.mt.splane * 64, x.n, 4 * blocksOf x.k, x.mt.spitch * 64⟩
/-- Operand B's planes. -/
def Mm.bPlanes (x : Mm) : List Rng :=
  x.b.elems x.fb x.n x.bElems :: ((if x.fb.isMx then [x.b.scales x.n x.k] else []) ++ (if x.sparse then [x.metaRng] else []))
/-- The output's planes. -/
def Mm.oPlanes (x : Mm) : List Rng := x.out.planes x.fo x.m x.n

/-- The pairs of R86 and R115. -/
def Mm.pairOk (x : Mm) : Bool :=
  let plain (f : OpFmt) : Bool := f == .e4m3 || f == .e5m2
  if x.fa = .fp32 ∨ x.fb = .fp32 then false
  else if x.fa = .bf16 ∨ x.fb = .bf16 then x.fa == x.fb && !x.sparse
  else x.conv.isNone || plain x.fa

/-- The format checks of a multiply or a convolution (R108, R113–R115, R165, R166, R184), but for the handle of operand A or of the output
where a collective block gives it and has not been read. -/
def Mm.okBut (x : Mm) (noA noOut : Bool) : Bool :=
  x.pairOk && decide (1 ≤ x.m) && decide (1 ≤ x.k) && decide (1 ≤ x.n)
    && (match x.conv with
      | none => noA || x.a.fits x.fa x.k
      | some v => decide (1 ≤ v.width) && decide (1 ≤ v.channels) && decide (v.pad < v.taps) && x.a.fits x.fa v.width)
    && x.b.clean && decide (1 ≤ x.b.epitch) && decide (rowBytes x.fb x.bElems ≤ x.b.epitch * 64)
    && (if x.fb.isMx then decide (1 ≤ x.b.spitch) && decide (blocksOf x.k ≤ x.b.spitch * 64) else x.b.spitch == 0 && x.b.splane == 0)
    && (!x.sparse || (x.mt.clean && !x.mt.cluster && x.mt.epitch == 0 && x.mt.eplane == 0 && decide (1 ≤ x.mt.spitch)
        && decide (4 * blocksOf x.k ≤ x.mt.spitch * 64)))
    && (noOut || x.out.fits x.fo x.n) && (match x.acc with | some h => h.plain | none => true)
    && (x.fo == .fp32 || x.acc.isSome || (x.passes == 1 && !x.accIn))

/-- All of them. -/
def Mm.ok (x : Mm) : Bool := x.okBut false false

/-- Whether bytes of a plane's row are poisoned. -/
def Rng.badIn (p : Pkg) (c : CtxId) (r : Rng) (k off n : Nat) : Bool := localPoisoned p (r.row p c k + off) n
/-- The last byte of a run of n bits keeps the bits beyond the run as they were: no element beyond the end of a row is written (R97). -/
def keepTail (n : Nat) (old : Byte) (bs : List Byte) : List Byte :=
  if n % 8 = 0 ∨ bs = [] then bs
  else bs.dropLast ++ [BitVec.ofNat 8 ((nth bs (bs.length - 1) 0).toNat % 2 ^ (n % 8) + old.toNat / 2 ^ (n % 8) * 2 ^ (n % 8))]
/-- A run of n bits written at a local offset, poisoned where it depends on poisoned input (R97, R98). -/
def writeRunBits (p : Pkg) (a n : Nat) (bs : List Byte) (bad : Bool) : Pkg :=
  writeLocal p a (keepTail n (nth (readLocal p (a + bs.length - 1) 1) 0 0) bs) (fun _ => bad)
/-- Bits of a row from a byte offset written. -/
def Rng.writeAt (p : Pkg) (c : CtxId) (r : Rng) (k off n : Nat) (bs : List Byte) (bad : Bool) : Pkg :=
  writeRunBits p (r.row p c k + off) n bs bad

/-- The 32 values of block b of a dense row of k elements, with the block's scale code (R76, R90). -/
def denseBlock (f : OpFmt) (els scs : List Byte) (k b : Nat) : List Num × Nat :=
  ((List.range 32).map (fun i => if 32 * b + i < k then elemVal f (elemCode f els (32 * b + i)) else .fin false 0 0),
    if f.isMx && decide (32 * b < k) then (nth scs b 0).toNat else 127)

/-- The metadata of group g of block b of a row (R79). -/
def metaOf (md : List Byte) (b g : Nat) : Nat := leField md (4 * b) 4 / 16 ^ g % 16
/-- Whether a group's metadata is valid; a group wholly beyond K is not checked (R79, R80). -/
def metaValid (md : List Byte) (k b g : Nat) : Bool :=
  decide (k ≤ 32 * b + 4 * g) || decide (metaOf md b g % 4 < metaOf md b g / 4)

/-- The kept elements of block b of a sparse row with their positions in the block, those at or beyond K left out (R79). -/
def sparseBlock (f : OpFmt) (els scs md : List Byte) (k b : Nat) : List (Nat × Num) × Nat :=
  (((List.range 16).map (fun j =>
      (4 * (j / 2) + metaOf md b (j / 2) / 4 ^ (j % 2) % 4, elemVal f (elemCode f els (16 * b + j))))).filter
        (fun x => decide (32 * b + x.1 < k)),
    if f.isMx && decide (32 * b < k) then (nth scs b 0).toNat else 127)

def Mm.bRow (x : Mm) (p : Pkg) (c : CtxId) (n : Nat) : BRow :=
  ⟨(x.b.elems x.fb x.n x.bElems).read p c n, if x.fb.isMx then (x.b.scales x.n x.k).read p c n else [],
    if x.sparse then x.metaRng.read p c n else []⟩

/-- Block b of operand A for an output row: 32 values and a scale code. For a convolution the values are the input positions of the
block's channels and taps (R114). -/
def Mm.aBlock (x : Mm) (p : Pkg) (c : CtxId) (row b : Nat) : List Num × Nat :=
  match x.conv with
  | none =>
    denseBlock x.fa ((x.a.elems x.fa x.m x.k).read p c row) (if x.fa.isMx then (x.a.scales x.m x.k).read p c row else []) x.k b
  | some v =>
    ((List.range 32).map (fun i =>
      let pos := (32 * b + i) % 128
      let j := (32 * b + i) / 128 * v.g + pos / v.taps
      let at_ := v.stride * row + pos % v.taps
      if pos < v.g * v.taps ∧ j < v.channels ∧ v.pad ≤ at_ ∧ at_ < v.width + v.pad then
        elemVal x.fa (elemCode x.fa ((x.a.elems x.fa v.channels v.width).read p c j) (at_ - v.pad))
      else .fin false 0 0), 127)

/-- Whether a position of a convolution's tile is one of those that are zero in both operands (R114). -/
def Mm.unusedPos (x : Mm) (pos : Nat) : Bool :=
  match x.conv with
  | none => false
  | some v => decide (v.g * v.taps ≤ pos % 128)

/-- One block sum of an output element (R85, R87). -/
def Mm.block (x : Mm) (a : List Num × Nat) (r : BRow) (b : Nat) : Num :=
  if x.sparse then
    let k := sparseBlock x.fb r.els r.scs r.md x.k b
    blockSum (k.1.map (fun e => (nth a.1 e.1 .nan).mul e.2)) a.2 k.2 false
  else
    let d := denseBlock x.fb r.els r.scs x.k b
    blockSum ((List.range 32).map (fun i =>
      if x.unusedPos (32 * b + i) then Num.fin false 0 0 else (nth a.1 i .nan).mul (nth d.1 i .nan))) a.2 d.2 false

/-- The tiles t of a span that hold positions below K. -/
def Mm.tilesOf (x : Mm) (span : Nat) : List Nat :=
  (List.range (x.kp / 128)).filterMap (fun j =>
    if (span * (x.kp / 128) + j) * 128 < x.k then some (span * (x.kp / 128) + j) else none)

/-- One output element over the tiles of a span (R89). -/
def Mm.element (x : Mm) (a : Nat → List Num × Nat) (r : BRow) (tiles : List Nat) (cin : Num) : Num :=
  tiles.foldl (fun acc t =>
    addTile acc (x.block (a (4 * t)) r (4 * t)) (x.block (a (4 * t + 1)) r (4 * t + 1)) (x.block (a (4 * t + 2)) r (4 * t + 2))
      (x.block (a (4 * t + 3)) r (4 * t + 3))) cin

/-- Whether elements e₀ to e₁ of a plane's row, or a span's scales of it, are poisoned. -/
def elemsBad (p : Pkg) (c : CtxId) (f : OpFmt) (r : Rng) (i e0 e1 : Nat) : Bool := r.badIn p c i (rowBytes f e0) (rowBytes f e1 - rowBytes f e0)
def scalesBad (p : Pkg) (c : CtxId) (r : Rng) (i k0 k1 : Nat) : Bool := r.badIn p c i (k0 / 32) (blocksOf k1 - k0 / 32)

/-- Whether what an output row reads of operand A in a span is poisoned (R98). -/
def Mm.rowBad (x : Mm) (p : Pkg) (c : CtxId) (row span : Nat) : Bool :=
  let k0 := span * x.kp
  let k1 := min x.k (k0 + x.kp)
  match x.conv with
  | none => elemsBad p c x.fa (x.a.elems x.fa x.m x.k) row k0 k1 || (x.fa.isMx && scalesBad p c (x.a.scales x.m x.k) row k0 k1)
  | some v =>
    (List.range v.g).any (fun j =>
      let ch := span * v.g + j
      let lo := max v.pad (v.stride * row)
      let hi := min (v.width + v.pad) (v.stride * row + v.taps)
      decide (ch < v.channels) && decide (lo < hi) && elemsBad p c x.fa (x.a.elems x.fa v.channels v.width) ch (lo - v.pad) (hi - v.pad))

/-- Whether what the held tile of a pass is read from is poisoned (R98). -/
def Mm.tileBad (x : Mm) (p : Pkg) (c : CtxId) (pass : Nat) : Bool :=
  let blk := pass / x.spans
  let k0 := pass % x.spans * x.kp
  let k1 := min x.k (k0 + x.kp)
  (List.range (min 128 (x.n - blk * 128))).any (fun j =>
    let n := blk * 128 + j
    elemsBad p c x.fb (x.b.elems x.fb x.n x.bElems) n (if x.sparse then k0 / 2 else k0) (if x.sparse then keptOf k1 else k1)
      || (x.fb.isMx && scalesBad p c (x.b.scales x.n x.k) n k0 k1)
      || (x.sparse && x.metaRng.badIn p c n (k0 / 8) (4 * (blocksOf k1 - k0 / 32))))

/-- The metadata check of a held tile as it loads (R80). -/
def Mm.tileMetaOk (x : Mm) (p : Pkg) (c : CtxId) (pass : Nat) : Bool :=
  let blk := pass / x.spans
  let span := pass % x.spans
  !x.sparse || (List.range (min 128 (x.n - blk * 128))).all (fun j =>
    let md := x.metaRng.read p c (blk * 128 + j)
    (List.range (x.kp / 32)).all (fun b => (List.range 8).all (fun g =>
      metaValid md x.k (span * (x.kp / 32) + b) g)))

/-- The rows of operand B that the held tile of a pass keeps (R105). -/
def Mm.tileRows (x : Mm) (p : Pkg) (c : CtxId) (pass : Nat) : List BRow :=
  (List.range (min 128 (x.n - pass / x.spans * 128))).map (fun j => x.bRow p c (pass / x.spans * 128 + j))

/-- Where intermediate FP32 results of an N block lie (R108): a range and the byte offset of the block in its rows. -/
def Mm.inter (x : Mm) (blk : Nat) : Option (Rng × Nat) :=
  if x.fo = .fp32 then some (x.out.elems .fp32 x.m x.n, blk * 512)
  else x.acc.map (fun h => (accRng h x.m, 0))

/-- One output row of a pass (R105, R107, R108, R110): the row's 128 columns over the held tile onto their c_in, written as FP32 between
spans and in the output format after the last, poisoned where it met poison (R98). Answers whether it did. -/
def Mm.drain (x : Mm) (p : Pkg) (c : CtxId) (t : HeldTile) (row : Nat) : Pkg × Bool :=
  let blk := t.pass / x.spans
  let span := t.pass % x.spans
  let cols := min 128 (x.n - blk * 128)
  let hasIn := decide (0 < span) || x.accIn
  let cinBytes := if hasIn then
      match x.inter blk with
      | some r => readLocal p (r.1.row p c row + r.2) (4 * cols)
      | none => []
    else []
  let cinBad := hasIn && (match x.inter blk with | some r => r.1.badIn p c row r.2 (4 * cols) | none => false)
  let tiles := x.tilesOf span
  let as_ := tiles.flatMap (fun t => [4 * t, 4 * t + 1, 4 * t + 2, 4 * t + 3].map (fun b => (b, x.aBlock p c row b)))
  let a (b : Nat) : List Num × Nat := Map.getD as_ b ([], 127)
  let vals := (List.range cols).map (fun j =>
    x.element a (nth t.rows j ⟨[], [], []⟩) tiles (if hasIn then ofF32 (leField cinBytes (4 * j) 4) else .fin false 0 0))
  let bad := x.rowBad p c row span || t.bad || cinBad
  if span + 1 = x.spans then
    let r := convertRow x.fo x.sat vals
    let q := (x.out.elems x.fo x.m x.n).writeAt p c row (rowBytes x.fo (blk * 128)) (cols * x.fo.bitsOf) r.2 bad
    (if x.fo.isMx then (x.out.scales x.m x.n).writeAt q c row (blk * 4) (8 * r.1.length) r.1 bad else q, bad)
  else
    match x.inter blk with
    | some r => (r.1.writeAt p c row r.2 (32 * cols) (vals.flatMap (fun v => leBytes 4 (toF32 v))) bad, bad)
    | none => (p, bad)

/-! ## Element-wise and compare -/

/-- The input formats of R116. -/
def ewIn (f : OpFmt) : Bool := f == .e4m3 || f == .e5m2 || f == .mxe4m3 || f == .mxe5m2 || f == .mxint8 || f == .bf16

/-- The format checks of ew (R116, R165, R166). -/
def Ew.ok (x : Ew) : Bool :=
  ewIn x.fa && ewIn x.fb && x.a.vector x.fa && x.b.vector x.fb && x.out.vector x.fo && (x.op != 3 || x.c.plain)

/-- Element e of a vector operand, with its scale (R76, R116). -/
def vecElem (p : Pkg) (c : CtxId) (h : Handle) (f : OpFmt) (len e : Nat) : Num :=
  let v := elemVal f (elemCode f (readLocal p ((h.flat (rowBytes f len)).at_ p c + rowBytes f (e / 128 * 128)) (rowBytes f 128)) (e % 128))
  if f.isMx then
    let s := (nth (readLocal p ((⟨h.pair, h.splane * 64, 1, blocksOf len, blocksOf len⟩ : Rng).at_ p c + e / 32) 1) 0 0).toNat
    if s = 255 then .nan else v.scale ((s : Int) - 127)
  else v

/-- The operations of ew, exact and rounded once to FP32 (R116). -/
def ewValue (op : Nat) (a b c : Num) : Num :=
  match op with
  | 0 => round32 (a.mul b)
  | 1 => round32 (a.add b)
  | 2 => round32 (a.add b.neg)
  | _ => round32 (Num.fma a b c)

/-- Whether 128-element group q of a vector operand's planes is poisoned. -/
def vecBad (p : Pkg) (c : CtxId) (h : Handle) (f : OpFmt) (len q n : Nat) : Bool :=
  localPoisoned p ((h.flat (rowBytes f len)).at_ p c + rowBytes f (128 * q)) (rowBytes f n)
    || (f.isMx && localPoisoned p ((⟨h.pair, h.splane * 64, 1, blocksOf len, blocksOf len⟩ : Rng).at_ p c + 4 * q) (blocksOf n))

/-- One group of 128 elements (R116). -/
def Ew.drain (x : Ew) (p : Pkg) (c : CtxId) (q : Nat) : Pkg × Bool :=
  let n := min 128 (x.len - 128 * q)
  let vals := (List.range n).map (fun i =>
    let e := 128 * q + i
    ewValue x.op (vecElem p c x.a x.fa x.len e) (vecElem p c x.b x.fb x.len e)
      (if x.op = 3 then vecElem p c x.c .fp32 x.len e else .fin false 0 0))
  let r := convertRow x.fo x.sat vals
  let bad := vecBad p c x.a x.fa x.len q n || vecBad p c x.b x.fb x.len q n || (x.op == 3 && vecBad p c x.c .fp32 x.len q n)
  let s := writeRunBits p ((x.out.flat (rowBytes x.fo x.len)).at_ p c + rowBytes x.fo (128 * q)) (n * x.fo.bitsOf) r.2 bad
  let s := if x.fo.isMx then
      writeRunBits s ((⟨x.out.pair, x.out.splane * 64, 1, blocksOf x.len, blocksOf x.len⟩ : Rng).at_ s c + 4 * q) (8 * r.1.length) r.1 bad
    else s
  (s, bad)

/-- A code as an integer (R117). -/
def codeVal (sg : Bool) (b : Byte) : Int := if sg then signed 8 b.toNat else b.toNat

/-- The pairwise operation and reduction of R117 over the codes of a span, onto what the spans before gave. -/
def cmpReduce (op : Nat) (sg : Bool) (a b : List Byte) (cin : Option Int) : Int :=
  let l := (a.zip b).map (fun (x : Byte × Byte) =>
    let u := codeVal sg x.1
    let v := codeVal sg x.2
    match op with
    | 0 => ((u - v).natAbs : Int)
    | 1 => if u = v then 1 else 0
    | 2 => min u v
    | _ => max u v)
  match op, cin with
  | 0, o | 1, o => l.foldl (· + ·) (o.getD 0)
  | 2, some o => l.foldl min o
  | 2, none => l.foldl min (l.headD 0)
  | _, some o => l.foldl max o
  | _, none => l.foldl max (l.headD 0)

/-- The planes of a pairwise compare. -/
def Cmp.aRng (x : Cmp) : Rng := x.a.elems .e4m3 x.m x.k
def Cmp.bRng (x : Cmp) : Rng := x.b.elems .e4m3 x.n x.k
def Cmp.oRng (x : Cmp) : Rng := x.out.elems .fp32 x.m x.n
def Cmp.spans (x : Cmp) : Nat := (x.k + 127) / 128

/-- The format checks of cmp (R117, R165, R166). -/
def Cmp.ok (x : Cmp) : Bool :=
  decide (1 ≤ x.m) && decide (1 ≤ x.k) && decide (1 ≤ x.n) && decide (x.k ≤ 2 ^ 24) && x.a.fits .e4m3 x.k && x.b.fits .e4m3 x.k
    && x.out.fits .fp32 x.n

/-- The rows of operand B that a compare's held tile keeps, and whether what it is read from is poisoned (R105, R117). -/
def Cmp.tileRows (x : Cmp) (p : Pkg) (c : CtxId) (pass : Nat) : List BRow :=
  (List.range (min 128 (x.n - pass / x.spans * 128))).map (fun j => ⟨x.bRng.read p c (pass / x.spans * 128 + j), [], []⟩)
def Cmp.tileBad (x : Cmp) (p : Pkg) (c : CtxId) (pass : Nat) : Bool :=
  let k0 := pass % x.spans * 128
  (List.range (min 128 (x.n - pass / x.spans * 128))).any (fun j => x.bRng.badIn p c (pass / x.spans * 128 + j) k0 (min 128 (x.k - k0)))

/-- One output row of a compare pass (R117). -/
def Cmp.drain (x : Cmp) (p : Pkg) (c : CtxId) (t : HeldTile) (row : Nat) : Pkg × Bool :=
  let blk := t.pass / x.spans
  let k0 := t.pass % x.spans * 128
  let n := min 128 (x.k - k0)
  let cols := min 128 (x.n - blk * 128)
  let a := readLocal p (x.aRng.row p c row + k0) n
  let old := readLocal p (x.oRng.row p c row + blk * 512) (4 * cols)
  let vals := (List.range cols).map (fun j =>
    let b := ((nth t.rows j ⟨[], [], []⟩).els.drop k0).take n
    cmpReduce x.op x.signed_ a b (if k0 = 0 then none else some (if x.signed_ ∧ 2 ≤ x.op then signed 32 (leField old (4 * j) 4) else leField old (4 * j) 4)))
  let bad := x.aRng.badIn p c row k0 n || t.bad || (k0 != 0 && x.oRng.badIn p c row (blk * 512) (4 * cols))
  (x.oRng.writeAt p c row (blk * 512) (32 * cols) (vals.flatMap (fun v => leBytes 4 (v % (2 : Int) ^ 32).toNat)) bad, bad)

/-- The 64-byte result of an aligned compare (R118). -/
def cmpAlResult (sg : Bool) (a b : List Byte) : List Byte :=
  let l := (a.zip b).map (fun (x : Byte × Byte) => codeVal sg x.1 - codeVal sg x.2)
  let two (v : Int) : List Byte := leBytes 2 (v % (2 : Int) ^ 16).toNat
  leBytes 8 (l.filter (· == 0)).length ++ leBytes 8 (l.foldl (fun s d => s + d.natAbs) 0)
    ++ leBytes 8 (match l.findIdx? (· != 0) with | some k => k | none => 2 ^ 64 - 1)
    ++ two (l.foldl min (l.headD 0)) ++ two (l.foldl max (l.headD 0)) ++ List.replicate 36 0

/-! ## Jobs -/

/-- The format checks that end an engine instruction at issue (R123), but for those of a collective suffix. -/
def Job.ok : Job → Bool
  | .mm x => x.ok
  | .ew x => x.ok
  | .cmp x => x.ok
  | .cmpAl _ a b out _ => a.plain && b.plain && out.plain

/-- Input planes (R123). -/
def Job.ins : Job → List Rng
  | .mm x => x.aPlanes ++ x.bPlanes
  | .ew x => x.a.vectorPlanes x.fa x.len ++ x.b.vectorPlanes x.fb x.len
  | .cmp x => [x.aRng, x.bRng]
  | .cmpAl _ a b _ n => [a.flat n, b.flat n]

/-- Output planes. -/
def Job.outs : Job → List Rng
  | .mm x => x.oPlanes
  | .ew x => x.out.vectorPlanes x.fo x.len
  | .cmp x => [x.oRng]
  | .cmpAl _ _ _ out _ => [out.flat 64]

/-- The accumulator range, which ew only reads. -/
def Job.accs : Job → List Rng
  | .mm x => match x.acc with | some h => [accRng h x.m] | none => []
  | .ew x => if x.op = 3 then [x.c.flat (4 * x.len)] else []
  | _ => []

/-- Rows of a pass. -/
def Job.rows : Job → Nat
  | .mm x => x.m
  | .ew x => (x.len + 127) / 128
  | .cmp x => x.m
  | .cmpAl _ _ _ _ n => (n + 127) / 128

/-- Passes. -/
def Job.passes : Job → Nat
  | .mm x => x.passes
  | .cmp x => ((x.n + 127) / 128) * x.spans
  | _ => 1

/-- Issue cycles of a row (R111, R116). -/
def Job.cyc : Job → Nat
  | .mm x => if x.fa = .bf16 then 4 else 1
  | .ew x => if x.fa = .bf16 ∨ x.fb = .bf16 then 4 else 1
  | _ => 1

/-- Array cycles of a pass (R111). -/
def Job.passCycles (j : Job) : Nat :=
  match j with
  | .mm _ => max (j.cyc * j.rows) 128
  | _ => j.cyc * j.rows

/-- Whether the residue chains watch the form (R127). -/
def Job.watched : Job → Bool
  | .ew _ => false
  | _ => true

/-- One drained row of a pass over its held tile, and whether it met poison. -/
def Job.drain (j : Job) (p : Pkg) (c : CtxId) (t : HeldTile) (row : Nat) : Pkg × Bool :=
  match j with
  | .mm x => x.drain p c t row
  | .ew x => x.drain p c row
  | .cmp x => x.drain p c t row
  | .cmpAl sg a b out n =>
    if row + 1 = j.rows then
      let bad := (a.flat n).bad p c 0 || (b.flat n).bad p c 0
      (writeLocal p ((out.flat 64).at_ p c) (cmpAlResult sg ((a.flat n).read p c 0) ((b.flat n).read p c 0)) (fun _ => bad), bad)
    else (p, false)

/-- The held tile of a pass as it loads (R80, R98, R105); the forms that hold none have an empty one. -/
def Job.tile (j : Job) (p : Pkg) (i : Inst) (pass : Nat) : HeldTile :=
  match j with
  | .mm x => ⟨i.id, pass, x.tileRows p i.ctx pass, x.tileMetaOk p i.ctx pass, x.tileBad p i.ctx pass⟩
  | .cmp x => ⟨i.id, pass, x.tileRows p i.ctx pass, true, x.tileBad p i.ctx pass⟩
  | _ => ⟨i.id, pass, [], true, false⟩

/-- Whether a form runs in the multiply mode (R112, R119, R130). -/
def Job.multiplies : Job → Bool
  | .mm _ => true
  | _ => false

/-- The status of the range checks of R123: outputs and accumulator against the inputs, and the accumulator against the outputs
unless its extent is an output's, line by line. -/
def engineCheck (p : Pkg) (c : CtxId) (ins outs accs : List Rng) : Status :=
  let all := ins ++ accs ++ outs
  let lastLine (r : Rng) : Nat := (r.at_ p c + r.len - 1) / 64
  let same (a b : Rng) : Bool := a.store c == b.store c && a.at_ p c / 64 == b.at_ p c / 64 && lastLine a == lastLine b
  if !all.all (Rng.inBound p c) then Status.refusedBound
  else if !all.all (Rng.inStore p c) then Status.refusedUnmapped
  else if !all.all (Rng.online p c) then Status.refusedOffline
  else if (outs ++ accs).any (fun o => ins.any (fun i => o.meets p c i)) || accs.any (fun a => outs.any (fun o => a.meets p c o && !same a o)) then
    Status.refusedOverlap
  else if all.any (Rng.asleep p c) then Status.refusedAsleep
  else Status.done

end Sys2Proof.Machine
end

