-- ==== Sys2Proof/Machine/Engine.lean ====
section
/-! DEFINITION. The matrix engine as a unit (R119–R130): issue, start, rows, pass boundaries, throttle pauses, clock gating and the
self-test. The retirement, which the collective forms share, is with the collectives. -/
namespace Sys2Proof.Machine
open Sys2Proof

/-! ## Issue (R123, R182) -/

/-- Whether the collective fields of an instruction without a suffix are as R182 asks. -/
def plainSuffix (w : BitVec 128) : Bool := !(opOf w == 0x20 || opOf w == 0x21) || (bits w 66 64 == 0 && !bit w 67 && !bit w 68)

/-- An engine instruction without a suffix issues: a failed check ends it at once with no work done; otherwise it waits in the
engine's queue (R123, R125). -/
def runEngine (q : Pkg) (i : Inst) : Pkg :=
  match jobOf i with
  | none => retire q i Status.failedFormat
  | some j =>
    if !plainSuffix i.word || !j.ok then retire q i Status.failedFormat
    else
      let st := engineCheck q i.ctx j.ins j.outs j.accs
      if st ≠ Status.done then retire (countRange q i.ctx st) i st else admitRanges q i.ctx (j.ins ++ j.outs ++ j.accs)

/-- The rows of mma and mma.sp take the words without a suffix, and those whose suffix is reserved. -/
def mmaRow (op : Nat) (w : BitVec 128) : Bool := opOf w == op && (bits w 66 64 == 0 || decide (6 ≤ bits w 66 64))

def execMma (c : CtxId) (s : State) : Host.Outcome State Fault Refusal := act s (fun p => runRow (mmaRow 0x20) runEngine p c)
def execMmaSp (c : CtxId) (s : State) : Host.Outcome State Fault Refusal := act s (fun p => runRow (mmaRow 0x21) runEngine p c)
def execConv (c : CtxId) (s : State) : Host.Outcome State Fault Refusal := act s (fun p => runRow (opRow 0x30) runEngine p c)
def execEw (c : CtxId) (s : State) : Host.Outcome State Fault Refusal := act s (fun p => runRow (opRow 0x40) runEngine p c)
def execCmp (c : CtxId) (s : State) : Host.Outcome State Fault Refusal := act s (fun p => runRow (opRow 0x50) runEngine p c)
def execCmpAl (c : CtxId) (s : State) : Host.Outcome State Fault Refusal := act s (fun p => runRow (opRow 0x51) runEngine p c)

/-! ## Running (R107, R110, R119–R122) -/

/-- The contributor record of an instruction on its die (R340). -/
def contribOf (p : Pkg) (i : Inst) : Option Contrib :=
  (wellOf p i.ctx.core.die).insts.findSome? (fun n => n.contribs.find? (fun k => k.inst == i.id))

/-- Whether an instruction may start: one with a suffix waits until its instance is open (R340). -/
def engineReady (p : Pkg) (i : Inst) : Bool := collOf i.word == 0 || (contribOf p i).isSome

/-- The oldest engine instruction of a context that has not started. -/
def engineHead (p : Pkg) (c : CtxId) : Option Inst := p.insts.find? (fun i => i.ctx == c && i.unit == .engine && !i.started && i.ended.isNone)

/-- The next ready instruction: contexts in rotation from the one after the context last served (R119). -/
def engineNext (p : Pkg) (core : CoreId) : Option Inst :=
  (List.range 4).findSome? (fun k =>
    let c : CtxId := ⟨core, ⟨((engineOf p core).lastCtx + 1 + k) % 4, Nat.mod_lt _ (by omega)⟩⟩
    match engineHead p c with
    | some i => if engineReady p i then some i else none
    | none => none)

/-- The instruction that an engine runs. -/
def runInst (p : Pkg) (r : EngineRun) : Option Inst := p.insts.find? (fun i => i.id == r.inst)

/-- The run with a status taken. -/
def EngineRun.take (r : EngineRun) (st : Status) : EngineRun := { r with status := Status.worst r.status st }

/-- Whether no row or pass of a run is left. -/
def EngineRun.finished (r : EngineRun) (j : Job) : Bool := r.broken || decide (j.passes ≤ r.pass) || j.rows == 0

/-- A held tile of a pass swaps in, the loaded one where it is that pass's (R105, R112): invalid metadata starts no further pass and fails
the instruction (R80), before its poison is looked at (log entry 38). -/
def loadTile (p : Pkg) (i : Inst) (j : Job) (shadow : Option HeldTile) (r : EngineRun) : EngineRun :=
  if r.finished j then r
  else
    let t := match shadow with
      | some t => if t.inst = i.id ∧ t.pass = r.pass then t else j.tile p i r.pass
      | none => j.tile p i r.pass
    if t.valid then { r with held := t } else ({ r with held := t, broken := true }).take Status.failedFormat

/-- The next held tile, which loads while a pass streams its rows: the next pass's, or in the last pass the first one of the next
multiply instruction (R105, R112). -/
def nextTile (p : Pkg) (core : CoreId) (i : Inst) (j : Job) (r : EngineRun) : Option HeldTile :=
  if r.pass + 1 < j.passes then some (j.tile p i (r.pass + 1))
  else if !j.multiplies then none
  else
    match engineNext p core with
    | some n => (jobOf n).bind (fun k => if k.multiplies then some (k.tile p n 0) else none)
    | none => none

/-- The compute part of a run is over: a contributor's record takes its status, and the forms that then move results hold the engine
(R120, R347). -/
def computeOver (p : Pkg) (i : Inst) (r : EngineRun) : Pkg × EngineRun :=
  if collOf i.word = 0 then (p, r)
  else
    let d := i.ctx.core.die
    let w := wellOf p d
    let mark (n : Instance_) : Instance_ :=
      { n with contribs := n.contribs.map (fun (k : Contrib) => if k.inst = i.id then { k with computed := some r.status } else k) }
    (setWell p d { w with insts := w.insts.map mark }, { r with coll := some p.count })

/-- The engine keeps its run, and the compute part ends when no pass is left. -/
def keepRun (p : Pkg) (core : CoreId) (i : Inst) (j : Job) (r : EngineRun) : Pkg :=
  let x := if r.finished j then computeOver p i r else (p, r)
  setEngine x.1 core { engineOf x.1 core with run := some x.2 }

/-- ENGINE_INSTR_START (R119, R122): an engine that runs nothing and is not in a pause starts the next ready instruction. A form that
gathers first holds the engine until its rows are there (R182). -/
def engineStart (p : Pkg) (core : CoreId) : Pkg :=
  let e := engineOf p core
  if e.run.isSome ∨ e.pause.isSome then p
  else
    match engineNext p core with
    | none => p
    | some i =>
      match jobOf i with
      | none => p
      | some j =>
        let q := updInst p i.id (fun (n : Inst) => { n with started := true })
        let gathers := collOf i.word = 3 ∨ collOf i.word = 4
        let q := setEngine q core { e with gated := false, lastCtx := i.ctx.ctx.val, shadow := if gathers then e.shadow else none }
        let r : EngineRun := ⟨i.id, 0, 0, Status.done, if gathers then some q.count else none, ⟨i.id, 0, [], true, false⟩, false⟩
        if gathers then setEngine q core { engineOf q core with run := some r } else keepRun q core i j (loadTile q i j e.shadow r)

def execEngineInstrStart (core : CoreId) (s : State) : Host.Outcome State Fault Refusal := act s (fun p => engineStart p core)

/-- A gathered form's compute part begins: the collective part no longer holds the engine (R120). -/
def beginCompute (p : Pkg) (core : CoreId) : Pkg :=
  match (engineOf p core).run with
  | some r =>
    match runInst p r, r.coll with
    | some i, some t =>
      match jobOf i with
      | some j =>
        let e := engineOf p core
        let q := setEngine (bump p (.core core) 0x440 ((p.count - t) * 6 / 5)) core { e with shadow := none }
        keepRun q core i j (loadTile p i j e.shadow { r with coll := none })
      | none => p
    | _, _ => p
  | none => p

/-- The residue chains disagree on a row (R127): no further row or pass starts; eng_residue, ENG_RESCNT and ENG_RESIDUE. -/
def residueFound (p : Pkg) (core : CoreId) (r : EngineRun) (col : Fin 128) (sum : Fin 16) : Pkg :=
  let g := Page.core core
  let q := setReg p g 0x418 (BitVec.ofNat 32 (2 ^ 31 + col.val * 65536 + sum.val * 4096 + r.pass % 4096))
  record (raise (bump q g 0x448 1) g 16) (some g) 16 Status.failedEngine 2 false [col.val, sum.val, r.pass]

/-- ENGINE_ROW_DRAIN (R110, R112, R127): the next row of the running pass is written, and with the first one the next held tile loads; the
operand is the place at which the two chains disagree, if they do. -/
def engineRow (p : Pkg) (core : CoreId) (res : Option (Fin 128 × Fin 16)) : Pkg :=
  let e := engineOf p core
  match e.run with
  | none => p
  | some r =>
    match runInst p r with
    | none => p
    | some i =>
      match jobOf i with
      | none => p
      | some j =>
        if e.pause.isSome ∨ r.coll.isSome ∨ r.finished j ∨ j.rows ≤ r.row then p
        else
          let x := j.drain p i.ctx r.held r.row
          let q := bump x.1 (.core core) 0x428 j.cyc
          let r2 := if x.2 then r.take Status.failedPoison else r
          match (if j.watched then res else none) with
          | some v => keepRun (residueFound q core r v.1 v.2) core i j ({ r2 with broken := true }.take Status.failedEngine)
          | none => setEngine q core { e with
              run := some { r2 with row := r.row + 1 }, shadow := if r.row = 0 then nextTile p core i j r else e.shadow }

def execEngineRowDrain (core : CoreId) (residue : Option (Fin 128 × Fin 16)) (s : State) : Host.Outcome State Fault Refusal :=
  act s (fun p => engineRow p core residue)

/-- The pause after a pass of c cycles at a duty (R426). -/
def pauseCycles (c d : Nat) : Nat := if d = 0 ∨ 16 ≤ d then 0 else (c * (16 - d) + d - 1) / d

/-- ENGINE_PASS_BOUNDARY (R121, R426): all rows of the pass are written; the next held tile swaps in, after the pause of the duty in
force. -/
def passBoundary (p : Pkg) (core : CoreId) : Pkg :=
  let e := engineOf p core
  match e.run with
  | none => p
  | some r =>
    match runInst p r with
    | none => p
    | some i =>
      match jobOf i with
      | none => p
      | some j =>
        if e.pause.isSome ∨ r.coll.isSome ∨ r.finished j ∨ r.row < j.rows then p
        else
          let n := pauseCycles j.passCycles (dutyOf p core.die)
          let q := bump p (.core core) 0x438 n
          let last : Bool := decide (j.passes ≤ r.pass + 1)
          let q := setEngine q core { e with pause := if n = 0 then none else some (p.count, n), shadow := if last then e.shadow else none }
          keepRun q core i j (loadTile q i j e.shadow { r with pass := r.pass + 1, row := 0 })

def execEnginePassBoundary (core : CoreId) (s : State) : Host.Outcome State Fault Refusal := act s (fun p => passBoundary p core)

/-- THROTTLE_PAUSE_END (R121, R426): a pause ends when its cycles are over. -/
def pauseEnd (p : Pkg) (core : CoreId) : Pkg :=
  let e := engineOf p core
  match e.pause with
  | some x => if cyclesPast p x.1 x.2 then setEngine p core { e with pause := none } else p
  | none => p

def execThrottlePauseEnd (core : CoreId) (s : State) : Host.Outcome State Fault Refusal := act s (fun p => pauseEnd p core)

/-- ENGINE_CLOCK_GATE (R122): an engine idle for gate_delay × 16 cycles gates itself; a delay of 0 disables gating. -/
def engineGate (p : Pkg) (core : CoreId) : Pkg :=
  let e := engineOf p core
  let n := bits (getReg p (.core core) 0x408) 11 8
  usePairs p (.core core) [0x408] (fun p =>
    if e.run.isNone ∧ n ≠ 0 ∧ cyclesPast p e.idleAt (16 * n) then setEngine p core { e with gated := true } else p)

def execEngineClockGate (core : CoreId) (s : State) : Host.Outcome State Fault Refusal := act s (fun p => engineGate p core)

/-! ## The self-test (R128) -/

/-- The cycles of the self-test: bist_level 0b00 full, 0b01 quick. -/
def bistCycles (p : Pkg) (core : CoreId) : Nat := if bits (getReg p (.core core) 0x408) 1 0 = 1 then 16384 else 65536

/-- ENGINE_BIST_END (R128): the self-test of an ENABLING core ends after its full time. What it found is the operand in the layout of
ENG_BIST_RESULT: phase, row, column and failing signatures. A failing signature sets eng_bist_fail and sends the core to FAULT; with
none the core's self-check has passed. -/
def bistEnd (p : Pkg) (core : CoreId) (result : Word) : Pkg :=
  let g := Page.core core
  if stateOf p g = .enabling ∧ !pairOk p g 0x408 then cmpFail p g
  else if stateOf p g = .enabling ∧ cyclesPast p (block p g).since (bistCycles p core) then
    let fails := bits result 7 0
    let ok := decide (fails = 0)
    let v := if ok then 0xC0FFFF00 else 0x80000000 + bits result 29 28 * 2 ^ 28 + bits result 23 8 * 256 + fails
    let q := setReg p g 0x410 (BitVec.ofNat 32 v)
    let q := if ok then q else record (raise q g 17) (some g) 17 Status.failedEngine 2 true [fails]
    selfCheckDone q g ok
  else p

def execEngineBistEnd (core : CoreId) (result : Word) (s : State) : Host.Outcome State Fault Refusal :=
  act s (fun p => bistEnd p core result)

end Sys2Proof.Machine
end

