-- ==== Sys2Proof/Machine/Wells.lean ====
section
/-! DEFINITION. Collective groups, ranks and chunks (R336–R348): the tables, who owns what, the data of a chunk, and the transfers of an
instance. -/
namespace Sys2Proof.Machine
open Sys2Proof

/-! ## Tables (R336, R355) -/

/-- A stage entry. -/
structure Stg where
  n : Nat
  rank : Nat
  flow : Nat
  first : Nat
  swapOnFail : Bool
  up : Nat
  down : Nat
  deriving DecidableEq, Repr

/-- A group entry with its stages. -/
structure Grp where
  chunkLog : Nat
  tally : Nat
  stages : List Stg
  deriving DecidableEq, Repr

/-- A stage entry's four words. -/
def stgOf (p : Pkg) (d : Fin 4) (i : Nat) : Stg :=
  let w (k : Nat) : Word := entryVal p (.well d) 1 ((4 * i + k) % 4096)
  { n := bits (w 0) 29 20 + 1, rank := bits (w 0) 19 10, flow := bits (w 1) 23 12, first := bits (w 1) 11 0
    swapOnFail := bit (w 2) 24, up := 8 * bits (w 2) 23 0, down := 8 * bits (w 3) 23 0 }

/-- A valid group entry. -/
def grpOf (p : Pkg) (d : Fin 4) (g : Nat) : Option Grp :=
  let a := entryVal p (.well d) 0 (2 * g)
  if bit a 31 then
    some { chunkLog := bits a 25 23, tally := 8 * bits (entryVal p (.well d) 0 (2 * g + 1)) 23 0
           stages := (List.range (bits a 27 26 + 1)).map (fun i => stgOf p d (bits a 9 0 + i)) }
  else none

/-- Whether the entries that a group uses pass their complement checks (R42). -/
def grpSound (p : Pkg) (d : Fin 4) (g : Nat) : Bool :=
  let a := entryVal p (.well d) 0 (2 * g)
  entryOk p (.well d) 0 (2 * g) && entryOk p (.well d) 0 (2 * g + 1)
    && (List.range (bits a 27 26 + 1)).all (fun i =>
      (List.range 4).all (fun k => entryOk p (.well d) 1 ((4 * (bits a 9 0 + i) + k) % 4096))
        && (List.range (stgOf p d (bits a 9 0 + i)).n).all (fun m => entryOk p (.well d) 2 (((stgOf p d (bits a 9 0 + i)).first + m) % 4096)))

/-- Stage s of a group. -/
def Grp.stg (g : Grp) (s : Nat) : Stg := nth g.stages s ⟨1, 0, 0, 0, false, 0, 0⟩
/-- Members of stage s, 1 when it is absent (R337). -/
def Grp.n (g : Grp) (s : Nat) : Nat := if s < g.stages.length then (g.stg s).n else 1
/-- This package's rank at stage s ≥ 1. -/
def Grp.r (g : Grp) (s : Nat) : Nat := if 1 ≤ s ∧ s < g.stages.length then (g.stg s).rank else 0
/-- P of R337: the product of the members of the stages below. -/
def Grp.P (g : Grp) (s : Nat) : Nat := (List.range s).foldl (fun a k => a * g.n k) 1
/-- N of R337. -/
def Grp.total (g : Grp) : Nat := g.P 4
/-- The last stage. -/
def Grp.last (g : Grp) : Nat := g.stages.length - 1
/-- A contributor's global rank (R337). -/
def Grp.global (g : Grp) (r0 : Nat) : Nat := r0 + g.n 0 * (g.r 1 + g.n 1 * (g.r 2 + g.n 2 * g.r 3))
/-- Elements of a chunk (R337). -/
def Grp.e (g : Grp) : Nat := 2 ^ (10 + g.chunkLog)
/-- Chunks of n elements. -/
def Grp.chunks (g : Grp) (n : Nat) : Nat := (n + g.e - 1) / g.e
/-- The owner's rank of a chunk at a stage (R337). -/
def Grp.owner (g : Grp) (s c : Nat) : Nat := c / g.P s % g.n s
/-- Whether this package owns a chunk at every stage from 1 to s. -/
def Grp.ownsTo (g : Grp) (s c : Nat) : Bool := (List.range s).all (fun k => g.owner (k + 1) c == g.r (k + 1))

/-- The member word of rank r at a stage. -/
def memberWord (p : Pkg) (d : Fin 4) (t : Stg) (r : Nat) : Word := entryVal p (.well d) 2 ((t.first + r) % 4096)
def memberChip (p : Pkg) (d : Fin 4) (t : Stg) (r : Nat) : Chip := BitVec.ofNat 16 (bits (memberWord p d t r) 31 16)
/-- The die of the contributor of rank r₀. -/
def rankDie (p : Pkg) (d : Fin 4) (g : Grp) (r : Nat) : Fin 4 := ⟨bits (memberWord p d (g.stg 0) r) 9 8 % 4, Nat.mod_lt _ (by omega)⟩
/-- The rank of a core in a group's stage-0 list. -/
def rankOf (p : Pkg) (d : Fin 4) (g : Grp) (c : CoreId) : Option Nat :=
  (List.range (g.n 0)).find? (fun r =>
    bits (memberWord p d (g.stg 0) r) 9 8 == c.die.val && bits (memberWord p d (g.stg 0) r) 7 0 == c.slot)
/-- The home die of a chunk (R337). -/
def homeDie (p : Pkg) (d : Fin 4) (g : Grp) (c : Nat) : Fin 4 := rankDie p d g (c % g.n 0)

/-! ## The instruction behind an instance -/

def Instance_.coll (x : Instance_) : Nat := collOf x.word
def Instance_.cfmt (x : Instance_) : Bool := bit x.word 67
def Instance_.anchor (x : Instance_) : Int := signed 8 (bits x.word 77 70)
def Instance_.fa (x : Instance_) : OpFmt := (opFmt (bits x.word 27 24)).getD .fp32
def Instance_.fo (x : Instance_) : OpFmt := (opFmt (bits x.word 35 32)).getD .fp32
/-- Elements of the output (R337). -/
def Instance_.elems (x : Instance_) : Nat := dimM x.dims * dimN x.dims
/-- Rows and elements of one shard of an all-gather: M of the instruction is the gathered total (log entry 19). -/
def Instance_.shard (x : Instance_) (g : Grp) : Nat := dimM x.dims / g.total * dimK x.dims
/-- Chunks that a sender of stage s holds in an all-gather. -/
def Instance_.agChunks (x : Instance_) (g : Grp) (s : Nat) : Nat := g.chunks (g.P s * x.shard g)
/-- Chunks of a reduce form. -/
def Instance_.chunks (x : Instance_) (g : Grp) : Nat := g.chunks x.elems
/-- Elements of chunk c out of n. -/
def chunkLen (g : Grp) (n c : Nat) : Nat := min g.e (n - c * g.e)
/-- Granules of one chunk slot (R344). -/
def Instance_.granules (x : Instance_) (g : Grp) : Nat :=
  let b := if x.cfmt then g.e * 16 + (g.e / 4 + 63) / 64 * 64 else g.e * 4
  (b + 4095) / 4096

/-- The contributor's instruction. -/
def Contrib.instr (p : Pkg) (k : Contrib) : Option Inst := p.insts.find? (fun i => i.id == k.inst)
/-- The contributor of a rank on a die's instance. -/
def Instance_.byRank (x : Instance_) (r : Nat) : Option Contrib := x.contribs.find? (fun k => k.rank == r && !k.gone)

/-! ## Element streams in memory -/

/-- A code of w bits at bit position b of a number replaced. -/
def putCode (w v b c : Nat) : Nat := v - v / 2 ^ b % 2 ^ w * 2 ^ b + c % 2 ^ w * 2 ^ b

/-- Codes of elements e₀ to e₀ + n − 1 of rows of len elements, counted row by row (R337). -/
def readCodes (p : Pkg) (c : CtxId) (h : Handle) (f : OpFmt) (rows len e0 n : Nat) : List Nat :=
  (List.range n).map (fun i =>
    let e := (e0 + i) % len
    let r := (h.elems f rows len).row p c ((e0 + i) / len)
    let b := e * f.bitsOf
    leNat (readLocal p (r + b / 8) ((b % 8 + f.bitsOf + 7) / 8)) / 2 ^ (b % 8) % 2 ^ f.bitsOf)

/-- The elements at which an MX block begins, among e₀ to e₀ + n − 1; with force the first one always counts. -/
def blockStarts (len e0 n : Nat) (force : Bool) : List Nat :=
  (List.range n).filterMap (fun i => if (e0 + i) % len % 32 = 0 ∨ (force ∧ i = 0) then some (e0 + i) else none)

/-- The scale codes at those elements. -/
def readScales (p : Pkg) (c : CtxId) (h : Handle) (rows len : Nat) (at_ : List Nat) : List Nat :=
  at_.map (fun e => (nth (readLocal p ((h.scales rows len).row p c (e / len) + e % len / 32) 1) 0 0).toNat)

/-- Codes written to elements e₀ on of rows of len elements, without a tag. -/
def writeCodes (p : Pkg) (c : CtxId) (h : Handle) (f : OpFmt) (rows len : Nat) : Nat → List Nat → Pkg
  | _, [] => p
  | e0, l@(_ :: _) =>
    (List.range l.length).foldl (fun q i =>
      let b := (e0 + i) % len * f.bitsOf
      let a := (h.elems f rows len).row q c ((e0 + i) / len) + b / 8
      let n := (b % 8 + f.bitsOf + 7) / 8
      writeLocal q a (leBytes n (putCode f.bitsOf (leNat (readLocal q a n)) (b % 8) (nth l i 0))) noTag) p

/-- Scale codes written. -/
def writeScales (p : Pkg) (c : CtxId) (h : Handle) (rows len : Nat) (at_ sc : List Nat) : Pkg :=
  (at_.zip sc).foldl (fun q (x : Nat × Nat) =>
    writeLocal q ((h.scales rows len).row q c (x.1 / len) + x.1 % len / 32) (leBytes 1 x.2) noTag) p

/-- The lines of elements e₀ to e₀ + n − 1 written poisoned (R125, R350). -/
def poisonElems (p : Pkg) (c : CtxId) (h : Handle) (f : OpFmt) (rows len e0 n : Nat) : Pkg :=
  (List.range rows).foldl (fun q r =>
    let lo := max e0 (r * len)
    let hi := min (e0 + n) (r * len + len)
    if lo < hi then
      let b := (lo - r * len) * f.bitsOf / 8
      poisonLocal q ((h.elems f rows len).row q c r + b) (((hi - r * len) * f.bitsOf + 7) / 8 - b)
    else q) p

/-- Whether a line of elements e₀ to e₀ + n − 1, or of their scales, is poisoned (R98). -/
def streamBad (p : Pkg) (c : CtxId) (h : Handle) (f : OpFmt) (rows len e0 n : Nat) : Bool :=
  (List.range rows).any (fun r =>
    let lo := max e0 (r * len) - r * len
    let hi := min (e0 + n) (r * len + len) - r * len
    decide (lo < hi)
      && (localPoisoned p ((h.elems f rows len).row p c r + lo * f.bitsOf / 8) ((hi * f.bitsOf + 7) / 8 - lo * f.bitsOf / 8)
        || (f.isMx && localPoisoned p ((h.scales rows len).row p c r + lo / 32) ((hi + 31) / 32 - lo / 32))))

/-- Codes and scale codes as one run of bytes, and back. -/
def packRun (f : OpFmt) (codes scales : List Nat) : List Byte := packCodes f.bitsOf codes ++ scales.map (fun s => BitVec.ofNat 8 s)
def unpackRun (f : OpFmt) (n : Nat) (bs : List Byte) : List Nat × List Nat :=
  let k := (n * f.bitsOf + 7) / 8
  let v := leNat (bs.take k)
  ((List.range n).map (fun i => v / 2 ^ (i * f.bitsOf) % 2 ^ f.bitsOf), (bs.drop k).map BitVec.toNat)

/-! ## Reduction data (R100–R103, R338) -/

/-- WS128 values as a chunk's bytes: the integers, then the class plane padded to 64 bytes (R100). -/
def wsBytes (l : List Ws) : List Byte :=
  l.flatMap (fun x => leBytes 16 x.w)
    ++ leBytes ((l.length + 255) / 256 * 64) ((List.range l.length).foldl (fun a i => a + (nth l i ⟨0, 0⟩).cls * 4 ^ i) 0)

/-- The n WS128 values of a chunk's bytes. -/
def wsValues (n : Nat) (bs : List Byte) : List Ws :=
  let cls := leNat (bs.drop (16 * n))
  (List.range n).map (fun i => ⟨leField bs (16 * i) 16, cls / 4 ^ i % 4⟩)

/-- FP32 values of a chunk's bytes. -/
def f32Values (n : Nat) (bs : List Byte) : List Num := (List.range n).map (fun i => ofF32 (leField bs (4 * i) 4))
def f32Bytes (l : List Num) : List Byte := l.flatMap (fun x => leBytes 4 (toF32 x))

/-- One contribution folded onto the accumulated chunk (R102, R338). -/
def foldBytes (cfmt : Bool) (n : Nat) (acc x : List Byte) : List Byte :=
  if cfmt then wsBytes (((wsValues n acc).zip (wsValues n x)).map (fun y => wsAdd y.1 y.2))
  else f32Bytes (((f32Values n acc).zip (f32Values n x)).map (fun y => add32 y.1 y.2))

/-- Runs of one MX block within a chunk's results: they end at block and row ends (R97), and where the chunk ends (log entry 39). -/
def resultRuns (len : Nat) : Nat → Nat → List Num → List (List Num)
  | 0, _, _ => []
  | _, _, [] => []
  | k + 1, e, xs =>
    let n := min (32 - e % len % 32) (len - e % len)
    xs.take n :: resultRuns len k (e + n) (xs.drop n)

/-- The reduced chunk converted once to ofmt (R103, R338): codes and scale codes, by element e₀ of rows of len elements. -/
def convertChunk (f : OpFmt) (sat : Bool) (len e0 : Nat) (xs : List Num) : List Byte :=
  if f.isMx then
    let bl := (resultRuns len xs.length e0 xs).map (mxBlock f)
    packRun f (bl.flatMap (fun b => b.2)) (bl.map (fun b => b.1))
  else packRun f (xs.map (f.elem.encode sat)) []

/-- The final values of a reduced chunk. -/
def finalValues (x : Instance_) (n : Nat) (bs : List Byte) : List Num :=
  if x.cfmt then (wsValues n bs).map (wsNum x.anchor) else f32Values n bs

/-! ## Transfers (R341, R347, R348) -/

/-- What has closed under a key. -/
def Instance_.inOf (x : Instance_) (k : ChunkKey) : Option ChunkIn := x.ins.find? (fun i => i.key == k)
def Instance_.closedOf (x : Instance_) (k : ChunkKey) : Option Status :=
  match x.inOf k with
  | some i => i.closed
  | none => none

/-- The data of a chunk from its parts, in order of offset. -/
def joinParts (l : List (Nat × List Byte)) : List Byte := (l.mergeSort (fun a b => decide (a.1 ≤ b.1))).flatMap (fun a => a.2)

/-- A reduced chunk of a stage on this die, once every rank has been folded. -/
def Instance_.folded (x : Instance_) (g : Grp) (s c : Nat) : Option Fold :=
  match Map.look x.folds (s, c) with
  | some f => if g.n s ≤ f.next then some f else none
  | none => none

/-- The result of a chunk in ofmt at this die: converted at its final owner, or received on the way down (R338, R347). -/
def Instance_.result (x : Instance_) (g : Grp) (c : Nat) : Option Fold :=
  if g.ownsTo g.last c then
    match x.folded g g.last c with
    | some f =>
      let n := chunkLen g x.elems c
      some { f with acc := if Status.cls f.status = 0 then convertChunk x.fo (bit x.word 37) (dimN x.dims) (c * g.e) (finalValues x n f.acc) else [] }
    | none => none
  else Map.look x.results c

/-- Rows of an exchange from a contributor to a rank: row indices of its source (R348). -/
def dispRows (p : Pkg) (i : Inst) (rank : Nat) : List Nat :=
  let h := blkHandle i 48
  let n := leField i.blk 56 4
  let m := (h.flat (2 * n)).read p i.ctx 0
  (List.range n).filter (fun r => leField m (2 * r) 2 == rank)
/-- Rows of a combine: this contributor's output rows whose origin record names the rank, with the row it names. -/
def combRows (p : Pkg) (i : Inst) (rank : Nat) : List (Nat × Nat) :=
  let h := blkHandle i 48
  let m := (h.flat (4 * dimM i.d)).read p i.ctx 0
  (List.range (dimM i.d)).filterMap (fun r => if leField m (4 * r) 2 = rank then some (r, leField m (4 * r + 2) 2) else none)

/-- A row of an operand as one run of bytes: elements, then scales. -/
def rowRun (p : Pkg) (c : CtxId) (h : Handle) (f : OpFmt) (rows len r : Nat) : List Byte :=
  (h.elems f rows len).read p c r ++ (if f.isMx then (h.scales rows len).read p c r else [])
/-- Bytes of such a run. -/
def runLen (f : OpFmt) (len : Nat) : Nat := rowBytes f len + (if f.isMx then blocksOf len else 0)
/-- A run written to a row. -/
def writeRun (p : Pkg) (c : CtxId) (h : Handle) (f : OpFmt) (rows len r : Nat) (bs : List Byte) : Pkg :=
  let q := (h.elems f rows len).write p c r (bs.take (rowBytes f len)) false
  if f.isMx then (h.scales rows len).write q c r (bs.drop (rowBytes f len)) false else q

/-- What a transfer carries: its data as pieces by offset, its flags, its status. -/
structure Load where
  parts : List (Nat × List Byte)
  range : Bool
  passThru : Bool
  status : Status
  deriving DecidableEq, Repr

/-- Bytes cut in pieces of at most 2,048 (R342). -/
def pieces : Nat → Nat → List Byte → List (Nat × List Byte)
  | 0, _, _ => []
  | k + 1, off, bs => if bs.isEmpty then [] else (off, bs.take 2048) :: pieces k (off + 2048) (bs.drop 2048)
def piecesOf (bs : List Byte) : List (Nat × List Byte) := pieces (bs.length / 2048 + 1) 0 bs

/-- A contributor's own contribution to a chunk (R101, R341). -/
def partialLoad (p : Pkg) (x : Instance_) (g : Grp) (i : Inst) (st : Status) (c : Nat) : Load :=
  if 1 ≤ Status.cls st then ⟨[], false, false, st⟩
  else
    let n := chunkLen g x.elems c
    let xs := (readCodes p i.ctx (blkHandle i 16) .fp32 (dimM x.dims) (dimN x.dims) (c * g.e) n).map ofF32
    let w := xs.map (wsOf x.anchor)
    if x.cfmt then ⟨piecesOf (wsBytes (w.map Prod.fst)), w.any Prod.snd, false, Status.done⟩
    else ⟨piecesOf (f32Bytes xs), false, false, Status.done⟩

/-- The bytes and flags of a folded or converted chunk. -/
def foldLoad (x : Instance_) (f : Fold) : Load := ⟨piecesOf f.acc, f.range, f.passThru || x.passThru, f.status⟩

/-- Chunk c of n elements from element e₀ of a gather range or shard; what depends on a poisoned line carries that failure instead of data
(R98, R350). -/
def gatherLoad (p : Pkg) (x : Instance_) (g : Grp) (i : Inst) (h : Handle) (rows e0 n c : Nat) : Load :=
  let k := chunkLen g n c
  let a := e0 + c * g.e
  let len := dimK x.dims
  if streamBad p i.ctx h x.fa rows len a k then ⟨[], false, false, Status.failedPoison⟩
  else ⟨piecesOf (packRun x.fa (readCodes p i.ctx h x.fa rows len a k)
      (if x.fa.isMx then readScales p i.ctx h rows len (blockStarts len a k false) else [])), false, false, Status.done⟩

/-- The first element, in the gather range, of what a member of rank r at stage s holds. -/
def agBase (x : Instance_) (g : Grp) (s r : Nat) : Nat :=
  let own := if s = 0 then 0 else g.global 0 / g.P (s + 1) * g.P (s + 1)
  ((if s = 0 then g.global 0 else own) + r * g.P s) * x.shard g

/-- The transfers that a die of an instance sends, in the order in which it may send them: keys and destinations. The home die of a
chunk sends for stages 1 and up; a contributor for stage 0. -/
structure Transfer where
  key : ChunkKey
  hub : Bool
  chip : Chip
  die : Fin 4
  from_ : Nat
  deriving DecidableEq, Repr

/-- Transfers of chunk c (in an exchange: toward rank c). -/
def transfersOf (p : Pkg) (d : Fin 4) (x : Instance_) (g : Grp) (c : Nat) : List Transfer :=
  let own := ownChip p
  let ranks := List.range (g.n 0)
  let upper := (List.range g.stages.length).filter (fun s => decide (1 ≤ s))
  let home := homeDie p d g c == d
  let r0 := c % g.n 0
  let chips (s ph : Nat) (only : Option Nat) : List Transfer :=
    (List.range (g.n s)).filterMap (fun r =>
      if r = g.r s ∨ (only.isSome ∧ only ≠ some r) then none
      else some ⟨⟨s, ph, c, g.r s, 0⟩, false, memberChip p d (g.stg s) r, d, r0⟩)
  match x.coll with
  | 1 | 2 =>
    if x.chunks g ≤ c then []
    else
      x.contribs.map (fun k => ⟨⟨0, 0, c, k.rank, 0⟩, true, own, homeDie p d g c, k.rank⟩)
        ++ (if home then
            upper.flatMap (fun s => if g.ownsTo (s - 1) c && g.owner s c != g.r s then chips s 0 (some (g.owner s c)) else [])
              ++ (if x.coll = 1 then
                  upper.reverse.flatMap (fun s => if g.ownsTo s c then chips s 1 none else [])
                    ++ ranks.map (fun r => ⟨⟨0, 1, c, r0, r + 1⟩, true, own, rankDie p d g r, r0⟩)
                else if g.ownsTo g.last c then [⟨⟨0, 1, c, r0, r0 + 1⟩, true, own, d, r0⟩] else [])
          else [])
  | 3 =>
    (if c < x.agChunks g 0 then
        x.contribs.flatMap (fun k => ranks.map (fun r => ⟨⟨0, 2, c, k.rank, r + 1⟩, true, own, rankDie p d g r, k.rank⟩))
      else [])
      ++ (if home then
          upper.flatMap (fun s => if c < x.agChunks g s then
              chips s 2 none ++ (List.range (g.n s)).flatMap (fun r => if r = g.r s then [] else
                ranks.map (fun t => ⟨⟨s, 2, c, r, t + 1⟩, true, own, rankDie p d g t, r0⟩))
            else [])
        else [])
  | _ =>
    if c < g.n 0 then x.contribs.map (fun k => ⟨⟨0, 3, c, k.rank, c + 1⟩, true, own, rankDie p d g c, k.rank⟩) else []

/-- The transfers that a contributor of a rank expects (R347, R348). -/
def expects (x : Instance_) (g : Grp) (r : Nat) : List ChunkKey :=
  match x.coll with
  | 1 => (List.range (x.chunks g)).map (fun c => ⟨0, 1, c, c % g.n 0, r + 1⟩)
  | 2 =>
    (List.range (x.chunks g)).filterMap (fun c => if c % g.total = g.global r then some ⟨0, 1, c, r, r + 1⟩ else none)
  | 3 =>
    (List.range g.stages.length).flatMap (fun s => (List.range (g.n s)).flatMap (fun t =>
      if 1 ≤ s ∧ t = g.r s then [] else (List.range (x.agChunks g s)).map (fun c => ⟨s, 2, c, t, r + 1⟩)))
  | _ => (List.range (g.n 0)).map (fun t => ⟨0, 3, r, t, r + 1⟩)

/-- The transfers that a die's unit expects for a chunk at its stages: contributions to fold and results on the way down or through. -/
def unitExpects (p : Pkg) (d : Fin 4) (x : Instance_) (g : Grp) (c : Nat) : List ChunkKey :=
  if homeDie p d g c ≠ d then []
  else
    (List.range g.stages.length).flatMap (fun s =>
      (List.range (g.n s)).flatMap (fun r =>
        if x.coll = 1 ∨ x.coll = 2 then
          (if c < x.chunks g && g.ownsTo s c && (s == 0 || r != g.r s) then [⟨s, 0, c, r, 0⟩] else [])
            ++ (if c < x.chunks g && x.coll == 1 && decide (1 ≤ s) && g.ownsTo (s - 1) c && r == g.owner s c && r != g.r s then [⟨s, 1, c, r, 0⟩] else [])
        else if x.coll = 3 ∧ 1 ≤ s ∧ r ≠ g.r s ∧ c < x.agChunks g s then [⟨s, 2, c, r, 0⟩]
        else []))

/-- Whether every transfer that a contributor expects has closed. -/
def Instance_.complete (x : Instance_) (g : Grp) (r : Nat) : Bool := (expects x g r).all (fun k => (x.closedOf k).isSome)

/-- Whether a contributor has all that a stage's sending needs of an all-gather: every lower stage gathered. -/
def gatheredTo (x : Instance_) (g : Grp) (r s : Nat) : Bool :=
  (expects x g r).all (fun k => decide (s ≤ k.stage) || (x.closedOf k).isSome)

/-- Whether a grant that a sender holds covers a transfer up to an owner (R346). -/
def granted (p : Pkg) (d : Fin 4) (x : Instance_) (t : Transfer) : Bool :=
  (wellOf p d).grants.any (fun n =>
    n.group == x.group && n.epoch == x.epoch && n.stage == t.key.stage && n.chip == t.chip && n.die == t.die
      && (n.rank == 0x3FF || n.rank == t.key.rank) && (!n.passThru || n.first == t.key.chunk))

/-- The load of a transfer once its input exists (R341). -/
def loadOf (p : Pkg) (d : Fin 4) (x : Instance_) (g : Grp) (t : Transfer) : Option Load :=
  let k := t.key
  match x.coll, k.phase with
  | 1, 0 | 2, 0 =>
    if !granted p d x t then none
    else if k.stage = 0 then
      match x.byRank k.rank with
      | some e =>
        match e.instr p, e.computed with
        | some i, some st => some (partialLoad p x g i st k.chunk)
        | _, _ => none
      | none => none
    else (x.folded g (k.stage - 1) k.chunk).map (foldLoad x)
  | 1, _ | 2, _ => (x.result g k.chunk).map (foldLoad x)
  | 3, _ =>
    if k.dst ≠ 0 ∧ 1 ≤ k.stage then
      match x.inOf { k with dst := 0 } with
      | some n => match n.closed with
        | some st => some ⟨n.parts, n.range, n.passThru, st⟩
        | none => none
      | none => none
    else
      match x.byRank (if k.stage = 0 then k.rank else t.from_) with
      | some e =>
        match e.instr p with
        | some i =>
          if !i.started then none
          else if k.stage = 0 then
            some (gatherLoad p x g i (blkHandle i 16) (dimM x.dims / g.total) 0 (x.shard g) k.chunk)
          else if gatheredTo x g e.rank k.stage then
            some (gatherLoad p x g i (blkHandle i 40) (dimM x.dims) (agBase x g k.stage k.rank) (g.P k.stage * x.shard g) k.chunk)
          else none
        | none => none
      | none => none
  | 4, _ =>
    match x.byRank k.rank with
    | some e =>
      match e.instr p with
      | some i =>
        if i.started then
          let n := runLen x.fa (dimK i.d)
          let rows := leField i.blk 56 4
          if ((blkHandle i 48).flat (2 * rows)).anyBad p i.ctx || (dispRows p i k.chunk).any (fun r =>
              streamBad p i.ctx (handleOf i.a) x.fa rows (dimK i.d) (r * dimK i.d) (dimK i.d)) then some ⟨[], false, false, Status.failedPoison⟩
          else some ⟨(dispRows p i k.chunk).flatMap (fun r =>
            (piecesOf (rowRun p i.ctx (handleOf i.a) x.fa (leField i.blk 56 4) (dimK i.d) r)).map (fun y => (r * n + y.1, y.2))),
            false, false, Status.done⟩
        else none
      | none => none
    | none => none
  | _, _ =>
    match x.byRank k.rank with
    | some e =>
      match e.instr p, e.computed with
      | some i, some st =>
        if 1 ≤ Status.cls st then some ⟨[], false, false, st⟩
        else if ((blkHandle i 48).flat (4 * dimM i.d)).anyBad p i.ctx then some ⟨[], false, false, Status.failedPoison⟩
        else
          let n := runLen x.fo (dimN i.d)
          some ⟨(combRows p i k.chunk).flatMap (fun r =>
            (piecesOf (rowRun p i.ctx (blkHandle i 16) x.fo (dimM i.d) (dimN i.d) r.1)).map (fun y => (r.2 * n + y.1, y.2))),
            false, false, Status.done⟩
      | _, _ => none
    | none => none

end Sys2Proof.Machine
end

