-- ==== Sys2Proof/Machine/Collectives.lean ====
section
/-! DEFINITION. Collectives (R336–R355): issue of the fused forms, grants, chunks, folds, exchanges, the closing tally, and the retirement of
engine instructions. -/
namespace Sys2Proof.Machine
open Sys2Proof

/-! ## Instances -/

/-- The instance of a group and epoch on a die. -/
def instAt (p : Pkg) (d : Fin 4) (g : Nat) (e : Word) : Option Instance_ := (wellOf p d).insts.find? (fun x => x.group == g && x.epoch == e)
/-- The instance with its new value. -/
def setInst (p : Pkg) (d : Fin 4) (x : Instance_) : Pkg :=
  let w := wellOf p d
  setWell p d { w with insts := w.insts.map (fun y => if y.group = x.group ∧ y.epoch = x.epoch then x else y) }
/-- A contributor of an instance replaced. -/
def Instance_.upd (x : Instance_) (k : Contrib) : Instance_ := { x with contribs := x.contribs.map (fun y => if y.inst = k.inst then k else y) }
/-- Free granules of a die's well (R344). -/
def freeGranules (p : Pkg) (d : Fin 4) : Nat := 4096 - (wellOf p d).insts.foldl (fun a x => a + x.claim) 0
/-- Claims of an instance's chunks on a die (R344): reduce forms alone fold in slots. -/
def claimOf (p : Pkg) (d : Fin 4) (x : Instance_) (g : Grp) : Nat :=
  if x.coll = 1 ∨ x.coll = 2 then
    let home := (List.range (x.chunks g)).filter (fun c => homeDie p d g c == d)
    (List.range g.stages.length).foldl (fun a s => max a ((home.filter (g.ownsTo s)).length * g.n s)) 0 * x.granules g
  else 0

/-- A control frame across the hub to a die's unit or to a contributor there (R346). -/
def hubControl (p : Pkg) (d : Fin 4) (x : Instance_) (from_ : Fin 4) (dst : Nat) (payload : List Byte) : Pkg :=
  let f := { controlFrame p 5 (ownChip p) (injField false from_.val 0) payload with due := BitVec.ofNat 64 (x.group + 256 * x.epoch.toNat + 2 ^ 40 * dst) }
  { p with inbox := p.inbox ++ [⟨d, f, none, p.count, none⟩] }
/-- A control frame to the same die of another package. -/
def chipControl (p : Pkg) (d : Fin 4) (chip : Chip) (payload : List Byte) : Pkg :=
  inject p d (controlFrame p 5 chip (injField false d.val 0) payload)

/-- A grant of an owner to rank r of a stage (R346). -/
def sendGrant (p : Pkg) (d : Fin 4) (x : Instance_) (g : Grp) (s r first count : Nat) : Pkg :=
  let b := controlPayload 2 0 s x.group r x.passThru false x.epoch first count Status.done 0
  if s = 0 then hubControl p (rankDie p d g r) x d 0 b
  else if r = g.r s then p else chipControl p d (memberChip p d (g.stg s) r) b

/-- The grants that an owner sends as its instance opens: one to each sender of a stage, or in pass-through form rank 0 of each chunk
(R345, R346). -/
def openGrants (p : Pkg) (d : Fin 4) (x : Instance_) (g : Grp) : Pkg :=
  if x.coll = 1 ∨ x.coll = 2 then
    (List.range g.stages.length).foldl (fun q s =>
      let own := (List.range (x.chunks g)).filter (fun c => homeDie p d g c == d && g.ownsTo s c)
      if own.isEmpty then q
      else if x.passThru then own.foldl (fun q c => sendGrant q d x g s 0 c 1) q
      else (List.range (g.n s)).foldl (fun q r => sendGrant q d x g s r (own.headD 0) own.length) q) p
  else p

/-- A contributor joins its instance, which opens at the first issue on the die (R340, R344, R345); two instances of the group open
with other epochs hold it. -/
def openContrib (p : Pkg) (i : Inst) : Pkg :=
  let d := i.ctx.core.die
  let gi := bits i.word 85 78
  let e : Word := BitVec.ofNat 32 (leField i.blk 8 4)
  match grpOf p d gi with
  | none => retire p i Status.failedFormat
  | some g =>
    let k : Contrib := ⟨i.id, i.ctx, (rankOf p d g i.ctx.core).getD 0, none, [], false, none, false⟩
    let scratch := leField i.blk 32 8 ≠ 0
    match instAt p d gi e with
    | some x => if x.passThru ∧ !scratch then retire p i Status.failedFormat else setInst p d { x with contribs := x.contribs ++ [k] }
    | none =>
      if 2 ≤ ((wellOf p d).insts.filter (fun x => x.group == gi)).length then p
      else
        let x : Instance_ :=
          { group := gi, epoch := e, word := i.word, dims := i.d, start := BitVec.ofNat 64 (leField i.blk 0 8), claim := 0
            passThru := false, contribs := [k], ins := [], outs := [], folds := [], results := [], counts := [], reports := []
            concluded := false }
        let claim := claimOf p d x g
        let pt := decide (freeGranules p d < claim)
        if !pairOk p (.well d) 0x088 then cmpFail (retire p i Status.refusedOffline) (.well d)
        else if pt ∧ !bit (getReg p (.well d) 0x088) 0 then retire p i Status.refusedBusy
        else if pt ∧ !scratch then retire p i Status.failedFormat
        else
          let x := { x with claim := if pt then 0 else claim, passThru := pt }
          let w := wellOf p d
          let q := bump (setWell p d { w with insts := w.insts ++ [x] }) (.well d) 0x100 1
          openGrants q d x g

/-- Instructions held under R340 that issue again once an instance has ended. -/
def openHeld (p : Pkg) (d : Fin 4) : Pkg :=
  (p.insts.filter (fun i => i.ctx.core.die == d && i.unit == .engine && !i.started && i.ended.isNone && collOf i.word != 0)).foldl
    (fun q i => if (contribOf q i).isSome then q else openContrib q i) p

/-- An instance ends on a die once every contributor there has retired and its tally has concluded (R340): its claim and its grants
go. -/
def endInstance (p : Pkg) (d : Fin 4) (x : Instance_) : Pkg :=
  if x.concluded && x.contribs.all (fun k => k.gone) then
    let w := wellOf p d
    openHeld (setWell p d
      { insts := w.insts.filter (fun y => !(y.group == x.group && y.epoch == x.epoch))
        grants := w.grants.filter (fun y => !(y.group == x.group && y.epoch == x.epoch)) }) d
  else p

/-! ## Issue (R182, R339, R340) -/

/-- The format checks that a suffix adds (R99, R182, R339), before the block is read. -/
def suffixOk (i : Inst) : Bool :=
  let w := i.word
  let coll := collOf w
  bits w 90 86 != 0 && (handleOf i.k).plain && !(handleOf i.k).cluster
    && (!bit w 67 || ((coll == 1 || coll == 2) && (bits w 35 32 == 9 || bits w 35 32 == 8) && decide (signed 8 (bits w 77 70) ≥ -126)))
    && (!(coll == 1 || coll == 2) || slotX w == 0)

/-- The chunks of C that a reduce-scatter lands at a global rank (R347). -/
def shareOf (g : Grp) (c r : Nat) : Nat := (c + g.total - 1 - r) / g.total

/-- The planes of rC of a reduce-scatter that lands n chunks there (R347). -/
def sharePlanes (h : Handle) (fo : OpFmt) (g : Grp) (n : Nat) : List Rng :=
  h.flat (n * rowBytes fo g.e) :: (if fo.isMx then [⟨h.pair, h.splane * 64, 1, n * (g.e / 32), n * (g.e / 32)⟩] else [])

/-- The ranges of a fused instruction beside those of its compute part: inputs and outputs (R123, R339, R347). -/
def fusedRanges (p : Pkg) (i : Inst) (g : Grp) : List Rng × List Rng :=
  let m := dimM i.d
  let n := dimN i.d
  let k := dimK i.d
  let fa := (opFmt (bits i.word 27 24)).getD .fp32
  let fo := (opFmt (bits i.word 35 32)).getD .fp32
  let area (c : Nat) : Rng := (blkHandle i 24).flat (2 * c)
  match collOf i.word with
  | 1 | 2 =>
    let b := if bit i.word 67 then g.e * 16 + (g.e / 4 + 63) / 64 * 64 else g.e * 4
    let rank := g.global ((rankOf p i.ctx.core.die g i.ctx.core).getD 0)
    ([], (if collOf i.word = 1 then (handleOf i.c).planes fo m n else sharePlanes (handleOf i.c) fo g (shareOf g (g.chunks (m * n)) rank))
      ++ [area (g.chunks (m * n))] ++ (if leField i.blk 32 8 = 0 then [] else [(blkHandle i 32).flat ((b + 4095) / 4096 * 4096)]))
  | 3 => ((blkHandle i 16).planes fa (m / g.total) k, [area (g.chunks (m * k))])
  | 4 =>
    let r := leField i.blk 56 4
    ((handleOf i.a).planes fa r k ++ [(blkHandle i 48).flat (2 * r)], [area (g.n 0), (blkHandle i 32).flat (4 * m)])
  | _ => ([(blkHandle i 48).flat (4 * m)], (handleOf i.c).planes fo m n ++ [area (g.n 0)])

/-- The formats of a fused instruction that its registers and its group give (R123, R162, R165–R167, R339): they are checked before the
block is read. -/
def fusedFormOk (i : Inst) (g : Grp) : Bool :=
  let fa := (opFmt (bits i.word 27 24)).getD .fp32
  let fo := (opFmt (bits i.word 35 32)).getD .fp32
  let coll := collOf i.word
  g.chunkLog != 7 && (match mmOf i with | some x => x.okBut (coll == 3 || coll == 4) (coll == 1 || coll == 2 || coll == 5) | none => false)
    && (match coll with
      | 2 => (handleOf i.c).clean
      | 3 => dimM i.d % g.total == 0
      | 4 => (handleOf i.a).fits fa (dimK i.d)
      | _ => (handleOf i.c).fits fo (dimN i.d))

/-- The format of the handles that the collective block gives (R165, R339). -/
def fusedHandlesOk (i : Inst) : Bool :=
  let fa := (opFmt (bits i.word 27 24)).getD .fp32
  (blkHandle i 24).plain && (match collOf i.word with
    | 1 | 2 => (blkHandle i 32).plain
    | 3 => (blkHandle i 16).fits fa (dimK i.d)
    | 4 => (blkHandle i 32).plain && (blkHandle i 48).plain
    | _ => (blkHandle i 48).plain)

/-- A fused instruction with its block read: the checks of R340 on the group, then of R123; it joins its instance. -/
def joinFused (q : Pkg) (i : Inst) (grp : Grp) : Pkg :=
  let d := i.ctx.core.die
  let g := Page.well d
  let gi := bits i.word 85 78
  match mmOf i with
  | none => retire q i Status.failedFormat
  | some x =>
    let j := Job.mm x
    if !j.ok || !fusedHandlesOk i then retire q i Status.failedFormat
    else if !enabled q g then retire q i Status.refusedOffline
    else if !grpSound q d gi then retire (cmpFail q g) i Status.refusedOffline
    else if (rankOf q d grp i.ctx.core).isNone || (decide (4 ≤ collOf i.word) && grp.stages.length != 1)
        || (bit i.word 67 && decide (2 ^ 23 < grp.total)) then retire q i Status.failedFormat
    else if q.bell.toNat > leField i.blk 0 8 + grp.tally then retire q i Status.refusedDue
    else
      let r := fusedRanges q i grp
      let st := engineCheck q i.ctx (j.ins ++ r.1) (j.outs ++ r.2) j.accs
      if st ≠ Status.done then retire (countRange q i.ctx st) i st
      else openContrib (admitRanges q i.ctx (j.ins ++ r.1 ++ j.outs ++ r.2 ++ j.accs)) i

/-- A fused instruction whose block is poisoned (R98): the lines of rC are written poisoned, where its range may be written at all. -/
def blockPoisoned (q : Pkg) (i : Inst) (g : Grp) : Pkg :=
  let fo := (opFmt (bits i.word 35 32)).getD .fp32
  let h := handleOf i.c
  let share := shareOf g (g.chunks (dimM i.d * dimN i.d)) (g.global ((rankOf q i.ctx.core.die g i.ctx.core).getD 0))
  let outs := if collOf i.word = 2 then sharePlanes h fo g share else h.planes fo (dimM i.d) (dimN i.d)
  let st := engineCheck q i.ctx [] outs []
  if st ≠ Status.done then retire (countRange q i.ctx st) i st
  else retire (outs.foldl (Rng.poison i.ctx) (admitRanges q i.ctx outs)) i Status.failedPoison

/-- A fused instruction issues: the checks of R182, then its block is read, then the checks of R340 and R123. -/
def runFused (q : Pkg) (i : Inst) : Pkg :=
  if !suffixOk i then retire q i Status.failedFormat
  else
    match grpOf q i.ctx.core.die (bits i.word 85 78) with
    | none => retire q i Status.failedFormat
    | some grp =>
      if !fusedFormOk i grp then retire q i Status.failedFormat
      else
      let b := (handleOf i.k).flat 64
      let st := engineCheck q i.ctx [b] [] []
      if st ≠ Status.done then retire (countRange q i.ctx st) i st
      else if b.anyBad q i.ctx then blockPoisoned q i grp
      else
        joinFused (updInst (admitRanges q i.ctx [b]) i.id (fun (n : Inst) => { n with blk := b.read q i.ctx 0 }))
          { i with blk := b.read q i.ctx 0 } grp

/-- The words of a fused form: mma or mma.sp with the form's suffix (R182). -/
def fusedRow (coll : Nat) (w : BitVec 128) : Bool := (opOf w == 0x20 || opOf w == 0x21) && bits w 66 64 == coll

def execMmaAr (c : CtxId) (s : State) : Host.Outcome State Fault Refusal := act s (fun p => runRow (fusedRow 1) runFused p c)
def execMmaRs (c : CtxId) (s : State) : Host.Outcome State Fault Refusal := act s (fun p => runRow (fusedRow 2) runFused p c)
def execAgMma (c : CtxId) (s : State) : Host.Outcome State Fault Refusal := act s (fun p => runRow (fusedRow 3) runFused p c)
def execDispMma (c : CtxId) (s : State) : Host.Outcome State Fault Refusal := act s (fun p => runRow (fusedRow 4) runFused p c)
def execMmaComb (c : CtxId) (s : State) : Host.Outcome State Fault Refusal := act s (fun p => runRow (fusedRow 5) runFused p c)

/-! ## Grants and counts (R346, R348) -/

/-- A collective control frame of a type at a die. -/
def controlAt (d : Fin 4) (type : Nat) (x : Delivered) : Bool :=
  x.die == d && x.frame.kind == 3 && x.frame.off == 5 && leField x.frame.payload 0 1 % 16 == type && complOk 32 x.frame.payload

/-- The group and epoch that a control payload names. -/
def ctlGroup (b : List Byte) : Nat := leField b 1 1
def ctlEpoch (b : List Byte) : Word := BitVec.ofNat 32 (leField b 4 4)
def ctlStage (b : List Byte) : Nat := leField b 0 1 / 64
def ctlRank (b : List Byte) : Nat := leField b 2 2 % 1024

/-- GRANT_RECEIVE (R346): the die holds the grant for its sender. -/
def grantReceive (p : Pkg) (d : Fin 4) : Pkg :=
  match takeInbox p (controlAt d 2) with
  | none => p
  | some (x, q) =>
    let b := x.frame.payload
    let w := wellOf q d
    setWell q d { w with grants := w.grants ++
      [⟨ctlGroup b, ctlEpoch b, ctlStage b, x.frame.src, injDie x.frame.inj, ctlRank b, (leField b 2 2).testBit 10, leField b 8 2, leField b 10 2⟩] }

def execGrantReceive (die : Fin 4) (s : State) : Host.Outcome State Fault Refusal := act s (fun p => grantReceive p die)

/-- COUNT_RECEIVE (R348): a sender's count for a contributor of this die, taken once its instance is open. -/
def countReceive (p : Pkg) (d : Fin 4) : Pkg :=
  match takeInbox p (fun x => controlAt d 5 x && (instAt p d (ctlGroup x.frame.payload) (ctlEpoch x.frame.payload)).isSome) with
  | none => p
  | some (x, q) =>
    let b := x.frame.payload
    match instAt q d (ctlGroup b) (ctlEpoch b) with
    | none => q
    | some n => setInst q d { n with counts := Map.put n.counts (x.frame.due.toNat / 2 ^ 40, ctlRank b) (leField b 8 2) }

def execCountReceive (die : Fin 4) (s : State) : Host.Outcome State Fault Refusal := act s (fun p => countReceive p die)

/-! ## Sending (R341, R342) -/

/-- The deadline of a transfer (R341). -/
def keyDeadline (x : Instance_) (g : Grp) (k : ChunkKey) : DWord :=
  x.start + BitVec.ofNat 64 (if k.phase = 1 then (g.stg k.stage).down else (g.stg k.stage).up)

/-- The item sequence of a chunk (R342). -/
def chunkSeq (x : Instance_) (k : ChunkKey) : Word :=
  BitVec.ofNat 32 (k.chunk % 65536 * 65536 + k.rank % 1024 * 64 + k.stage * 16 + k.phase * 4 + x.epoch.toNat % 2 * 2)
/-- The key that a sequence and a destination spell. -/
def keyOfSeq (s : Word) (dst : Nat) : ChunkKey := ⟨bits s 5 4, bits s 3 2, bits s 31 16, bits s 15 6, dst⟩

/-- The first address of a die's well (R27). -/
def wellBase (d : Fin 4) : Nat := 0x013000000000 + d.val * 0x1000000

/-- The injector of a rank's transfers: its core (R341). -/
def rankInj (p : Pkg) (d : Fin 4) (g : Grp) (r : Nat) : Nat :=
  injField true (rankDie p d g r).val (bits (memberWord p d (g.stg 0) r) 7 0)

/-- A frame of a chunk. -/
def chunkFrame (p : Pkg) (x : Instance_) (t : Transfer) (flow inj off : Nat) (last : Bool) (due : DWord) (b : List Byte) : Frame :=
  { kind := 7, cls := 1, flag := false, last := last, dst := t.chip, src := ownChip p, flow := flow
    due := if t.hub then BitVec.ofNat 64 (x.group + 256 * x.epoch.toNat + 2 ^ 40 * t.key.dst) else due
    off := off, inj := inj, seq := chunkSeq x t.key, payload := b, poison := 0 }

/-- The close payload of a load (R342). -/
def closeOf (p : Pkg) (x : Instance_) (t : Transfer) (l : Load) : List Byte :=
  let data := joinParts l.parts
  let rows := match x.byRank t.key.rank with
    | some e => match e.instr p with
      | some i => if x.coll = 4 then (dispRows p i t.key.chunk).length else (combRows p i t.key.chunk).length
      | none => 0
    | none => 0
  closePayload t.key.phase t.key.stage x.group t.key.rank l.range l.passThru x.epoch (if t.key.phase = 3 then rows else t.key.chunk)
    ((data.length + 63) / 64 % 65536) l.status (if x.cfmt then bits x.word 77 70 else 0) x.cfmt (crc64 data)

/-- Frames of a chunk admitted and sent on the stage's flow from a position on (R66, R341): how many were sent, and the status of a
refusal. -/
def sendFrames (d : Fin 4) (ticket : Nat) : List Frame → Pkg → Nat → Pkg × Nat × Option Status
  | [], p, n => (p, n, none)
  | f :: r, p, n =>
    match admitLine p d f.flow none f.payload.length (2, f.seq.toNat) (if n = 0 then ticket else 0) with
    | .no st => (p, n, some st)
    | .wait => (p, n, none)
    | .ok due => sendFrames d ticket r (inject (debit p d f.flow f.payload.length) d { f with due := due }) (n + 1)

/-- The record of a transfer already begun. -/
def Instance_.outOf (x : Instance_) (t : Transfer) : Option ChunkOut :=
  x.outs.find? (fun o => o.key == t.key && o.chip == t.chip && o.die == t.die)

/-- A sent chunk's record replaced. -/
def Instance_.updOut (x : Instance_) (o : ChunkOut) : Instance_ :=
  { x with outs := x.outs.map (fun y => if y.key = o.key ∧ y.chip = o.chip ∧ y.die = o.die then o else y) }

/-- A sent chunk ends with a status (R343, R350): the WELL tally counts it, chunk_failed is set when it is not done, and the area of the
contributor that injects it takes the status. -/
def endOut (p : Pkg) (d : Fin 4) (x : Instance_) (o : ChunkOut) (st : Status) : Pkg :=
  let y := x.updOut { o with ended := some st }
  let y := if Status.cls st = 0 then y
    else { y with contribs := y.contribs.map (fun (k : Contrib) => if injCore k.ctx.core = o.inj then k.mark o.key.index st else k) }
  let q := endItem (setInst p d y) (.well d) o.seq.toNat st
  if Status.cls st = 0 then q else raise q (.well d) 17

/-- Whether a transfer may begin or go on: start has passed, its chunks of lower number have begun, and it is not yet sent. -/
def maySend (p : Pkg) (d : Fin 4) (x : Instance_) (g : Grp) (t : Transfer) : Bool :=
  match x.outOf t with
  | some o => !o.closeSent && o.ended.isNone && decide (o.after ≤ roundNow p)
  | none =>
    decide (x.start.toNat ≤ p.bell.toNat)
      && (t.key.phase == 3 || (List.range t.key.chunk).all (fun c => (transfersOf p d x g c).all (fun u =>
        !(u.key.stage == t.key.stage && u.key.phase == t.key.phase && u.key.rank == t.key.rank) || (x.outOf u).isSome)))

/-- The count frames that a dispatching contributor sends before its first rows (R348). -/
def sendCounts (p : Pkg) (d : Fin 4) (x : Instance_) (g : Grp) (r : Nat) : Pkg :=
  match x.byRank r with
  | some e => match e.instr p with
    | some i => (List.range (g.n 0)).foldl (fun q t =>
        hubControl q (rankDie p d g t) x d t (controlPayload 5 3 0 x.group r false false x.epoch (dispRows p i t).length 0 Status.done 0)) p
    | none => p
  | none => p

/-- One transfer sent, as far as its flow's budget reaches. -/
def sendTransfer (p : Pkg) (d : Fin 4) (x : Instance_) (g : Grp) (t : Transfer) (l : Load) : Pkg :=
  let inj := rankInj p d g t.from_
  let fresh : ChunkOut := ⟨t.key, t.chip, t.die, inj, chunkSeq x t.key, 0, false, keyDeadline x g t.key, 0, 0, none, if t.hub then 0 else (g.stg t.key.stage).flow, 0⟩
  let first := x.coll == 4 && !x.outs.any (fun o => o.key.phase == 3 && o.key.rank == t.key.rank)
  let p := if (x.outOf t).isSome then p else tallyIn p (.well d) 1
  let p := if first then sendCounts p d x g t.key.rank else p
  let x := if (x.outOf t).isSome then x else { x with outs := x.outs ++ [fresh] }
  let o := (x.outOf t).getD fresh
  let flow := if t.hub then 0 else (g.stg t.key.stage).flow
  let base := if t.hub then 0 else wellBase t.die
  let data := l.parts.map (fun y => chunkFrame p x t flow inj (base + y.1) false 0 y.2)
  let all := data ++ [chunkFrame p x t flow inj (if t.hub then t.key.dst else base) true 0 (closeOf p x t l)]
  if t.hub then
    let q := { p with inbox := p.inbox ++ all.map (fun f => ⟨t.die, f, none, p.count, none⟩) }
    bump (setInst q d (x.updOut { o with sent := all.length, closeSent := true })) (.well d) 0x108 1
  else
    let r := sendFrames d o.ticket (all.drop o.sent) p 0
    let more := decide (o.sent + r.2.1 < all.length)
    let o := { o with
      sent := o.sent + r.2.1, closeSent := !more
      ticket := if more then takeTicket r.1 d flow (if r.2.1 = 0 then o.ticket else 0) else 0 }
    let q := setInst r.1 d (x.updOut o)
    match r.2.2 with
    | some st => endOut q d (x.updOut o) o st
    | none => if o.closeSent then bump q (.well d) 0x108 1 else q

/-- CHUNK_SEND (R341, R342, R346): the first transfer of a chunk, in an exchange of a destination rank, that a die may send. -/
def chunkSend (p : Pkg) (d : Fin 4) (c : Nat) : Pkg :=
  match (wellOf p d).insts.findSome? (fun x =>
    if x.concluded then none
    else
      match grpOf p d x.group with
      | none => none
      | some g => (transfersOf p d x g c).findSome? (fun t =>
          if maySend p d x g t then (loadOf p d x g t).map (fun l => (x, g, t, l)) else none)) with
  | some (x, g, t, l) => sendTransfer p d x g t l
  | none => p

def execChunkSend (die : Fin 4) (chunk : Nat) (s : State) : Host.Outcome State Fault Refusal := act s (fun p => chunkSend p die chunk)

/-! ## Receiving (R343) -/

/-- The open instance that a frame of kind 0x7 belongs to: across the hub by its group and epoch, from another package by its flow and
epoch bit. -/
def frameInst (p : Pkg) (d : Fin 4) (f : Frame) : Option Instance_ :=
  if f.flow = 0 then instAt p d (f.due.toNat % 256) (BitVec.ofNat 32 (f.due.toNat / 256))
  else
    (wellOf p d).insts.find? (fun x =>
      x.epoch.toNat % 2 == bits f.seq 1 1 &&
      (match grpOf p d x.group with
      | some g => g.stages.any (fun s => s.flow == f.flow)
      | none => false))

/-- The key of a frame. -/
def frameKey (f : Frame) : ChunkKey := keyOfSeq f.seq (if f.flow = 0 then f.due.toNat / 2 ^ 40 else 0)

/-- What has arrived under a key with a part of data added; a part that comes again replaces the one at its offset. -/
def Instance_.addPart (x : Instance_) (k : ChunkKey) (off : Nat) (b : List Byte) : Instance_ :=
  match x.inOf k with
  | some i => if i.closed.isSome then x
    else { x with ins := x.ins.map (fun (y : ChunkIn) => if y.key = k then { y with parts := Map.put y.parts off b } else y) }
  | none => { x with ins := x.ins ++ [⟨k, [(off, b)], none, false, false⟩] }

/-- A frame for no open instance is discarded (R343). -/
def staleChunk (p : Pkg) (d : Fin 4) : Pkg := raise (bump p (.well d) 0x140 1) (.well d) 25

/-- CHUNK_DATA_RECEIVE (R343). -/
def chunkData (p : Pkg) (d : Fin 4) : Pkg :=
  serveNext p (fun x => x.die == d && x.frame.kind == 7 && !x.frame.last) (fun q x =>
    match frameInst q d x.frame with
    | none => staleChunk q d
    | some n => setInst q d (n.addPart (frameKey x.frame) (if x.frame.flow = 0 then x.frame.off else x.frame.off % 0x1000000) x.frame.payload))

def execChunkDataReceive (die : Fin 4) (s : State) : Host.Outcome State Fault Refusal := act s (fun p => chunkData p die)

/-- The 2-byte entry of a contributor's status area written (R339, R350). -/
def markArea (p : Pkg) (d : Fin 4) (x : Instance_) (k : Contrib) (idx : Nat) (st : Status) : Pkg :=
  let k := k.mark idx st
  let q := setInst p d (x.upd k)
  match k.instr p with
  | some i => writeLocal q (((blkHandle i 24).flat 2).at_ q i.ctx + 2 * idx) (leBytes 2 (Map.getD k.area idx 0).toNat) noTag
  | none => q

/-- A chunk's status with its flags: a range flag and pass-through are done statuses of their own (R103, R345). -/
def flagStatus (st : Status) (range pt : Bool) : Status :=
  let a := if range then Status.worst st Status.doneWsRange else st
  if pt then Status.worst a Status.donePassthrough else a

/-- The rows that an exchange's parts carry, rising. -/
def partRows (n : Nat) (l : List (Nat × List Byte)) : List Nat := l.foldl (fun a y => insertLine a (if n = 0 then 0 else y.1 / n)) []
/-- The run of one row among the parts. -/
def partRow (n r : Nat) (l : List (Nat × List Byte)) : List Byte :=
  joinParts (l.filter (fun y => decide (r * n ≤ y.1) && decide (y.1 < (r + 1) * n)))

/-- The rows that all senders count for a contributor. -/
def countTotal (x : Instance_) (g : Grp) (r : Nat) : Nat := (List.range (g.n 0)).foldl (fun a t => a + Map.getD x.counts (r, t) 0) 0

/-- A closed transfer lands at its contributor (R347, R348): written into rC or the gather or receive range, or the lines poisoned when it
is not done; the status area takes its status. -/
def landChunk (p : Pkg) (d : Fin 4) (x : Instance_) (g : Grp) (y : ChunkIn) (st : Status) : Pkg :=
  match x.byRank (y.key.dst - 1) with
  | none => p
  | some k =>
    match k.instr p with
    | none => p
    | some i =>
      let c := y.key.chunk
      let ok := Status.cls st = 0
      let flags := flagStatus st y.range y.passThru
      let data := joinParts y.parts
      match x.coll with
      | 1 =>
        let h := handleOf i.c
        let n := chunkLen g x.elems c
        let m := dimM i.d
        let len := dimN i.d
        let q := if ok then
            let u := unpackRun x.fo n data
            let q := writeCodes p i.ctx h x.fo m len (c * g.e) u.1
            if x.fo.isMx then writeScales q i.ctx h m len (blockStarts len (c * g.e) n true) u.2 else q
          else poisonElems p i.ctx h x.fo m len (c * g.e) n
        markArea q d x k c flags
      | 2 =>
        let h := handleOf i.c
        let n := chunkLen g x.elems c
        let at_ := (h.flat 1).at_ p i.ctx + c / g.total * rowBytes x.fo g.e
        let q := if ok then
            let q := writeLocal p at_ (data.take (rowBytes x.fo n)) noTag
            if x.fo.isMx then
              writeLocal q ((⟨h.pair, h.splane * 64, 1, 1, 1⟩ : Rng).at_ q i.ctx + c / g.total * (g.e / 32)) (data.drop (rowBytes x.fo n)) noTag
            else q
          else poisonLocal p at_ (rowBytes x.fo n)
        markArea q d x k c flags
      | 3 =>
        let h := blkHandle i 40
        let len := dimK i.d
        let n := chunkLen g (g.P y.key.stage * x.shard g) c
        let e0 := agBase x g y.key.stage y.key.rank + c * g.e
        let q := if ok then
            let u := unpackRun x.fa n data
            let q := writeCodes p i.ctx h x.fa (dimM i.d) len e0 u.1
            if x.fa.isMx then writeScales q i.ctx h (dimM i.d) len (blockStarts len e0 n false) u.2 else q
          else poisonElems p i.ctx h x.fa (dimM i.d) len e0 n
        markArea q d x k (e0 / g.e) flags
      | 4 =>
        let n := runLen x.fa (dimK i.d)
        let base := (List.range y.key.rank).foldl (fun a t => a + Map.getD x.counts (k.rank, t) 0) 0
        let rows := partRows n y.parts
        let q := if ok then
            (List.range rows.length).foldl (fun q j =>
              let r := nth rows j 0
              let q := writeRun q i.ctx (blkHandle i 40) x.fa (dimM i.d) (dimK i.d) (base + j) (partRow n r y.parts)
              writeLocal q (((blkHandle i 32).flat 4).at_ q i.ctx + 4 * (base + j)) (leBytes 2 y.key.rank ++ leBytes 2 r) noTag) p
          else if countTotal x g k.rank ≤ dimM i.d then
            poisonElems p i.ctx (blkHandle i 40) x.fa (dimM i.d) (dimK i.d) (base * dimK i.d)
              (Map.getD x.counts (k.rank, y.key.rank) 0 * dimK i.d)
          else p
        markArea q d x k y.key.rank st
      | _ =>
        let n := runLen x.fo (dimN i.d)
        let rows := partRows n y.parts
        let fits := rows.all (fun r => ((handleOf i.c).planes x.fo (r + 1) (dimN i.d)).all (fun z => z.inBound p i.ctx && z.inStore p i.ctx))
        let q := if ok && fits then
            rows.foldl (fun q r => writeRun q i.ctx (handleOf i.c) x.fo (r + 1) (dimN i.d) r (partRow n r y.parts)) p
          else p
        markArea q d x k y.key.rank (if ok && !fits then Status.refusedBound else st)

/-- A contributor's block takes the rows it received (R348). -/
def writeRows (p : Pkg) (i : Inst) (n : Nat) : Pkg :=
  writeLocal (updInst p i.id (fun (y : Inst) => { y with recv := some n })) (((handleOf i.k).flat 64).at_ p i.ctx + 56) (leBytes 4 n) noTag

/-- The planes of a contributor's result (R351). -/
def resultPlanes (x : Instance_) (g : Grp) (i : Inst) (r : Nat) : List Rng :=
  let h := handleOf i.c
  match x.coll with
  | 2 =>
    sharePlanes h x.fo g (expects x g r).length
  | 3 => (blkHandle i 40).planes x.fa (dimM i.d) (dimK i.d)
  | 4 => h.planes x.fo (i.recv.getD 0) (dimN i.d)
  | _ => h.planes x.fo (dimM i.d) (dimN i.d)

/-- The digest of a contributor's result: CRC-64 over its bytes in ascending address order (R351). -/
def resultDigest (p : Pkg) (x : Instance_) (g : Grp) (i : Inst) (r : Nat) : DWord :=
  let pl := (resultPlanes x g i r).mergeSort (fun a b => decide (a.at_ p i.ctx ≤ b.at_ p i.ctx))
  crc64 (pl.flatMap (fun z => (List.range z.rows).flatMap (fun k => z.read p i.ctx k)))

/-- The worst status that a contributor holds. -/
def Contrib.worst (k : Contrib) : Status := Status.worst (worstOf (k.area.map Prod.snd)) (k.computed.getD Status.done)

/-- Whether a contributor's result is written and checked: every transfer it expects has closed and its compute part is over; an
all-gather reports on the gather alone (R351). -/
def resultReady (x : Instance_) (g : Grp) (k : Contrib) : Bool := x.complete g k.rank && (x.coll == 3 || k.computed.isSome)

/-- A contributor reports to the tally root of stage 0, the home die of rank 0 (R351). -/
def sendReport (p : Pkg) (d : Fin 4) (x : Instance_) (g : Grp) (k : Contrib) (i : Inst) : Pkg :=
  hubControl (setInst p d (x.upd { k with reported := true })) (rankDie p d g 0) x d 0
    (controlPayload 3 0 0 x.group k.rank false false x.epoch 0 0 k.worst (resultDigest p x g i k.rank))

/-- A contributor whose gather or dispatch is complete computes (R347, R348); with more rows counted than the M of its rD it ends
refused.full without computing. -/
def gatherOver (p : Pkg) (d : Fin 4) (gi : Nat) (e : Word) (r : Nat) : Pkg :=
  match instAt p d gi e, grpOf p d gi with
  | some x, some g =>
    match x.byRank r with
    | none => p
    | some k =>
      match k.instr p with
      | none => p
      | some i =>
        let core := i.ctx.core
        let holds := match (engineOf p core).run with | some u => u.inst == i.id && u.coll.isSome | none => false
        if (x.coll ≠ 3 ∧ x.coll ≠ 4) ∨ k.computed.isSome ∨ !holds ∨ !x.complete g r then p
        else if x.coll = 3 then beginCompute p core
        else
          let n := countTotal x g r
          if dimM i.d < n then
            let k := { k with computed := some Status.refusedFull, final := some Status.refusedFull }
            sendReport p d (x.upd k) g { k with reported := true } i
          else beginCompute (writeRows p i n) core
  | _, _ => p

/-- A transfer closes with a status at this die (R343): recorded, kept for the way down, or landed at its contributor. -/
def closeChunk (p : Pkg) (d : Fin 4) (x : Instance_) (g : Grp) (y : ChunkIn) (st : Status) : Pkg :=
  let y := { y with closed := some st }
  let x := { x with ins := if (x.inOf y.key).isSome then x.ins.map (fun z => if z.key = y.key then y else z) else x.ins ++ [y] }
  let x := if y.key.dst = 0 ∧ y.key.phase = 1 then
      { x with results := Map.put x.results y.key.chunk ⟨0, joinParts y.parts, y.range, y.passThru, st⟩ } else x
  let q := setInst p d x
  if y.key.dst = 0 then q
  else gatherOver (landChunk q d x g y st) d x.group x.epoch (y.key.dst - 1)

/-- The response to a close (R343): to the sending package, or across the hub to the sender's die. -/
def answerClose (p : Pkg) (d : Fin 4) (f : Frame) (st : Status) : Pkg :=
  if f.flow = 0 then { p with inbox := p.inbox ++ [⟨injDie f.inj, respFrame p f st [] 0, none, p.count, none⟩] } else inject p d (respFrame p f st [] 0)

/-- A close frame whose data has all been taken, and which a dispatch's counts let be placed (R348). -/
def closeReady (p : Pkg) (d : Fin 4) (x : Delivered) : Bool :=
  let f := x.frame
  x.die == d && f.kind == 7 && f.last
    && !p.inbox.any (fun y => y.die == d && y.frame.kind == 7 && !y.frame.last && y.frame.seq == f.seq && y.frame.src == f.src
        && y.frame.flow == f.flow && (f.flow != 0 || y.frame.due == f.due))
    && (match frameInst p d f with
      | some n =>
        n.coll != 4 || (match grpOf p d n.group with
          | some g => (List.range (g.n 0)).all (fun t => (Map.look n.counts ((frameKey f).dst - 1, t)).isSome)
          | none => true)
      | none => true)

/-- What a close decides (R342, R343, R348): missing when late or for another instance, diverged when the data disagrees, refused.full
where a dispatch exceeds its receiver, otherwise done. -/
def closeStatus (p : Pkg) (x : Instance_) (g : Grp) (f : Frame) (y : ChunkIn) : Status :=
  let b := f.payload
  let data := joinParts y.parts
  let anchor := if x.cfmt then bits x.word 77 70 else 0
  if p.bell.toNat > (keyDeadline x g y.key).toNat ∨ leField b 1 1 ≠ x.group ∨ leField b 4 4 ≠ x.epoch.toNat ∨ leField b 14 1 ≠ anchor
      ∨ leField b 15 1 % 2 ≠ (if x.cfmt then 1 else 0) then Status.collectiveMissing
  else if !complOk 32 b || leField b 10 2 != (data.length + 63) / 64 % 65536 || leField b 16 8 != (crc64 data).toNat then
    Status.collectiveDiverged
  else
    match x.byRank (y.key.dst - 1) with
    | some k =>
      match k.instr p with
      | some i => if x.coll = 4 ∧ dimM i.d < countTotal x g k.rank then Status.refusedFull else Status.done
      | none => Status.done
    | none => Status.done

/-- CHUNK_CLOSE_RECEIVE (R343, R350): the close decides the chunk and is answered; a chunk whose sender reports a failure carries that
status. -/
def chunkClose (p : Pkg) (d : Fin 4) : Pkg :=
  match takeInbox p (closeReady p d) with
  | none => p
  | some (v, q) =>
    let f := v.frame
    match frameInst q d f with
    | none => staleChunk q d
    | some x =>
      match grpOf q d x.group with
      | none => staleChunk q d
      | some g =>
        let k := frameKey f
        let y := (x.inOf k).getD ⟨k, [], none, false, false⟩
        match y.closed with
        | some st => answerClose q d f (if Status.cls st = 5 then st else Status.done)
        | none =>
          let st := closeStatus q x g f y
          let sender : Status := BitVec.ofNat 16 (leField f.payload 12 2)
          let y := { y with range := (leField f.payload 2 2).testBit 10, passThru := (leField f.payload 2 2).testBit 11 }
          let q := tallyOut (tallyIn q (.well d) 1) (.well d) 1
          let q := if st = Status.collectiveMissing then raise (bump q (.well d) 0x130 1) (.well d) 18
            else if st = Status.collectiveDiverged then raise (bump q (.well d) 0x138 1) (.well d) 19
            else bump q (.well d) 0x110 1
          answerClose (closeChunk q d x g y (if st = Status.done then sender else st)) d f st

def execChunkCloseReceive (die : Fin 4) (s : State) : Host.Outcome State Fault Refusal := act s (fun p => chunkClose p die)

/-- CHUNK_CLOSE_RESPONSE (R343): the answer to a close ends the chunk at its sender. -/
def chunkResponse (p : Pkg) (d : Fin 4) : Pkg :=
  match takeInbox p (fun x => x.die == d && x.frame.kind == 8 && x.frame.due.toNat / 65536 % 16 == 7) with
  | none => p
  | some (v, q) =>
    let f := v.frame
    match (wellOf q d).insts.findSome? (fun x => (x.outs.find? (fun o =>
        o.seq == f.seq && o.chip == f.src && o.ended.isNone && (f.flow != 0 || o.key.dst == f.off))).map (fun o => (x, o))) with
    | some (x, o) => endOut q d x o (BitVec.ofNat 16 f.due.toNat)
    | none => q

def execChunkCloseResponse (die : Fin 4) (s : State) : Host.Outcome State Fault Refusal := act s (fun p => chunkResponse p die)

/-- CHUNK_ACK_DEADLINE (R343): no response by the deadline + 65,536 ticks. -/
def chunkAckDeadline (p : Pkg) (d : Fin 4) (seq : Word) : Pkg :=
  match (wellOf p d).insts.findSome? (fun x => (x.outs.find? (fun o =>
      o.seq == seq && o.ended.isNone && decide (o.deadline.toNat + 65536 < p.bell.toNat))).map (fun o => (x, o))) with
  | some (x, o) => endOut p d x o Status.unknownNoAck
  | none => p

def execChunkAckDeadline (die : Fin 4) (seq : Word) (s : State) : Host.Outcome State Fault Refusal :=
  act s (fun p => chunkAckDeadline p die seq)

/-! ## Folding (R338, R344, R345) -/

/-- The next contribution of a rank to a fold: bytes, flags, status. -/
def contribution (x : Instance_) (g : Grp) (s c r : Nat) : Option (List Byte × Bool × Bool × Status) :=
  if 1 ≤ s ∧ r = g.r s then (x.folded g (s - 1) c).map (fun f => (f.acc, f.range, f.passThru, f.status))
  else
    match x.inOf ⟨s, 0, c, r, 0⟩ with
    | some y => y.closed.map (fun st => (joinParts y.parts, y.range, y.passThru, st))
    | none => none

/-- The fold with one contribution taken; one that is not done is never folded (R343, R350). -/
def Fold.take (f : Fold) (cfmt : Bool) (n : Nat) (b : List Byte) (range pt : Bool) (st : Status) : Fold :=
  { next := f.next + 1
    acc := if Status.cls st = 0 then (if f.next = 0 then b else foldBytes cfmt n f.acc b) else f.acc
    range := f.range || range, passThru := f.passThru || pt, status := Status.worst f.status st }

/-- CHUNK_FOLD_DONE (R338, R345): the next rank's contribution of a chunk homed on the die is folded; in pass-through form into the
owner's scratch, and the next rank is granted. -/
def foldDone (p : Pkg) (d : Fin 4) (c : Nat) : Pkg :=
  match (wellOf p d).insts.findSome? (fun x =>
    match grpOf p d x.group with
    | none => none
    | some g =>
      if (x.coll = 1 ∨ x.coll = 2) ∧ c < x.chunks g ∧ homeDie p d g c = d then
        (List.range g.stages.length).findSome? (fun s =>
          let f := Map.getD x.folds (s, c) ⟨0, [], false, false, Status.done⟩
          if g.ownsTo s c && decide (f.next < g.n s) then (contribution x g s c f.next).map (fun v => (x, g, s, f, v)) else none)
      else none) with
  | none => p
  | some (x, g, s, f, v) =>
    let h := f.take x.cfmt (chunkLen g x.elems c) v.1 v.2.1 v.2.2.1 v.2.2.2
    let x := { x with folds := Map.put x.folds (s, c) h }
    let q := bump (tallyOut (tallyIn (setInst p d x) (.well d) 1) (.well d) 1) (.well d) 0x118 (if Status.cls v.2.2.2 = 0 then 1 else 0)
    if x.passThru then
      let q := match x.byRank (c % g.n 0) with
        | some k => match k.instr q with
          | some i => writeLocal q (((blkHandle i 32).flat 1).at_ q i.ctx) h.acc noTag
          | none => q
        | none => q
      if h.next < g.n s then sendGrant q d x g s h.next c 1 else raise (bump q (.well d) 0x120 1) (.well d) 16
    else q

def execChunkFoldDone (die : Fin 4) (chunk : Nat) (s : State) : Host.Outcome State Fault Refusal := act s (fun p => foldDone p die chunk)

/-- STAGE_DEADLINE (R341, R350): transfers of a chunk that have not closed when their stage deadline has passed are
collective.missing. -/
def stageDeadline (p : Pkg) (d : Fin 4) (c : Nat) : Pkg :=
  (wellOf p d).insts.foldl (fun q x0 =>
    match grpOf q d x0.group with
    | none => q
    | some g =>
      let keys := unitExpects q d x0 g c ++ x0.contribs.flatMap (fun k => (expects x0 g k.rank).filter (fun y => y.chunk == c))
      keys.foldl (fun q k =>
        match instAt q d x0.group x0.epoch with
        | none => q
        | some x =>
          if q.bell.toNat > (keyDeadline x g k).toNat && (x.closedOf k).isNone then
            let y := (x.inOf k).getD ⟨k, [], none, false, false⟩
            closeChunk (raise (bump q (.well d) 0x130 1) (.well d) 18) d x g y Status.collectiveMissing
          else q) q) p

def execStageDeadline (die : Fin 4) (chunk : Nat) (s : State) : Host.Outcome State Fault Refusal := act s (fun p => stageDeadline p die chunk)

/-! ## The closing tally (R351–R353) -/

/-- The contributors of a die that have a result to report. -/
def sendReports (p : Pkg) (d : Fin 4) : Pkg :=
  (wellOf p d).insts.foldl (fun q x0 =>
    x0.contribs.foldl (fun q k0 =>
      match instAt q d x0.group x0.epoch, grpOf q d x0.group with
      | some x, some g =>
        match x.byRank k0.rank with
        | some k =>
          match k.instr q with
          | some i => if !k.reported && resultReady x g k then sendReport q d x g k i else q
          | none => q
        | none => q
      | _, _ => q) q) p

/-- The combined report of a stage, once all its members have reported (R351): the common digest, and diverged where an all-reduce or
all-gather finds them unequal. -/
def combined (x : Instance_) (g : Grp) (s : Nat) : Option (DWord × Status) :=
  let l := x.reports.filter (fun r => r.stage == s)
  if (List.range (g.n s)).all (fun r => l.any (fun y => y.rank == r)) then
    let d0 := (l.map Report.digest).headD 0
    let w := worstOf (l.map Report.status)
    if (x.coll = 1 ∨ x.coll = 3) ∧ !l.all (fun y => y.digest == d0) then some (d0, Status.worst w Status.collectiveDiverged) else some (d0, w)
  else none

/-- The verdict of the last root (R351): diverged has the worst code of what can be reported but tainted, so any report that carries it
shows. -/
def verdictOf (st : Status) : Bool := st != Status.collectiveDiverged

/-- The verdict goes down the tree from a root die, with the worst status that the root holds (R346): to the members of the stages that this
package is root of, below a stage, and across the hub to every die of the group's contributors. -/
def spreadVerdict (p : Pkg) (d : Fin 4) (x : Instance_) (g : Grp) (below : Nat) (pass : Bool) (worst : Status) : Pkg :=
  let pay (s : Nat) : List Byte := controlPayload 4 1 s x.group 0x3FF false pass x.epoch 0 0 worst 0
  let q := ((List.range below).filter (fun s => decide (1 ≤ s) && decide (s < g.stages.length) && g.r s == 0)).foldl (fun q s =>
    (List.range (g.n s)).foldl (fun q r => if r = g.r s then q else chipControl q d (memberChip p d (g.stg s) r) (pay s)) q) p
  (([0, 1, 2, 3] : List (Fin 4)).filter (fun e => (List.range (g.n 0)).any (fun r => rankDie p d g r == e))).foldl
    (fun q e => hubControl q e x d 0 (pay 0)) q

/-- A stage's report passes up, or at the last stage becomes the verdict (R351); an own report to the next stage may complete that too. -/
def passUp (d : Fin 4) (g : Grp) (gi : Nat) (e : Word) : Nat → Nat → Pkg → Pkg
  | 0, _, p => p
  | k + 1, s, p =>
    match instAt p d gi e with
    | none => p
    | some x =>
      match combined x g s with
      | none => p
      | some (dg, st) =>
        if s = g.last then spreadVerdict p d x g g.stages.length (verdictOf st) st
        else if g.r (s + 1) = 0 then
          passUp d g gi e k (s + 1) (setInst p d { x with reports := x.reports ++ [⟨s + 1, 0, dg, st⟩] })
        else chipControl p d (memberChip p d (g.stg (s + 1)) 0) (controlPayload 3 0 (s + 1) gi (g.r (s + 1)) false false e 0 0 st dg)

/-- DIGEST_RECEIVE (R351): a report reaches the tally root on this die, which combines a stage's reports once all are there. -/
def digestReceive (p : Pkg) (d : Fin 4) : Pkg :=
  let p := ([0, 1, 2, 3] : List (Fin 4)).foldl sendReports p
  match takeInbox p (fun x => controlAt d 3 x && (instAt p d (ctlGroup x.frame.payload) (ctlEpoch x.frame.payload)).isSome) with
  | none => p
  | some (v, q) =>
    let b := v.frame.payload
    match instAt q d (ctlGroup b) (ctlEpoch b), grpOf q d (ctlGroup b) with
    | some x, some g =>
      let r : Report := ⟨ctlStage b, ctlRank b, BitVec.ofNat 64 (leField b 16 8), BitVec.ofNat 16 (leField b 12 2)⟩
      if x.reports.any (fun y => y.stage == r.stage && y.rank == r.rank) then q
      else passUp d g x.group x.epoch 4 r.stage (setInst q d { x with reports := x.reports ++ [r] })
    | _, _ => q

def execDigestReceive (die : Fin 4) (s : State) : Host.Outcome State Fault Refusal := act s (fun p => digestReceive p die)

/-- A contributor's chunk statuses stand in its status area, those of the chunks that it sent among them, and the worst of them is written
back to its block (R183, R339, R350). -/
def writeWorst (p : Pkg) (k : Contrib) : Pkg :=
  match k.instr p with
  | some i =>
    let p := k.area.foldl (fun q (e : Nat × Status) => writeLocal q (((blkHandle i 24).flat 2).at_ q i.ctx + 2 * e.1) (leBytes 2 e.2.toNat) noTag) p
    writeLocal p (((handleOf i.k).flat 64).at_ p i.ctx + 60) (leBytes 2 (worstOf (k.area.map Prod.snd)).toNat) noTag
  | none => p

/-- An instance's tally concludes on a die: every contributor that has not ended takes its final status. -/
def conclude (p : Pkg) (d : Fin 4) (x : Instance_) (final : Contrib → Status) : Pkg :=
  let q := x.contribs.foldl (fun q k => if k.final.isNone && !k.gone then writeWorst q k else q) p
  let y := { x with
    concluded := true
    contribs := x.contribs.map (fun (k : Contrib) => if k.final.isNone then { k with final := some (final k) } else k) }
  endInstance (setInst q d y) d y

/-- A verdict reaches a die's contributors (R103, R352, R353): they retire with the worst of their area, and with done.ws_range where any
member's result had the range flag, which the verdict's worst status tells (DEDUCED, log entry 43); or diverged; a failing verdict taints
what was released early. -/
def verdictHere (p : Pkg) (d : Fin 4) (x : Instance_) (pass : Bool) (worst : Status) : Pkg :=
  let g := Page.well d
  let q := raise (setReg p g 0x098 x.epoch) g 21
  let q := if !pass && bit x.word 68 then
      record (raise (setReg (setReg q g 0x090 x.epoch) g 0x094 (BitVec.ofNat 32 (2 ^ 31 + x.group))) g 20) (some g) 20
        Status.collectiveTainted 2 true [x.epoch.toNat, x.group]
    else q
  let range := if x.cfmt ∧ worst = Status.doneWsRange then Status.doneWsRange else Status.done
  conclude q d x (fun k => if pass then Status.worst k.worst range else Status.collectiveDiverged)

/-- VERDICT_RECEIVE (R352). -/
def verdictReceive (p : Pkg) (d : Fin 4) : Pkg :=
  match takeInbox p (controlAt d 4) with
  | none => p
  | some (v, q) =>
    let b := v.frame.payload
    let pass := (leField b 2 2).testBit 11
    let st : Status := BitVec.ofNat 16 (leField b 12 2)
    match instAt q d (ctlGroup b) (ctlEpoch b), grpOf q d (ctlGroup b) with
    | some x, some g =>
      if 1 ≤ ctlStage b then spreadVerdict q d x g (ctlStage b) pass st
      else if x.concluded then q else verdictHere q d x pass st
    | _, _ => q

def execVerdictReceive (die : Fin 4) (s : State) : Host.Outcome State Fault Refusal := act s (fun p => verdictReceive p die)

/-- EARLY_RELEASE (R353): with early = 1 a contributor whose last result has been written and checked ends done.early or worse, and its
report goes to the tally. -/
def earlyRelease (p : Pkg) (d : Fin 4) : Pkg :=
  match (wellOf p d).insts.findSome? (fun x =>
    match grpOf p d x.group with
    | none => none
    | some g =>
      if bit x.word 68 then
        x.contribs.findSome? (fun k =>
          if k.final.isNone && !k.gone && x.complete g k.rank && k.computed.isSome then (k.instr p).map (fun i => (x, g, k, i)) else none)
      else none) with
  | none => p
  | some (x, g, k, i) =>
    let q := if k.reported then p else sendReport p d x g k i
    match instAt q d x.group x.epoch with
    | none => q
    | some y => writeWorst (setInst q d (y.upd { k with reported := true, final := some (Status.worst Status.doneEarly k.worst) })) k

def execEarlyRelease (die : Fin 4) (s : State) : Host.Outcome State Fault Refusal := act s (fun p => earlyRelease p die)

/-- TALLY_DEADLINE (R350): no verdict by start + the tally deadline: the instance ends collective.missing and its claim is
released. -/
def tallyDeadline (p : Pkg) (d : Fin 4) : Pkg :=
  (wellOf p d).insts.foldl (fun q x0 =>
    match instAt q d x0.group x0.epoch, grpOf q d x0.group with
    | some x, some g =>
      if !x.concluded && decide (x.start.toNat + g.tally < q.bell.toNat) then
        conclude (raise (bump q (.well d) 0x130 1) (.well d) 18) d { x with claim := 0 } (fun k => Status.worst k.worst Status.collectiveMissing)
      else q
    | _, _ => q) p

def execTallyDeadline (die : Fin 4) (s : State) : Host.Outcome State Fault Refusal := act s (fun p => tallyDeadline p die)

/-- The drain timeout of a WELL page (R354): open instances end failed.disabled and their claims are released. -/
def wellAbort (p : Pkg) (d : Fin 4) : Pkg :=
  (wellOf p d).insts.foldl (fun q x0 =>
    match instAt q d x0.group x0.epoch with
    | some x =>
      let q := (x.outs.filter (fun o => o.ended.isNone)).foldl (fun q o =>
        match instAt q d x0.group x0.epoch with
        | some y => endOut q d y o Status.failedDisabled
        | none => q) q
      match instAt q d x0.group x0.epoch with
      | some y => conclude q d { y with claim := 0 } (fun k => Status.worst k.worst Status.failedDisabled)
      | none => q
    | none => q) p

/-! ## Tables (R336, R355) -/

/-- WELL_TBL_WRITE: the write to TBL_DATA_C commits the entry at TBL_ADDR; taken only while no instance is open on the die. -/
def wellTblWrite (p : Pkg) (d : Fin 4) (c : Word) : Pkg :=
  let g := Page.well d
  let a := getReg p g 0x200
  let v := getReg p g 0x204
  let t := bits a 30 29
  let mask : Word := if t = 0 then (if bits a 0 0 = 0 then 0x8F8003FF#32 else 0x00FFFFFF#32)
    else if t = 1 then (match bits a 1 0 with | 0 => 0xFFFFFC00#32 | 1 => 0x00FFFFFF#32 | 2 => 0x01FFFFFF#32 | _ => 0x00FFFFFF#32)
    else 0xFFFF03FF#32
  if c ≠ ~~~v then raise p g evPairErr
  else if !(wellOf p d).insts.isEmpty then raise p g 24
  else if t = 3 ∨ (t = 0 ∧ (2 ^ 9 ≤ bits a 11 0 ∨ (bits a 0 0 = 0 ∧ bits v 25 23 = 7))) then raiseAll p g [evPairErr, evRsvdWrite]
  else
    let q := setEntry p g t (bits a 11 0) (v &&& mask)
    let q := if v &&& ~~~mask = 0 then q else raise q g evRsvdWrite
    advance q g 0x200 12

def execWellTblWrite (die : Fin 4) (value : Word) (s : State) : Host.Outcome State Fault Refusal := act s (fun p => ifOn p (.well die) (fun p => wellTblWrite p die value))

/-! ## Retirement of engine instructions (R124, R125, R183) -/

/-- The output and accumulator ranges that a failure poisons (R125, R339): of a reduce form rC, never partial; of a combine what it computes,
its accumulator and rC. -/
def poisonRanges (p : Pkg) (i : Inst) (j : Job) : List Rng :=
  match collOf i.word with
  | 0 | 3 | 4 => j.outs ++ j.accs
  | 2 =>
    match contribOf p i, grpOf p i.ctx.core.die (bits i.word 85 78), (wellOf p i.ctx.core.die).insts.find? (fun x => x.contribs.any (fun k => k.inst == i.id)) with
    | some k, some g, some x => resultPlanes x g i k.rank
    | _, _, _ => []
  | 5 => j.outs ++ j.accs ++ (handleOf i.c).planes ((opFmt (bits i.word 35 32)).getD .fp32) (dimM i.d) (dimN i.d)
  | _ => (handleOf i.c).planes ((opFmt (bits i.word 35 32)).getD .fp32) (dimM i.d) (dimN i.d)

/-- The contributor of an instruction leaves its instance. -/
def contribGone (p : Pkg) (i : Inst) : Pkg :=
  let d := i.ctx.core.die
  match (wellOf p d).insts.find? (fun x => x.contribs.any (fun k => k.inst == i.id)) with
  | none => p
  | some x =>
    let y := { x with contribs := x.contribs.map (fun (k : Contrib) => if k.inst = i.id then { k with gone := true } else k) }
    endInstance (setInst p d y) d y

/-- The running instruction of an engine ends with a status: poisoned outputs on failed or collective, the engine idle (R125, R183). -/
def engineEnd (p : Pkg) (core : CoreId) (i : Inst) (r : EngineRun) (st : Status) : Pkg :=
  let q := match jobOf i with
    | some j => if Status.cls st = 3 ∨ Status.cls st = 5 then (poisonRanges p i j).foldl (Rng.poison i.ctx) p else p
    | none => p
  let q := match r.coll with
    | some t => bump q (.core core) 0x440 ((p.count - t) * 6 / 5)
    | none => q
  let q := setEngine q core { engineOf q core with run := none, idleAt := q.count }
  contribGone (retire q i st) i

/-- ENGINE_RETIRE (R124, R125, R183): the running instruction has no pass left; a fused one has its collective status too. -/
def engineRetire (p : Pkg) (core : CoreId) : Pkg :=
  match (engineOf p core).run with
  | none => p
  | some r =>
    match runInst p r with
    | none => p
    | some i =>
      match jobOf i with
      | none => p
      | some j =>
        if collOf i.word = 0 then (if r.finished j then engineEnd p core i r r.status else p)
        else
          match contribOf p i with
          | some k =>
            match k.final with
            | some st => if k.computed.isSome then engineEnd p core i r (Status.worst st r.status) else p
            | none => p
          | none => p

def execEngineRetire (core : CoreId) (s : State) : Host.Outcome State Fault Refusal := act s (fun p => engineRetire p core)

/-! ## Banks held by engine instructions (R123, R150) -/

/-- The ranges of an unretired engine instruction. -/
def heldRanges (p : Pkg) (i : Inst) : List Rng :=
  let own := match jobOf i with | some j => j.ins ++ j.outs ++ j.accs | none => []
  if collOf i.word = 0 then own
  else
    match grpOf p i.ctx.core.die (bits i.word 85 78) with
    | some g => (handleOf i.k).flat 64 :: (own ++ (fusedRanges p i g).1 ++ (fusedRanges p i g).2)
    | none => own

/-- Whether an engine instruction holds a bank. -/
def engineHolds (p : Pkg) (st : StoreId) (b : Nat) : Bool :=
  p.insts.any (fun i => i.unit == .engine && (heldRanges p i).any (fun r =>
    r.store i.ctx == st && (List.range r.rows).any (fun k => (linesOf (r.row p i.ctx k - st.base) r.n).any (fun l => bankOf p st l == b))))

def execBankSleep (store : StoreId) (bank : Fin 64) (s : State) : Host.Outcome State Fault Refusal :=
  act s (fun p => bankSleep engineHolds p store bank.val)

end Sys2Proof.Machine
end

