-- ==== Sys2Proof/Machine/Late.lean ====
section
/-! DEFINITION. Late reports at their injectors (R69, R71): bobbins, core sequencers, ledgers and the chunks of a WELL unit (R349). -/
namespace Sys2Proof.Machine
open Sys2Proof

/-- WELL_CFG.resends. -/
def resendLimit (p : Pkg) (d : Fin 4) : Nat := bits (getReg p (.well d) 0x088) 11 8

/-- The backup port that a stage with swap_on_fail swaps alone before a resend (R349): its standby copy is sealed and no swap is
armed. -/
def swapFor (p : Pkg) (d : Fin 4) (x : Instance_) (o : ChunkOut) : Option (Fin 32) :=
  match grpOf p d x.group with
  | some g =>
    if (g.stg o.key.stage).swapOnFail then
      match portCode (bits (rtEntry p d o.chip) 11 6) with
      | some n => if (portOfPkg p n).sealed (standbyCopy p n) && (router p (dieOfPort n)).armed.isNone then some n else none
      | none => none
    else none
  | none => none

/-- A frame of a chunk has ended failed.link or late.* (R349, R350): the whole chunk is sent again while resends are left and its stage
deadline has not passed; otherwise the chunk ends with that status. -/
def chunkLate (p : Pkg) (d : Fin 4) (x : Instance_) (o : ChunkOut) (st : Status) : Pkg :=
  let g := Page.well d
  if !pairOk p g 0x088 then cmpFail (endOut p d x o st) g
  else if o.resends < resendLimit p d ∧ p.bell.toNat ≤ o.deadline.toNat then
    let q := raise (bump p g 0x128 1) g 22
    match swapFor q d x o with
    | some n =>
      let q := raise (swapArm q (dieOfPort n) ((roundNow q + 2) % 2 ^ 24) (2 ^ portIdx n)) g 23
      let ok := (router q (dieOfPort n)).armed.isSome
      setInst q d (x.updOut { o with sent := 0, closeSent := false, resends := o.resends + 1, after := if ok then roundNow q + 2 else 0 })
    | none => setInst q d (x.updOut { o with sent := 0, closeSent := false, resends := o.resends + 1, after := 0 })
  else endOut p d x o st

/-- The chunk of a sequence that a die has sent and that has not ended. -/
def chunkBySeq (p : Pkg) (d : Fin 4) (s : Word) : Option (Instance_ × ChunkOut) :=
  (wellOf p d).insts.findSome? (fun x => (x.outs.find? (fun o => o.seq == s && o.ended.isNone && o.chip != ownChip p)).map (fun o => (x, o)))

/-- An item ends with the status of a late report at its injector. -/
def takeLate (p : Pkg) (d : Fin 4) (s : Word) (st : Status) : Pkg :=
  match pendingTwin p s with
  | some (e, k, n) => completeUnmirrored p e k n
  | none =>
    match reqBySeq p s with
    | some r => if r.kind = 6 ∧ st = Status.failedLink then resendAtom p r else copyEnded p r st
    | none =>
      match chunkBySeq p d s with
      | some (x, o) => chunkLate p d x o st
      | none => endMoveFrame p s st

/-- LATE_REPORT_RECEIVE: the next late report that has reached an injector's die. One whose complement fails or whose code is
reserved is dropped. -/
def lateReceive (p : Pkg) : Pkg :=
  match takeInbox p (fun x => x.frame.kind == 3 && x.frame.off == 3) with
  | none => p
  | some (v, q) =>
    let b := v.frame.payload
    match (if complOk 32 b then lateStatus (leField b 0 2 / 4096) else none) with
    | some st => takeLate q v.die (BitVec.ofNat 32 (leField b 12 4)) st
    | none => q

def execLateReportReceive (s : State) : Host.Outcome State Fault Refusal := act s lateReceive

end Sys2Proof.Machine
end

