-- ==== Sys2Proof/Machine/Memory.lean ====
section
/-! DEFINITION. Memory stacks and their controllers (R213–R233): the map, line requests, ECC, patrol, refresh, repair and retirement. -/
namespace Sys2Proof.Machine
open Sys2Proof

/-! ## The map (R216) -/

/-- MAP_COMMIT (R216): taken only while no MEMC page is ENABLED or DRAINING; a pw_gib above 64 is discarded. -/
def mapCommit (p : Pkg) (v : Word) : Pkg :=
  let g := Page.memc 0
  if 64 < bits v 6 0 then discardCommit p g
  else if (List.finRange 12).any (fun n => enabled p (.memc n) || stateOf p (.memc n) == .draining) then raise p g 24
  else commitPair p g 0x090 v 0x7F#32

def execMapCommit (value : Word) (s : State) : Host.Outcome State Fault Refusal := act s (fun p => ifOn p (.memc 0) (fun p => mapCommit p value))

/-! ## Spare and relief tables (R225, R227) -/

/-- Index of a spare's entry. -/
def spareIdx (ch b k : Nat) : Nat := ch * 32 + b * 2 + k
def spareEntry (p : Pkg) (n : Fin 12) (ch b k : Nat) : Word := entryVal p (.memc n) 0 (spareIdx ch b k)
/-- An entry that names a device page: valid, channel, bank, row. -/
def pageEntry (ch b r : Nat) : Word := BitVec.ofNat 32 (2 ^ 31 + ch * 2 ^ 23 + b * 2 ^ 19 + r * 2 ^ 5)
/-- Whether an entry names a device page. -/
def namesPage (e : Word) (ch b r : Nat) : Bool := bit e 31 && bits e 27 23 == ch && bits e 22 19 == b && bits e 18 5 == r
/-- Row, channel and bank of relief page n (R227). -/
def reliefPlace (n : Nat) : Nat × Nat × Nat := (n / 16 % 32, n % 16, 16383 - n / 512)
/-- The number of the relief page at a stack offset among the relief rows (R227). -/
def reliefNumber (s : Nat) : Nat := (16383 - rowOf s) * 512 + chanOf s * 16 + dramBankOf s

/-- Relief pages of a stack. -/
def reliefCount (p : Pkg) (n : Fin 12) : Nat := reliefRows p n * 512
/-- The relief page that a device page has been retired to. -/
def reliefOf (p : Pkg) (n : Fin 12) (ch b r : Nat) : Option Nat :=
  (p.rg.tables.find? (fun kv => kv.1.1 == .memc n && kv.1.2.1 == 1 && namesPage kv.2.1 ch b r)).map (fun kv => kv.1.2.2)
/-- The lowest free relief page. -/
def freeRelief (p : Pkg) (n : Fin 12) : Option Nat :=
  (List.range (reliefCount p n)).find? (fun k => !bit (entryVal p (.memc n) 1 k) 31 && !bit (entryVal p (.memc n) 1 k) 30)
/-- Relief pages in use and dead. -/
def reliefTaken (p : Pkg) (n : Fin 12) : Nat :=
  (p.rg.tables.filter (fun kv => kv.1.1 == .memc n && kv.1.2.1 == 1 && kv.1.2.2 < 2048 && (bit kv.2.1 31 || bit kv.2.1 30))).length

/-! ## Errors (R220, R224) -/

def evCe : Nat := 16
def evUe : Nat := 17

/-- ERR_LOG takes an error; an uncorrectable one is not replaced by a correctable one (R233). -/
def errLog (p : Pkg) (n : Fin 12) (s sym source : Nat) (uncorr : Bool) : Pkg :=
  let g := Page.memc n
  if bit (getReg p g 0x0A0) 30 && !uncorr then p
  else
    let v := 2 ^ 31 + (if uncorr then 2 ^ 30 else 0) + chanOf s * 2 ^ 25 + dramBankOf s * 2 ^ 21 + rowOf s * 2 ^ 7 + s / 2048 % 128
    setReg (setReg p g 0x0A0 (BitVec.ofNat 32 v)) g 0x0A4 (BitVec.ofNat 32 (source * 256 + sym % 256))

/-- A row's count of one-symbol corrections rises (R224): each bank tracks four rows; a new one replaces the row with the lowest count,
the lower-numbered entry on a tie. Answers the count. -/
def trackRow (l : List (Nat × Nat)) (row : Nat) : List (Nat × Nat) × Nat :=
  match l.find? (fun e => e.1 == row) with
  | some e => (l.map (fun x => if x.1 = row then (row, x.2 + 1) else x), e.2 + 1)
  | none =>
    if l.length < 4 then (l ++ [(row, 1)], 1)
    else
      let low := l.foldl (fun a x => min a x.2) (l.headD (0, 0)).2
      match l.findIdx? (fun x => x.2 == low) with
      | some i => (setNth l i (row, 1), 1)
      | none => (l, 1)

/-- MEMC_CFG.ce_limit; 0 means 16. -/
def ceLimit (p : Pkg) (n : Fin 12) : Nat := let c := bits (getReg p (.memc n) 0x088) 15 12; if c = 0 then 16 else c

/-- A failing row's next place (R225, R227): the row itself, or the relief page that it has been retired to. -/
def failPlace (p : Pkg) (n : Fin 12) (ch b r : Nat) : Nat × Nat × Nat :=
  match reliefOf p n ch b r with
  | some k => reliefPlace k
  | none => (ch, b, r)

/-- The kind and target of a repair by its bank's state (R225): spare 0, spare 1, a relief page, or none. -/
def repairPlan (p : Pkg) (n : Fin 12) (ch b r : Nat) : Nat × Nat :=
  let w := failPlace p n ch b r
  let s0 := spareEntry p n w.1 w.2.1 0
  let s1 := spareEntry p n w.1 w.2.1 1
  let used (e : Word) : Bool := bit e 31 || bit e 30
  if !used s0 && !used s1 then (1, spareIdx w.1 w.2.1 0)
  else if !used s1 then (2, spareIdx w.1 w.2.1 1)
  else
    match freeRelief p n with
    | some k => (3, k)
    | none => (4, 0xFFF)

/-- A repair copy starts when none runs; else the row waits (R226). A free relief page whose bank has no spare left carries no page to move: it is
marked dead (R225, R227; log entry 47). -/
def startRepair (p : Pkg) (n : Fin 12) (ch b r : Nat) : Pkg :=
  let x := stackOf p n
  let s := stackOffset ch b r 0
  if inRelief p n s && decide (3 ≤ (repairPlan p n ch b r).1) then setEntry p (.memc n) 1 (reliefNumber s) 0x40000000#32
  else if x.copy.isSome then
    (if x.waiting.contains (ch, b, r) then p else setStack p n { x with waiting := x.waiting ++ [(ch, b, r)] })
  else
    let k := repairPlan p n ch b r
    setStack p n { x with copy := some ⟨ch, b, r, k.1, k.2, p.count⟩ }

/-- A row fails (R224, R225, R228): with repair_en it is repaired. MEMC_CFG that fails its check is not used (R42). -/
def rowFails (p : Pkg) (n : Fin 12) (ch b r : Nat) : Pkg :=
  let busy := match (stackOf p n).copy with | some c => c.ch == ch && c.bank == b && c.row == r | none => false
  if !pairOk p (.memc n) 0x088 then memcUsed p n
  else if bit (getReg p (.memc n) 0x088) 0 && !busy then startRepair p n ch b r
  else p

/-- The stack offset under which a line is known: a line of a relief page in use is one of the page that was retired to it (R221, R225, R227). -/
def lineOwner (p : Pkg) (n : Fin 12) (s : Nat) : Nat :=
  let e := entryVal p (.memc n) 1 (reliefNumber s)
  if inRelief p n s && bit e 31 then stackOffset (bits e 27 23) (bits e 22 19) (bits e 18 5) (s / 2048 % 128) else s

/-- What a line read finds and does (R220); the source is 0 external, 1 mill, 2 patrol, 3 repair copy. A line that decodes with its poison mask
and at most one symbol corrected is read as poisoned (R219). Corrections count for the row that holds the line, in its own bank
(R224). -/
def lineFound (p : Pkg) (n : Fin 12) (s source : Nat) (e : LineErr) : Pkg :=
  let g := Page.memc n
  let s := lineOwner p n s
  let a := n.val * 2 ^ 36 + s
  match e with
  | .clean => if poisoned p a then bump p g 0x110 1 else p
  | .one sym =>
    if poisoned p a then bump p g 0x110 1
    else
      let x := stackOf p n
      let w := failPlace p n (chanOf s) (dramBankOf s) (rowOf s)
      let t := trackRow (Map.getD x.tracks (w.1, w.2.1) []) w.2.2
      let q := setStack p n { x with tracks := Map.put x.tracks (w.1, w.2.1) t.1 }
      let q := errLog (raise (bump q g 0x100 1) g evCe) n s sym source false
      if ceLimit p n ≤ t.2 then rowFails q n (chanOf s) (dramBankOf s) (rowOf s) else q
  | .two sym =>
    let q := bump (poisonLine p a) g 0x118 1
    let q := errLog (raise (bump q g 0x108 1) g evUe) n s sym source true
    let q := record q (some g) evUe Status.failedPoison 2 false [s]
    rowFails q n (chanOf s) (dramBankOf s) (rowOf s)

/-! ## Line requests (R218–R220, R231) -/

/-- A line access served: a request answers and is over, a patrol read only looks (R220, R221). Data are a whole line or a part of it. -/
def serveLine (p : Pkg) (n : Fin 12) (h : HeldLine) : Pkg :=
  let g := Page.memc n
  let s := h.off % 2 ^ 36
  let line := s / 64 * 64
  let a := n.val * 2 ^ 36 + s
  if h.patrol then lineFound p n line 2 h.found
  else
    let p := tallyOut p g 1
    match h.data with
    | some bs =>
      let bs := bs.take (64 - s % 64)
      if unrelieved p n s then emit p (.line g Status.refusedOffline [])
      else
        let part := decide (bs.length < 64)
        let q := if part then lineFound p n line (if h.mill then 1 else 0) h.found else p
        let q := bump q g (if h.mill then 0x148 else 0x140) bs.length
        let q := if h.tagged then bump (poisonLine q a) g 0x118 1 else writeClean q a bs
        emit q (.line g Status.done [])
    | none =>
      let q := lineFound p n line (if h.mill then 1 else 0) h.found
      let q := bump q g (if h.mill then 0x148 else 0x138) 64
      let bad := poisoned q a
      emit q (.line g (if bad then Status.donePoisoned else Status.done)
        (if bad then List.replicate 64 0xFF#8 else memBytes q (n.val * 2 ^ 36 + line) 64))

/-- An access joins those that a repair copy holds (R226). -/
def holdLine (p : Pkg) (n : Fin 12) (h : HeldLine) : Pkg :=
  let x := stackOf p n
  setStack p n { x with held := x.held ++ [h], heldAt := some (x.heldAt.getD p.count) }

/-- LINE_REQUEST: one line read, or written in whole or in part, at a stack offset; what the read finds is the operand. One to a row that is
being copied is held until the switch (R226). -/
def lineRequest (p : Pkg) (n : Fin 12) (off : Nat) (data : Option (List Byte)) (tagged mill : Bool) (e : LineErr) : Pkg :=
  let g := Page.memc n
  let s := off % 2 ^ 36
  let h : HeldLine := ⟨off, data, tagged, mill, false, e⟩
  let p := memcUsed (mapChecked p) n
  if !enabled p g || inRelief p n s then emit p (.line g Status.refusedOffline [])
  else if rowHeld p n s then holdLine (tallyIn p g 1) n h
  else serveLine (tallyIn p g 1) n h

def execLineRequest (stack : Fin 12) (off : Nat) (data : Option (List Byte)) (tagged mill : Bool) (found : LineErr) (s : State) :
    Host.Outcome State Fault Refusal :=
  act s (fun p => lineRequest p stack off data tagged mill found)

/-! ## Repair (R226, R227, R229) -/

/-- A spare or relief page that held the failing row is dead (R225). -/
def killOld (p : Pkg) (n : Fin 12) (c : RepairCopy) : Pkg :=
  let g := Page.memc n
  let w := failPlace p n c.ch c.bank c.row
  let on (k : Nat) : Bool := bit (spareEntry p n w.1 w.2.1 k) 31 && bits (spareEntry p n w.1 w.2.1 k) 13 0 == w.2.2
  let q := if on 0 then setEntry p g 0 (spareIdx w.1 w.2.1 0) 0x40000000#32 else p
  let q := if on 1 then setEntry q g 0 (spareIdx w.1 w.2.1 1) 0x40000000#32 else q
  if 3 ≤ c.kind then
    match reliefOf p n c.ch c.bank c.row with
    | some k => setEntry q g 1 k 0x40000000#32
    | none => q
  else q

/-- The redirection switches (R225–R227). -/
def switchRow (p : Pkg) (n : Fin 12) (c : RepairCopy) : Pkg :=
  let g := Page.memc n
  let w := failPlace p n c.ch c.bank c.row
  let q := killOld p n c
  if c.kind ≤ 2 then setEntry q g 0 c.target (BitVec.ofNat 32 (2 ^ 31 + w.2.2))
  else if c.kind = 3 then setEntry q g 1 c.target (pageEntry c.ch c.bank c.row)
  else
    match (List.range 64).find? (fun k => !bit (entryVal q g 2 k) 31) with
    | some k => setEntry q g 2 k (pageEntry c.ch c.bank c.row)
    | none => q

/-- The physical address of line j of a device page. -/
def pageLine (n : Fin 12) (ch b r j : Nat) : Nat := n.val * 2 ^ 36 + stackOffset ch b r j

/-- One entry to the REPAIR_LOG FIFO of 32 (R229). -/
def logRepair (p : Pkg) (n : Fin 12) (c : RepairCopy) (bad : Nat) : Pkg :=
  let x := stackOf p n
  let lo : Word := BitVec.ofNat 32 (2 ^ 31 + c.kind * 2 ^ 28 + c.ch * 2 ^ 23 + c.bank * 2 ^ 19 + c.row * 2 ^ 5)
  let hi : Word := BitVec.ofNat 32 ((if c.kind = 3 then c.target else 0xFFF) * 2 ^ 20 + bad)
  if x.log.length < 32 then setStack p n { x with log := x.log ++ [(lo, hi)] } else raise p (.memc n) 26

/-- Every line of a page retired unrelieved reads tagged (R227). -/
def poisonPage (p : Pkg) (n : Fin 12) (ch b r : Nat) : Pkg := (List.range 128).foldl (fun q j => poisonLine q (pageLine n ch b r j)) p

/-- The accesses that a copy held are served in order of arrival, and HOLD_TICKS gains the ticks since the first of them (R226; log entry
47). -/
def serveHeld (p : Pkg) (n : Fin 12) : Pkg :=
  let x := stackOf p n
  let q := match x.heldAt with | some t => bump p (.memc n) 0x150 (p.count - t) | none => p
  x.held.foldl (fun q h => serveLine q n h) (setStack q n { x with held := [], heldAt := none })

/-- The drain of a controller counts down from the end of its copy (R226). -/
def drainFromNow (p : Pkg) (g : Page) : Pkg :=
  match Map.look p.rg.drains g with
  | some d => { p with rg := { p.rg with drains := Map.put p.rg.drains g { d with start := p.count } } }
  | none => p

/-- The bobbins whose units a copy held go on. -/
def resumeAll (p : Pkg) : Pkg := (p.bobs.map (fun kv => kv.1)).foldl resumeBob p

/-- The next failing row that waits is repaired, while the controller is ENABLED. -/
def nextRepair (p : Pkg) (n : Fin 12) : Pkg :=
  let y := stackOf p n
  match y.waiting with
  | w :: r => if enabled p (.memc n) then startRepair (setStack p n { y with waiting := r }) n w.1 w.2.1 w.2.2 else p
  | [] => p

/-- The count of a row is over once the row has moved (R224). -/
def untrack (p : Pkg) (n : Fin 12) (w : Nat × Nat × Nat) : Pkg :=
  let x := stackOf p n
  match Map.look x.tracks (w.1, w.2.1) with
  | some l => setStack p n { x with tracks := Map.put x.tracks (w.1, w.2.1) (l.filter (fun e => e.1 != w.2.2)) }
  | none => p

/-- REPAIR_COPY_END (R226): every line is read under R220, with what the operand says of it, and whether the read-back passed. After a bad one the
row is repaired again from its original place; else the redirection switches and what was held is served. -/
def repairEnd (p : Pkg) (n : Fin 12) (found : List (Nat × LineErr)) (ok : Bool) : Pkg :=
  let g := Page.memc n
  match (stackOf p n).copy with
  | none => p
  | some c =>
    let q := (List.range 128).foldl (fun q j => lineFound q n (stackOffset c.ch c.bank c.row j) 3 ((Map.look found j).getD .clean)) p
    let w := failPlace q n c.ch c.bank c.row
    let q := setStack q n { stackOf q n with copy := none }
    if !ok && c.kind ≤ 3 then
      let q := setEntry q g (if c.kind = 3 then 1 else 0) c.target 0x40000000#32
      startRepair q n c.ch c.bank c.row
    else
      let q := untrack (switchRow q n c) n w
      let q := if c.kind = 4 then raise (poisonPage q n c.ch c.bank c.row) g 20 else q
      let bad := ((List.range 128).filter (fun j => poisoned q (pageLine n c.ch c.bank c.row j))).length
      let q := logRepair q n c bad
      let q := if c.kind ≤ 2 then raise (bump q g 0x120 1) g 18 else raise (bump q g 0x128 1) g 19
      nextRepair (resumeAll (serveHeld (drainFromNow q g) n)) n

def execRepairCopyEnd (stack : Fin 12) (found : List (Nat × LineErr)) (readBackOk : Bool) (s : State) : Host.Outcome State Fault Refusal :=
  act s (fun p => repairEnd p stack found readBackOk)

/-- REPAIR_LOG as it reads: the oldest entry, or empty. -/
def repairLogView (p : Pkg) (n : Fin 12) : Word × Word := (stackOf p n).log.headD (0, 0xFFF00000#32)

/-- REPAIR_LOG_POP (R229): a read of the hi word answers the entry's and pops it. -/
def repairLogPop (p : Pkg) (ag : Agent) (n : Fin 12) : Pkg :=
  let x := stackOf p n
  let v := match Map.look p.rg.latches (ag, .memc n) with
    | some l => if l.off = 0x0A8 then l.hi else (repairLogView p n).2
    | none => (repairLogView p n).2
  let q := match Map.look p.rg.latches (ag, .memc n) with
    | some l => if l.off = 0x0A8 then { p with rg := { p.rg with latches := Map.drop p.rg.latches (ag, .memc n) } } else p
    | none => p
  setStack (answer q ag v) n { x with log := x.log.drop 1 }

def execRepairLogPop (agent : Agent) (stack : Fin 12) (s : State) : Host.Outcome State Fault Refusal :=
  act s (fun p => regGate p agent (.memc stack) 0x0AC (fun q => repairLogPop q agent stack))

/-! ## Patrol (R221) -/

/-- The stack offset of line k of a channel, in ascending order. -/
def chanLine (ch k : Nat) : Nat := k * 2048 + (ch ^^^ (k * 2048 / 2 ^ 22 % 32)) * 64

/-- PATROL_SCRUB (R221): one line of every channel each scrub_ivl × 256 ticks; what the reads find is the operand. At the end of a pass
the row counts are cleared and scrub_pass is set. -/
def patrolScrub (p : Pkg) (n : Fin 12) (found : List (Fin 32 × LineErr)) : Pkg :=
  let g := Page.memc n
  let x := stackOf p n
  let ivl := bits (getReg p g 0x088) 23 16 * 256
  if enabled p g ∧ !pairOk p g 0x088 then cmpFail p g
  else if ivl ≠ 0 ∧ enabled p g ∧ x.patrolAt + ivl ≤ p.count then
    let q := setStack p n { x with patrolAt := p.count, patrolPos := (x.patrolPos + 1) % 2 ^ 25 }
    let q := bump q g 0x130 32
    let q := (List.finRange 32).foldl (fun q ch =>
      let h : HeldLine := ⟨chanLine ch.val x.patrolPos, none, false, false, true, (Map.look found ch).getD .clean⟩
      if rowHeld q n (lineOwner q n h.off) then holdLine q n h else serveLine q n h) q
    if x.patrolPos + 1 = 2 ^ 25 then raise (setStack q n { stackOf q n with tracks := [] }) g 27 else q
  else p

def execPatrolScrub (stack : Fin 12) (found : List (Fin 32 × LineErr)) (s : State) : Host.Outcome State Fault Refusal :=
  act s (fun p => patrolScrub p stack found)

/-! ## Refresh and temperature (R222, R223) -/

/-- The refresh interval in ticks: that of the step, but 3.9 µs in compatibility mode unless its override is on. -/
def refreshTicks (p : Pkg) (n : Fin 12) : Nat :=
  let x := stackOf p n
  if compatMode p n && !x.override then 3900
  else if x.step = 0 then 3900 else if x.step = 1 then 1950 else 975

/-- The tick at which the next bank is due (R222): the first of an interval when the one before is over, the others spread evenly over it (log
entry 47). -/
def refreshDue (p : Pkg) (n : Fin 12) : Nat :=
  let x := stackOf p n
  x.refreshAt + (if x.nextBank = 0 then refreshTicks p n else x.nextBank * refreshTicks p n / 16)

/-- REFRESH_INTERVAL (R222): the next bank of every channel is refreshed, in bank order, so that every bank is once in each interval. -/
def refreshInterval (p : Pkg) (n : Fin 12) : Pkg :=
  let x := stackOf p n
  if refreshDue p n ≤ p.count then
    setStack p n { x with refreshAt := if x.nextBank = 0 then p.count else x.refreshAt, nextBank := (x.nextBank + 1) % 16 }
  else p

def execRefreshInterval (stack : Fin 12) (s : State) : Host.Outcome State Fault Refusal := act s (fun p => refreshInterval p stack)

/-- The step that a temperature asks for at once (R222). -/
def stepFor (t : Nat) : Nat := if 95 < t then 2 else if 85 < t then 1 else 0
/-- The temperature above which a step holds. -/
def stepThreshold (step : Nat) : Nat := if step = 2 then 95 else 85

/-- A stack temperature sample (R222, R223): the step rises at once and falls one step after 100 samples at least 2 °C below its
threshold; in compatibility mode 90 °C sets the override and 83 °C ends it. -/
def stackSample (p : Pkg) (n : Fin 12) (temps : List Nat) : Pkg :=
  let g := Page.memc n
  let x := stackOf p n
  if x.sampleAt + 10000 ≤ p.count ∨ x.sampleAt = 0 then
    let ts := temps.take 4
    let t := ts.foldl max 0
    let sensor := (ts.findIdx? (· == t)).getD 0
    let q := setReg p g 0x098 (BitVec.ofNat 32 (sensor * 256 + t % 256))
    let cool := decide (1 ≤ x.step) && decide (t + 2 ≤ stepThreshold x.step)
    let below := if cool then x.below + 1 else 0
    let step := if x.step < stepFor t then stepFor t else if 100 ≤ below then x.step - 1 else x.step
    let ov := compatMode p n && (if 90 ≤ t then true else if t ≤ 83 then false else x.override)
    let coolAt := if x.tripped ∧ t ≤ 85 then some (x.coolAt.getD p.count) else none
    let q := setStack q n { x with sampleAt := p.count, temp := t, step := step, coolAt := coolAt, below := if 100 ≤ below then 0 else below, override := ov }
    let q := if step = x.step then q else raise q g 21
    if ov && !x.override then raise q g 22 else q
  else p

def execStackTempSample (stack : Fin 12) (temps : List Nat) (s : State) : Host.Outcome State Fault Refusal :=
  act s (fun p => stackSample p stack temps)

/-- COMPAT_DUTY_STEP (R223): above 85 °C the duty of the die falls by one sixteenth every 100 µs down to 2/16; at 83 °C or below it rises by
one every 1 ms. -/
def compatStep (p : Pkg) (n : Fin 12) : Pkg :=
  let x := stackOf p n
  let d := dieOfStack n
  let duty := Map.getD p.pw.compat d 16
  let set (k : Nat) : Pkg := setStack { p with pw := { p.pw with compat := Map.put p.pw.compat d k } } n { x with compatAt := p.count }
  if !compatMode p n then p
  else if 85 < x.temp ∧ x.compatAt + 100000 ≤ p.count then set (max 2 (duty - 1))
  else if x.temp ≤ 83 ∧ x.compatAt + 1000000 ≤ p.count then set (min 16 (duty + 1))
  else p

def execCompatDutyStep (stack : Fin 12) (s : State) : Host.Outcome State Fault Refusal := act s (fun p => compatStep p stack)

/-! ## Registers (R233) -/

/-- MEMC_STATUS as it reads. -/
def memcStatus (p : Pkg) (n : Fin 12) : Word :=
  let x := stackOf p n
  let free := if reliefTaken p n = 0 ∧ x.sampleAt = 0 ∧ stateOf p (.memc n) = .disabled then 0 else reliefCount p n - reliefTaken p n
  let step := if compatMode p n && !x.override then 0 else x.step
  let retired := (p.rg.tables.filter (fun kv => kv.1.1 == .memc n && (kv.1.2.1 == 1 || kv.1.2.1 == 2) && bit kv.2.1 31)).length
  BitVec.ofNat 32 (step * 2 ^ 30 + (if compatMode p n && decide (compatDuty p (dieOfStack n) < 16) then 2 ^ 29 else 0)
    + (if x.copy.isSome then 2 ^ 28 else 0) + free * 2 ^ 12 + min 4095 retired)

/-- A commit of MEMC_CFG (R233): a change of relief_rows is taken only while the page is DISABLED and every relief page in use stays
covered. -/
def memcCfgCommit (p : Pkg) (n : Fin 12) (v : Word) : Pkg :=
  let g := Page.memc n
  let rows := bits v 27 25
  let covers := p.rg.tables.all (fun kv => !(kv.1.1 == g && kv.1.2.1 == 1 && bit kv.2.1 31) || decide (kv.1.2.2 < rows * 512))
  if 4 < rows then discardCommit p g
  else if rows ≠ reliefRows p n ∧ (stateOf p g ≠ .disabled ∨ !covers) then raise p g 23
  else commitPair p g 0x088 v 0x0FFFF001#32

/-- An entry loaded into a table; a page that it says is retired unrelieved reads tagged from then on (R227). -/
def loadEntry (p : Pkg) (n : Fin 12) (t i : Nat) (v : Word) : Pkg :=
  let q := setEntry p (.memc n) t i v
  if t = 2 ∧ bit v 31 = true then poisonPage q n (bits v 27 23) (bits v 22 19) (bits v 18 5) else q

/-- Caselm records the tables of a stack: remaps in the configuration area, retirements in the bad-page list (R229). -/
def saveRepairs (p : Pkg) (n : Fin 12) : Pkg :=
  let now := (p.rg.tables.filter (fun kv => kv.1.1 == .memc n && decide (kv.1.2.1 ≤ 2))).map (fun kv => (kv.1, kv.2.1))
  { p with boot := { p.boot with tables := p.boot.tables.filter (fun kv => kv.1.1 != .memc n) ++ now } }

/-- During every ENABLING Caselm reloads the tables of a stack from its records (R229). -/
def reloadRepairs (p : Pkg) (n : Fin 12) : Pkg :=
  (p.boot.tables.filter (fun kv => kv.1.1 == .memc n)).foldl (fun q kv => loadEntry q n kv.1.2.1 kv.1.2.2 kv.2) p

/-- The self-check of an ENABLING controller ends: with a pass the tables have been reloaded, before any access (R229). -/
def memcSelfCheck (p : Pkg) (n : Fin 12) (pass : Bool) : Pkg :=
  selfCheckDone (if pass && stateOf p (.memc n) == .enabling then reloadRepairs p n else p) (.memc n) pass

/-- MEMC_TBL_WRITE (R233): the write to TBL_DATA_C commits the entry, only while the page is DISABLED. -/
def memcTblWrite (p : Pkg) (n : Fin 12) (c : Word) : Pkg :=
  let g := Page.memc n
  let a := getReg p g 0x200
  let v := getReg p g 0x204
  let t := bits a 30 29
  let i := bits a 10 0
  let mask : Word := if t = 0 then 0xC0003FFF#32 else 0xCFFFFFE0#32
  if c ≠ ~~~v then raise p g evPairErr
  else if stateOf p g ≠ .disabled then raise p g 25
  else if t = 3 ∨ (t = 0 ∧ 1024 ≤ i) ∨ (t = 2 ∧ (64 ≤ i ∨ bit v 30)) then discardCommit p g
  else
    let q := loadEntry p n t i (v &&& mask)
    advance (if v &&& ~~~mask = 0 then q else raise q g evRsvdWrite) g 0x200 11

def execMemcTblWrite (stack : Fin 12) (value : Word) (s : State) : Host.Outcome State Fault Refusal :=
  act s (fun p => ifOn p (.memc stack) (fun p => memcTblWrite p stack value))

end Sys2Proof.Machine
end

