-- ==== Sys2Proof/Machine/Vector.lean ====
section
/-! DEFINITION. The vector unit (R135, R187–R189): vector instructions, vmerge, mov and fill. -/
namespace Sys2Proof.Machine
open Sys2Proof

/-! ## The vector unit's queue (R133, R169) -/

/-- Whether the vector unit of a core runs nothing: no vector instruction has started there and not retired. -/
def vecFree (p : Pkg) (k : CoreId) : Bool := !p.insts.any (fun i => i.ctx.core == k && i.unit == .vector && i.started)

/-- An issued instruction of the vector unit runs where the unit is free, and otherwise stays in its queue. -/
def onVector (run : Pkg → Inst → Pkg) (q : Pkg) (i : Inst) : Pkg := if vecFree q i.ctx.core then run q i else q

/-- A vector operand: a register or rows of 512 bytes in a store (R187). -/
inductive VOperand where
  | reg (n : Nat)
  | mem (r : Rng)
  deriving DecidableEq, Repr

/-- The lane format of fmt; none where vector instructions do not accept it. -/
def laneFmt (code : Nat) : Option Fmt := if code = 9 then some fp32 else if code = 8 then some bf16 else none
/-- Bytes of a lane. -/
def Fmt.bytes (f : Fmt) : Nat := f.width / 8
/-- Lanes of a row. -/
def Fmt.lanes (f : Fmt) : Nat := 512 / f.bytes

/-- The lanes of 512 bytes. -/
def lanesOf (f : Fmt) (bs : List Byte) : List Num :=
  (List.range f.lanes).map (fun k => f.decode (leField bs (k * f.bytes) f.bytes))
/-- The bytes of lanes. -/
def lanesBytes (f : Fmt) (xs : List Num) : List Byte := xs.flatMap (fun x => leBytes f.bytes (f.encode false x))

/-- Rows processed (R187). -/
def repOf (i : Inst) : Nat := bits i.word 75 64

/-- An operand of a slot: where vsel says so a vector register, else rep rows at a handle. -/
def operandOf (i : Inst) (vselBit slot : Nat) (v : DWord) : VOperand :=
  if bit i.word (32 + vselBit) then .reg slot
  else .mem ⟨(handleOf v).pair, (handleOf v).eplane * 64, repOf i, 512, 512⟩

/-- Whether a slot's handle is one that uses only space and eplane (R165). -/
def operandPlain (i : Inst) (vselBit : Nat) (v : DWord) : Bool := bit i.word (32 + vselBit) || (handleOf v).plain

/-- The 512 bytes of a row of an operand. -/
def VOperand.row (p : Pkg) (c : CtxId) (k : Nat) : VOperand → List Byte
  | .reg n => leBytes 512 (vreg (ctxOf p c) n).toNat
  | .mem r => r.read p c k
/-- Its store range, if it has one. -/
def VOperand.rng : VOperand → List Rng
  | .reg _ => []
  | .mem r => [r]

/-- Bytes written at a byte position of a vector register; the rest of the register stays. -/
def writeVreg (x : Ctx) (n pos : Nat) (bs : List Byte) : Ctx :=
  let old := leBytes 512 (vreg x n).toNat
  setVreg x n (BitVec.ofNat 4096 (leNat (old.take pos ++ bs ++ old.drop (pos + bs.length))))

/-- One row's result written to a destination. -/
def VOperand.write (p : Pkg) (c : CtxId) (k pos : Nat) (bs : List Byte) : VOperand → Pkg
  | .reg n => setCtx p c (writeVreg (ctxOf p c) n pos bs)
  | .mem r => r.write p c k bs false

/-- The counts of a vector instruction refused by a range check (R33, R152). -/
def countVec (p : Pkg) (c : CtxId) (rs : List Rng) (st : Status) : Pkg :=
  if st = Status.refusedAsleep then
    match rs.find? (Rng.asleep p c) with
    | some r => countAsleep (clstAccess p (r.store c)) (r.store c)
    | none => p
  else countRange p c st

/-- A vector instruction's common course (R98, R187): the range checks, the poison of its sources, its rows in order, and its
end. The destination's planes are the outputs; a poisoned source leaves them poisoned. -/
def runRows (q : Pkg) (i : Inst) (rows cyc : Nat) (ins outs : List Rng) (row : Pkg → Nat → Pkg) (ok : Status) : Pkg :=
  let c := i.ctx
  let st := rangeCheck q c ins outs false
  if st ≠ Status.done then endNow (countVec q c (ins ++ outs) st) i st
  else
    let bad := ins.any (Rng.anyBad q c)
    let g := Page.core c.core
    let q := bump (bump (admitRanges q c (ins ++ outs)) g 0x548 1) g 0x550 (rows * cyc)
    let q := (List.range rows).foldl row q
    if bad then endNow (outs.foldl (Rng.poison c) q) i Status.failedPoison else endNow q i ok

/-- The refusals of R187 that need no range: format, rep, the handles of the sources used and of the destination. -/
def vecFormOk (i : Inst) (reduce : Nat) : Bool :=
  let u := vecUses (opOf i.word)
  (laneFmt (bits i.word 27 24)).isSome && decide (1 ≤ repOf i)
    && (!bit i.word 32 || repOf i == 1 || decide (repOf i ≤ reduce))
    && (opOf i.word == 0x6E || operandPlain i 1 i.a) && (!u.2.1 || operandPlain i 2 i.b) && (!u.2.2 || operandPlain i 3 i.x)

/-- The lane operations 0x60–0x68. -/
def laneOp (f : Fmt) (op : Nat) (a b c : Num) : Num :=
  match op with
  | 0x60 => roundTo f (a.add b)
  | 0x61 => roundTo f (a.add b.neg)
  | 0x62 => roundTo f (a.mul b)
  | 0x63 => roundTo f (Num.fma a b c)
  | 0x64 => a.min b
  | 0x65 => a.max b
  | 0x66 => rcp f a
  | 0x67 => rsqrt f a
  | _ => expN f a

/-- The sources that an opcode uses, as operands a, b, c. -/
def vecSources (i : Inst) : List VOperand :=
  let u := vecUses (opOf i.word)
  [operandOf i 1 (slotA i.word) i.a] ++ (if u.2.1 then [operandOf i 2 (slotB i.word) i.b] else [])
    ++ (if u.2.2 then [operandOf i 3 (slotX i.word) i.x] else [])

/-- The element-wise vector instructions: each lane of each row (R93, R94). -/
def runLanes (q : Pkg) (i : Inst) : Pkg :=
  match laneFmt (bits i.word 27 24) with
  | none => retireNow q i Status.failedFormat id
  | some f =>
    if !vecFormOk i 0 || !operandPlain i 0 i.c then retireNow q i Status.failedFormat id
    else
      let src := vecSources i
      let dst := operandOf i 0 (slotC i.word) i.c
      let op := opOf i.word
      let zero := List.replicate f.lanes (Num.fin false 0 0)
      let row (p : Pkg) (k : Nat) : Pkg :=
        let xs := src.map (fun o => lanesOf f (o.row p i.ctx k))
        let a := nth xs 0 zero
        let b := nth xs 1 zero
        let c := nth xs 2 zero
        dst.write p i.ctx k 0 (lanesBytes f ((List.range f.lanes).map (fun l =>
          laneOp f op (nth a l .nan) (nth b l .nan) (nth c l .nan))))
      runRows q i (repOf i) (if 0x66 ≤ op then 4 else 1) (src.flatMap VOperand.rng) dst.rng row Status.done

def execVadd (c : CtxId) (s : State) : Host.Outcome State Fault Refusal := act s (fun p => runRow (opRow 0x60) (onVector runLanes) p c)
def execVsub (c : CtxId) (s : State) : Host.Outcome State Fault Refusal := act s (fun p => runRow (opRow 0x61) (onVector runLanes) p c)
def execVmul (c : CtxId) (s : State) : Host.Outcome State Fault Refusal := act s (fun p => runRow (opRow 0x62) (onVector runLanes) p c)
def execVfma (c : CtxId) (s : State) : Host.Outcome State Fault Refusal := act s (fun p => runRow (opRow 0x63) (onVector runLanes) p c)
def execVmin (c : CtxId) (s : State) : Host.Outcome State Fault Refusal := act s (fun p => runRow (opRow 0x64) (onVector runLanes) p c)
def execVmax (c : CtxId) (s : State) : Host.Outcome State Fault Refusal := act s (fun p => runRow (opRow 0x65) (onVector runLanes) p c)
def execVrcp (c : CtxId) (s : State) : Host.Outcome State Fault Refusal := act s (fun p => runRow (opRow 0x66) (onVector runLanes) p c)
def execVrsqrt (c : CtxId) (s : State) : Host.Outcome State Fault Refusal := act s (fun p => runRow (opRow 0x67) (onVector runLanes) p c)
def execVexp (c : CtxId) (s : State) : Host.Outcome State Fault Refusal := act s (fun p => runRow (opRow 0x68) (onVector runLanes) p c)

/-- The index of the greatest lane, or of the first NaN lane (R187). -/
def argMax (xs : List Num) : Nat :=
  match xs.findIdx? (· == .nan) with
  | some k => k
  | none => ((List.range xs.length).foldl (fun best k => if (nth xs k .nan).le (nth xs best .nan) then best else k) 0)

/-- One row's reduced value, as its bytes (R95, R187). -/
def reduceRow (f : Fmt) (op : Nat) (xs : List Num) : List Byte :=
  let levels := if f.lanes = 256 then 8 else 7
  match op with
  | 0x69 => leBytes f.bytes (f.encode false (treeFold (fun a b => roundTo f (a.add b)) levels xs))
  | 0x6A => leBytes f.bytes (f.encode false (treeFold Num.max levels xs))
  | 0x6B => leBytes f.bytes (f.encode false (treeFold Num.min levels xs))
  | _ => leBytes 4 (argMax xs)

/-- vsum, vrmax, vrmin, vargmax: result i at element i of the destination. -/
def runReduce (q : Pkg) (i : Inst) : Pkg :=
  match laneFmt (bits i.word 27 24) with
  | none => retireNow q i Status.failedFormat id
  | some f =>
    let op := opOf i.word
    let e := if op = 0x6C then 4 else f.bytes
    if !vecFormOk i (512 / e) || !operandPlain i 0 i.c then retireNow q i Status.failedFormat id
    else
      let src := operandOf i 1 (slotA i.word) i.a
      let h := handleOf i.c
      let dst : VOperand := if bit i.word 32 then .reg (slotC i.word) else .mem ⟨h.pair, h.eplane * 64, repOf i, e, e⟩
      let out : List Rng := if bit i.word 32 then [] else [h.flat (repOf i * e)]
      let row (p : Pkg) (k : Nat) : Pkg := dst.write p i.ctx k (k * e) (reduceRow f op (lanesOf f (src.row p i.ctx k)))
      runRows q i (repOf i) 1 src.rng out row Status.done

def execVsum (c : CtxId) (s : State) : Host.Outcome State Fault Refusal := act s (fun p => runRow (opRow 0x69) (onVector runReduce) p c)
def execVrmax (c : CtxId) (s : State) : Host.Outcome State Fault Refusal := act s (fun p => runRow (opRow 0x6A) (onVector runReduce) p c)
def execVrmin (c : CtxId) (s : State) : Host.Outcome State Fault Refusal := act s (fun p => runRow (opRow 0x6B) (onVector runReduce) p c)
def execVargmax (c : CtxId) (s : State) : Host.Outcome State Fault Refusal := act s (fun p => runRow (opRow 0x6C) (onVector runReduce) p c)

/-- vcvt (R96, R97, R187): rows of the destination advance 512 bytes, or as many as the converted row takes when that is more; a
scale plane has one line per row (log entry 18). -/
def runVcvt (q : Pkg) (i : Inst) : Pkg :=
  match laneFmt (bits i.word 27 24), opFmt (bits i.word 31 28) with
  | some f, some d =>
    let h := handleOf i.c
    let n := rowBytes d f.lanes
    let step := if 512 < n then n else 512
    let reg := bit i.word 32
    let handleOk := reg || (h.clean && h.epitch == 0 && h.spitch == 0 && (d.isMx || h.splane == 0))
    if !vecFormOk i 0 || !handleOk || (reg && (d.isMx || decide (512 < n))) then retireNow q i Status.failedFormat id
    else
      let src := operandOf i 1 (slotA i.word) i.a
      let el : Rng := ⟨h.pair, h.eplane * 64, repOf i, n, step⟩
      let sc : Rng := ⟨h.pair, h.splane * 64, repOf i, blocksOf f.lanes, 64⟩
      let outs : List Rng := if reg then [] else if d.isMx then [el, sc] else [el]
      let row (p : Pkg) (k : Nat) : Pkg :=
        let r := convertRow d (bit i.word 36) (lanesOf f (src.row p i.ctx k))
        if reg then setCtx p i.ctx (writeVreg (ctxOf p i.ctx) (slotC i.word) 0 r.2)
        else
          let p := el.write p i.ctx k r.2 false
          if d.isMx then sc.write p i.ctx k r.1 false else p
      runRows q i (repOf i) 1 src.rng outs row Status.done
  | _, _ => retireNow q i Status.failedFormat id

def execVcvt (c : CtxId) (s : State) : Host.Outcome State Fault Refusal := act s (fun p => runRow (opRow 0x6D) (onVector runVcvt) p c)

/-- vbcast: the low bits of s[rA] in every lane; vsel bit 1 is zero. -/
def runVbcast (q : Pkg) (i : Inst) : Pkg :=
  match laneFmt (bits i.word 27 24) with
  | none => retireNow q i Status.failedFormat id
  | some f =>
    if !vecFormOk i 0 || !operandPlain i 0 i.c || bit i.word 33 then retireNow q i Status.failedFormat id
    else
      let dst := operandOf i 0 (slotC i.word) i.c
      let bs := (List.replicate f.lanes (leBytes f.bytes i.a.toNat)).flatten
      runRows q i (repOf i) 1 [] dst.rng (fun p k => dst.write p i.ctx k 0 bs) Status.done

def execVbcast (c : CtxId) (s : State) : Host.Outcome State Fault Refusal := act s (fun p => runRow (opRow 0x6E) (onVector runVbcast) p c)

/-- A partial record (R188): outputs, running maximum, running sum; none where l = +0, which is skipped. -/
def partialOf (bs : List Byte) : Option (List Num × Num × Num) :=
  if leField bs 516 4 = 0 then none
  else some (lanesOf fp32 (bs.take 512), ofF32 (leField bs 512 4), ofF32 (leField bs 516 4))

/-- One step of the merge of R188. -/
def mergeStep (s r : List Num × Num × Num) : List Num × Num × Num :=
  let mn := s.2.1.max r.2.1
  let a := expN fp32 (round32 (s.2.1.add mn.neg))
  let b := expN fp32 (round32 (r.2.1.add mn.neg))
  let mix (x y : Num) : Num := round32 (Num.fma x a (round32 (y.mul b)))
  ((List.range 128).map (fun k => mix (nth s.1 k .nan) (nth r.1 k .nan)), mn, mix s.2.2 r.2.2)

/-- The records merged in ascending order. -/
def mergeAll (l : List (List Num × Num × Num)) : Option (List Num × Num × Num) :=
  match l with
  | [] => none
  | r :: rs => some (rs.foldl mergeStep r)

/-- vmerge (R188). -/
def runVmerge (q : Pkg) (i : Inst) : Pkg :=
  let dfmt := bits i.word 31 28
  let h := handleOf i.a
  let hc := handleOf i.c
  let reg := bit i.word 32
  match lenOf i.d, laneFmt dfmt with
  | some k, some d =>
    if bits i.word 27 24 ≠ 9 ∨ repOf i = 0 ∨ (reg ∧ repOf i ≠ 1) ∨ bit i.word 33 ∨ !h.plain ∨ (!reg && !hc.plain) then retireNow q i Status.failedFormat id
    else
      let src : Rng := ⟨h.pair, h.eplane * 64, k, 520, 576⟩
      let out : Rng := hc.flat (128 * d.bytes)
      if rangeCheck q i.ctx [src] (if reg then [] else [out]) false = Status.done then
        let m := mergeAll ((List.range k).filterMap (fun r => partialOf (src.read q i.ctx r)))
        let o := match m with
          | none => List.replicate 128 (Num.fin false 0 0)
          | some x => if bit i.word 37 then x.1.map (fun v => round32 (v.mul (rcp fp32 x.2.2))) else x.1
        let bs := lanesBytes d o
        runRows q i 1 1 [src] (if reg then [] else [out])
          (fun p _ => if reg then setCtx p i.ctx (writeVreg (ctxOf p i.ctx) (slotC i.word) 0 bs) else out.write p i.ctx 0 bs false)
          (if m.isNone then Status.doneEmpty else Status.done)
      else runRows q i 0 1 [src] (if reg then [] else [out]) (fun p _ => p) Status.done
  | _, _ => retireNow q i Status.failedFormat id

def execVmerge (c : CtxId) (s : State) : Host.Outcome State Fault Refusal := act s (fun p => runRow (opRow 0x6F) (onVector runVmerge) p c)

/-! ## mov and fill (R189) -/

/-- The rows that a handle and dimension register describe. -/
def movRng (h : Handle) (d : DWord) : Rng := ⟨h.pair, h.eplane * 64, dimM d, dimN d, h.epitch * 64⟩

/-- Rows of whole lines that fit their pitch, and a handle of space, eplane and epitch alone (R165, R166). -/
def movFormOk (h : Handle) (d : DWord) : Bool :=
  h.clean && h.spitch == 0 && h.splane == 0 && dimM d != 0 && dimN d != 0 && dimN d % 64 == 0
    && decide (dimN d ≤ h.epitch * 64)

/-- A refused move: counted, and ended. -/
def movRefuse (q : Pkg) (i : Inst) (rs : List Rng) (st : Status) : Pkg := endNow (countVec q i.ctx rs st) i st

def runMov (q : Pkg) (i : Inst) : Pkg :=
  let a := movRng (handleOf i.a) i.d
  let c := movRng (handleOf i.c) i.d
  if !movFormOk (handleOf i.a) i.d || !movFormOk (handleOf i.c) i.d then retireNow q i Status.failedFormat id
  else
    let st := rangeCheck q i.ctx [a] [c] true
    if st ≠ Status.done then movRefuse q i [a, c] st
    else
      let q := bump (bump (admitRanges q i.ctx [a, c]) (.core i.ctx.core) 0x548 1) (.core i.ctx.core) 0x550 ((a.rows * a.n + 511) / 512)
      let q := (List.range a.rows).foldl (fun p k =>
        writeLocal p (c.row p i.ctx k) (a.read p i.ctx k) (copyTag p (a.row p i.ctx k) (c.row p i.ctx k))) q
      endNow q i Status.done

def execMov (c : CtxId) (s : State) : Host.Outcome State Fault Refusal := act s (fun p => runRow (opRow 0x80) (onVector runMov) p c)

def runFill (q : Pkg) (i : Inst) : Pkg :=
  let c := movRng (handleOf i.c) i.d
  if !movFormOk (handleOf i.c) i.d then retireNow q i Status.failedFormat id
  else
    let st := rangeCheck q i.ctx [] [c] false
    if st ≠ Status.done then movRefuse q i [c] st
    else
      let bs := (List.replicate (c.n / 8) (leBytes 8 i.b.toNat)).flatten
      let q := bump (bump (admitRanges q i.ctx [c]) (.core i.ctx.core) 0x548 1) (.core i.ctx.core) 0x550 ((c.rows * c.n + 511) / 512)
      endNow ((List.range c.rows).foldl (fun p k => c.write p i.ctx k bs false) q) i Status.done

def execFill (c : CtxId) (s : State) : Host.Outcome State Fault Refusal := act s (fun p => runRow (opRow 0x81) (onVector runFill) p c)

/-! ## The next instruction of the vector unit, and retirement (R133, R171–R173) -/

/-- A queued instruction of the vector unit runs. -/
def runVector (q : Pkg) (i : Inst) : Pkg :=
  let op := opOf i.word
  if op ≤ 0x68 then runLanes q i
  else if op ≤ 0x6C then runReduce q i
  else if op = 0x6D then runVcvt q i
  else if op = 0x6E then runVbcast q i
  else if op = 0x6F then runVmerge q i
  else if op = 0x80 then runMov q i
  else runFill q i

/-- The oldest instruction of a context that waits for the vector unit. -/
def vecHead (p : Pkg) (c : CtxId) : Option Inst := p.insts.find? (fun i => i.ctx == c && i.unit == .vector && !i.started && i.ended.isNone)

/-- The next instruction of the vector unit: contexts in rotation from the one after the context last served (R133). -/
def vecNext (p : Pkg) (k : CoreId) (last : Nat) : Option Inst :=
  (List.range 4).findSome? (fun j => vecHead p ⟨k, ⟨(last + 1 + j) % 4, Nat.mod_lt _ (by decide)⟩⟩)

/-- The vector unit takes up its queue until an instruction runs; one that fails its format ends at once and the next one follows. -/
def vecServe (k : CoreId) : Nat → Nat → Pkg → Pkg
  | 0, _, p => p
  | n + 1, last, p =>
    if vecFree p k then
      match vecNext p k last with
      | some i => vecServe k n i.ctx.ctx.val (runVector p i)
      | none => p
    else p

/-- INSTR_RETIRE (R171–R173): the k-th unretired instruction of a context, once it has ended; the vector unit that it frees takes the
next one of its queue. -/
def instrRetire (p : Pkg) (c : CtxId) (k : Nat) : Pkg :=
  match (instsOf p c)[k]? with
  | some i =>
    match i.ended with
    | some st => if i.unit = .vector then vecServe c.core 8 c.ctx.val (retire p i st) else retire p i st
    | none => p
  | none => p

def execInstrRetire (c : CtxId) (k : Nat) (s : State) : Host.Outcome State Fault Refusal := act s (fun p => instrRetire p c k)

end Sys2Proof.Machine
end

