-- ==== Sys2Proof/Machine/Mills.lean ====
section
/-! DEFINITION. Mills (R191, R234–R250): the mill instruction, a mill's queue, attention over the pages of its stack, the self-test, and
the records that go back to the issuing store. -/
namespace Sys2Proof.Machine
open Sys2Proof

def evCmdFailed : Nat := 16
def evResidue : Nat := 17
def evMillBist : Nat := 18
def evListBad : Nat := 19

/-! ## The command block (R236, R237) -/

/-- Whether 64 bytes hold the ones' complement of their first half in their second. -/
def halfComplement (bs : List Byte) : Bool := bs.length == 64 && bs.drop 32 == (bs.take 32).map (fun b => ~~~b)

def blkCmd (b : List Byte) : Nat := leField b 0 1 % 16
def blkFlags (b : List Byte) : Nat := leField b 1 1
def blkPmode (b : List Byte) : Bool := (blkFlags b).testBit 3
def blkCausal (b : List Byte) : Bool := (blkFlags b).testBit 4
/-- Query rows of an attend. -/
def blkRows (b : List Byte) : Nat := leField b 2 1 % 16 + 1
def blkTag (b : List Byte) : Nat := leField b 4 4
/-- Stack offset of the page list's head line. -/
def blkList (b : List Byte) : Nat := leField b 8 4 % 2 ^ 30 * 64
def blkScale (b : List Byte) : Num := ofF32 (leField b 12 4)
def blkVscale (b : List Byte) : Num := ofF32 (leField b 16 4)
/-- Position of query row i (R236). -/
def blkPos (b : List Byte) (i : Nat) : Nat := leField b 20 4 + i / (leField b 2 1 / 16 + 1)
/-- FP8 E4M3 or E5M2. -/
def fp8Of (e5 : Bool) : Fmt := if e5 then e5m2 else e4m3

/-- Whether an FP32 factor is finite and not zero. -/
def factorOk (x : Num) : Bool := match x with | .fin _ m _ => m != 0 | _ => false

/-- The checks of a command block (R236, R237). -/
def blkOk (b : List Byte) : Bool :=
  halfComplement b && leField b 0 1 / 16 == 0 && leField b 3 1 == 0 &&
  (if blkCmd b = 1 then
    decide (blkFlags b < 32) && leField b 8 4 / 2 ^ 30 == 0 && factorOk (blkScale b) && factorOk (blkVscale b) && leField b 24 8 == 0
  else
    blkCmd b == 2 && blkFlags b % 32 == 0 && decide (blkFlags b < 64) && leField b 2 1 == 0 && leField b 4 28 == 0)

/-- Bytes of one record. -/
def recordBytes (b : List Byte) : Nat := if blkCmd b = 1 then 576 else 64
/-- Records that one mill returns. -/
def recordRows (b : List Byte) : Nat := if blkCmd b = 1 then blkRows b else 1

/-! ## The instruction (R191, R237) -/

/-- The mills that the two masks select, in ascending stack and mill order. -/
def selectedMills (w : BitVec 128) : List MillId :=
  (List.finRange 12).flatMap (fun s => if bit w (64 + s.val) then
    (List.finRange 8).filterMap (fun m => if bit w (76 + m.val) then some ⟨s, m⟩ else none) else [])

/-- The command of each selected mill. -/
def millCmds (i : Inst) (blk rows : List Byte) (dest : Nat) : List (MillId × MillCmd) :=
  let l := selectedMills i.word
  l.mapIdx (fun j m =>
    let same := l.filter (fun x => x.stack == m.stack)
    (m, { inst := i.id, ctx := i.ctx, blk := blk, rows := rows, n := same.length, r := (same.filter (fun x => decide (x.mill.val < m.mill.val))).length
          nsel := l.length, j := j, dest := dest }))

/-- The mill command path (R191, R237): the block is checked before anything is sent; then the block, the rows and the region are
checked under R123, and each selected mill is sent its command. Poisoned rows poison the region (R98); a poisoned block ends the instruction
before its complement is looked at, with no region known to write (log entry 38). -/
def runMill (q : Pkg) (i : Inst) : Pkg :=
  let ha := handleOf i.a
  let hc := handleOf i.c
  let block := ha.flat 64
  if !ha.plain || !hc.plain || (selectedMills i.word).isEmpty then retire q i Status.failedFormat
  else
    let st := rangeCheck q i.ctx [block] [] false
    if st ≠ Status.done then retire (countVec q i.ctx [block] st) i st
    else
      let b := block.read q i.ctx 0
      if block.bad q i.ctx 0 then retire q i Status.failedPoison
      else if !blkOk b then retire q i Status.failedFormat
      else
        let rows : Rng := ⟨ha.pair, ha.eplane * 64 + 64, if blkCmd b = 1 then 1 else 0, 128 * blkRows b, 128 * blkRows b⟩
        let region := hc.flat (recordRows b * (selectedMills i.word).length * recordBytes b)
        let st := rangeCheck q i.ctx [block, rows] [region] true
        if st ≠ Status.done then retire (countVec q i.ctx [block, rows, region] st) i st
        else if rows.anyBad q i.ctx then retire (Rng.poison i.ctx q region) i Status.failedPoison
        else
          (millCmds i b (if blkCmd b = 1 then rows.read q i.ctx 0 else []) (region.at_ q i.ctx)).foldl
            (fun (p : Pkg) mc => setMill p mc.1 { millOf p mc.1 with path := (millOf p mc.1).path ++ [mc.2] })
            (admitRanges q i.ctx [block, rows, region])

def execMill (c : CtxId) (s : State) : Host.Outcome State Fault Refusal := act s (fun p => runRow (opRow 0x90) runMill p c)

/-! ## Shares of an instruction -/

/-- Whether a mill still holds a command of an instruction. -/
def Mill.holds (x : Mill) (id : Nat) : Bool :=
  (x.path ++ x.queue).any (fun c => c.inst == id) || (match x.run with | some r => r.cmd.inst == id | none => false)

/-- One selected mill's share of the status; with the last one the instruction ends with the worst (R191). -/
def endShare (p : Pkg) (id : Nat) (st : Status) : Pkg :=
  let q := updInst p id (fun (n : Inst) => { n with worst := Status.worst n.worst st })
  if q.mills.any (fun kv => kv.2.holds id) then q
  else
    match q.insts.find? (fun n => n.id == id) with
    | some n => endInst q id n.worst
    | none => q

/-- An instruction whose commands have all left the path has started (R169). -/
def markStarted (p : Pkg) (id : Nat) : Pkg :=
  if p.mills.any (fun kv => kv.2.path.any (fun c => c.inst == id)) then p else updInst p id (fun (n : Inst) => { n with started := true })

/-- MILL_COMMAND_ARRIVE (R244, R247): the oldest command that a core has sent to a mill reaches its queue; a full queue leaves it in
the core's path; a mill that is not ENABLED refuses it and writes no record. -/
def millArrive (p : Pkg) (m : MillId) (core : CoreId) : Pkg :=
  let x := millOf p m
  match x.path.find? (fun c => c.ctx.core == core) with
  | none => p
  | some c =>
    let rest := x.path.erase c
    if !enabled p (.mill m) || !enabled p (.memc m.stack) then
      endShare (markStarted (setMill p m { x with path := rest }) c.inst) c.inst Status.refusedOffline
    else if 32 ≤ x.queue.length then p
    else markStarted (tallyIn (setMill p m { x with path := rest, queue := x.queue ++ [c] }) (.mill m) 1) c.inst

def execMillCommandArrive (mill : MillId) (core : CoreId) (s : State) : Host.Outcome State Fault Refusal :=
  act s (fun p => millArrive p mill core)

/-! ## Line reads (R234, R239, R247) -/

/-- A mill reads one line of its stack: failed.disabled once the controller has left ENABLED, refused.offline for a line that it
refuses, failed.poison for a poisoned or uncorrectable one. -/
def millLine (p : Pkg) (n : Fin 12) (s : Nat) (e : LineErr) : Pkg × Status :=
  if !enabled p (.memc n) then (p, Status.failedDisabled)
  else if 2 ^ 36 < s + 64 || inRelief p n s then (p, Status.refusedOffline)
  else
    let q := bump (lineFound (tallyOut (tallyIn p (.memc n) 1) (.memc n) 1) n s 1 e) (.memc n) 0x148 64
    (q, if poisoned q (n.val * 2 ^ 36 + s) then Status.failedPoison else Status.done)

/-- Several lines in order; the first that fails decides. -/
def millLines (p : Pkg) (n : Fin 12) (found : Map Nat LineErr) : List (Nat × Nat) → Pkg × Status
  | [] => (p, Status.done)
  | (k, s) :: r =>
    let x := millLine p n s ((Map.look found k).getD .clean)
    if x.2 ≠ Status.done then x else millLines x.1 n found r

/-- n bytes at a stack offset. -/
def stackBytes (p : Pkg) (n : Fin 12) (s len : Nat) : List Byte := memBytes p (n.val * 2 ^ 36 + s) len

/-! ## The arithmetic (R241) -/

/-- The exact sum of numbers. -/
def exactSum (xs : List Num) : Num :=
  if xs.any (· == .nan) then .nan
  else if xs.any (· == .inf false) then (if xs.any (· == .inf true) then .nan else .inf false)
  else if xs.any (· == .inf true) then .inf true
  else ofDy (dySum (xs.map Num.dy))

/-- The exact dot product. -/
def exactDot (xs ys : List Num) : Num := exactSum (List.zipWith Num.mul xs ys)

/-- The FP8 elements of bytes. -/
def fp8Row (f : Fmt) (bs : List Byte) : List Num := bs.map (fun b => f.decode b.toNat)

/-- The row before its first entry. -/
def MillRow.fresh : MillRow := ⟨toF32 (.inf true), 0, List.replicate 128 0, 0⟩

/-- One page of one query row at position qpos: the tokens of the entry, its position, its keys and values. -/
def millPage (b : List Byte) (q : List Num) (qpos tokens pos : Nat) (keys vals : List (List Num)) (x : MillRow) : MillRow :=
  let live := (List.range 16).filter (fun t => decide (t < tokens) && !(blkCausal b && decide (qpos < pos + t)))
  if live.isEmpty then x
  else
    let s := live.map (fun t => round32 ((blkScale b).mul (exactDot q (nth keys t []))))
    let mn := s.foldl Num.max (ofF32 x.m)
    let ex (v : Num) : Num := expN fp32 (round32 (v.add mn.neg))
    let a := ex (ofF32 x.m)
    let p := s.map ex
    let p := if blkPmode b then p else p.map (roundTo e4m3)
    let w := round32 (exactSum p)
    let u (d : Nat) : Num := round32 (exactSum (List.zipWith (fun pt t => Num.mul pt (nth (nth vals t []) d (.fin false 0 0))) p live))
    { m := toF32 mn
      l := toF32 (Num.fma (ofF32 x.l) a w)
      o := x.o.mapIdx (fun d c => toF32 (Num.fma (ofF32 c) a (u d)))
      keys := x.keys + live.length }

/-! ## Running (R239–R246) -/

/-- Cycles of a page of q rows (R245), its read at the rate of an undisturbed port. -/
def pageCycles (b : List Byte) : Nat := if blkPmode b then max 8 (34 * blkRows b) else max 8 (2 * blkRows b)

/-- The mill store's contents become undefined (R235): the commands use it. -/
def blankMill (p : Pkg) (m : MillId) : Pkg :=
  let base := 0x012000000000 + m.stack.val * 0x400000 + m.mill.val * 0x80000
  setMill { p with free := p.free + 0x80000
                   mem := p.mem.filter (fun c => !(decide (base ≤ c.1) && decide (c.1 < base + 0x80000)))
                   poison := p.poison.filter (fun l => !(decide (base / 64 ≤ l) && decide (l < base / 64 + 0x2000))) }
    m { millOf p m with blank := some p.free, known := [] }

/-- The head of a page list as R239 asks: its complement, its reserved fields, its tag. -/
def headOk (h b : List Byte) : Bool := halfComplement h && leField h 2 2 == 0 && leField h 8 24 == 0 && leField h 4 4 == blkTag b

/-- The last failing command (R250). -/
def lastErr (p : Pkg) (m : MillId) (entry : Nat) (st : Status) : Pkg :=
  setReg p (.mill m) 0x090 (BitVec.ofNat 32 (2 ^ 31 + entry % 2 ^ 15 * 2 ^ 16 + st.toNat))

/-- The running command stops with a status at an entry (R247). -/
def millStops (p : Pkg) (m : MillId) (r : MillRun) (st : Status) : Pkg :=
  let q := setMill p m { millOf p m with run := some { r with status := some st, readyAt := p.count } }
  let q := if st = Status.failedFormat then raise q (.mill m) evListBad else q
  lastErr q m r.cur st

/-- The next queued command becomes the running one. -/
def millTake (p : Pkg) (m : MillId) (c : MillCmd) (rest : List MillCmd) (cycles : Nat) : Pkg × MillRun :=
  let x := millOf p m
  let r : MillRun :=
    { cmd := c, start := p.count, readyAt := p.count + cycles + (if x.gated then 4 else 0), cur := 0, stop := 0, entries := 0
      rows := List.replicate (blkRows c.blk) MillRow.fresh, status := none, phase := 0xFF, list := [] }
  (blankMill (setMill (bump p (.mill m) 0x100 1) m { x with queue := rest, run := some r, gated := false }) m, r)

/-- MILL_ATTEND (R239, R240): an attend at the front of the queue of a mill that runs nothing starts; it reads the list head and takes
its share of the entries. What the head line's read finds is the operand. -/
def millAttend (p : Pkg) (m : MillId) (found : LineErr) : Pkg :=
  let x := millOf p m
  match x.run, x.queue with
  | none, c :: rest =>
    if blkCmd c.blk ≠ 1 ∨ (enabled p (.memc m.stack) && rowHeld p m.stack (blkList c.blk)) = true then p
    else
      let t := millTake p m c rest 96
      let l := millLine t.1 m.stack (blkList c.blk) found
      if l.2 ≠ Status.done then millStops l.1 m t.2 l.2
      else
        let h := stackBytes l.1 m.stack (blkList c.blk) 64
        if !headOk h c.blk then millStops l.1 m t.2 Status.failedFormat
        else
          let e := leField h 0 2
          let a := e * c.r / c.n
          let z := e * (c.r + 1) / c.n
          let page := if a < z then pageCycles c.blk else 9 * blkRows c.blk
          setMill l.1 m { millOf l.1 m with run := some { t.2 with list := h, cur := a, stop := z, readyAt := t.2.readyAt + page } }
  | _, _ => p

def execMillAttend (mill : MillId) (found : LineErr) (s : State) : Host.Outcome State Fault Refusal :=
  act s (fun p => millAttend p mill found)

/-- Whether a repair copy runs on a row that a page lies in, so that its reads are held (R226, R247): a page has lines in every channel. -/
def pageHeld (p : Pkg) (n : Fin 12) (s : Nat) : Bool := (List.range 64).any (fun k => rowHeld p n (s + 64 * k))

/-- The list line of the entry that a run comes to, and whether it is read now: each line is read once (R244). -/
def listLine (p : Pkg) (n : Fin 12) (r : MillRun) (es : Nat) : List Byte × Bool :=
  if r.entries = 0 ∨ es % 64 = 0 then (stackBytes p n (es / 64 * 64) 64, true) else (r.list, false)

/-- The lines of one entry: its own line when the share or the line begins with it (0), then the 64 of its page (1 to 64). -/
def entryLines (first : Bool) (es page : Nat) : List (Nat × Nat) :=
  (if first || es % 64 == 0 then [(0, es / 64 * 64)] else []) ++ (List.range 64).map (fun k => (k + 1, page * 4096 + 64 * k))

/-- The page of the next entry for every query row. -/
def millCompute (p : Pkg) (n : Fin 12) (r : MillRun) (e : List Byte) : List MillRow :=
  let b := r.cmd.blk
  let page := leField e 0 3 * 4096
  let kf := fp8Of ((blkFlags b).testBit 1)
  let vf := fp8Of ((blkFlags b).testBit 2)
  let keys := (List.range 16).map (fun t => fp8Row kf (stackBytes p n (page + 128 * t) 128))
  let vals := (List.range 16).map (fun t => fp8Row vf (stackBytes p n (page + 2048 + 128 * t) 128))
  r.rows.mapIdx (fun i x =>
    millPage b (fp8Row (fp8Of ((blkFlags b).testBit 0)) ((r.cmd.rows.drop (128 * i)).take 128)) (blkPos b i) (leField e 3 1 % 32) (leField e 4 4) keys vals x)

/-- A residue mismatch ends the command (R247, R249). -/
def millResidue (p : Pkg) (m : MillId) (r : MillRun) : Pkg :=
  let g := Page.mill m
  record (raise (bump (millStops p m r Status.failedMill) g 0x128 1) g evResidue) (some g) evResidue Status.failedMill 2 false [r.cur]

/-- MILL_PAGE_DONE (R239–R241, R246): the next page of the share, once its cycles are over: its entry and its lines are read, every row
takes it, and the mill pauses by the duty of its die. -/
def millPageDone (p : Pkg) (m : MillId) (found : List (Nat × LineErr)) (residue : Bool) : Pkg :=
  match (millOf p m).run with
  | none => p
  | some r =>
    if blkCmd r.cmd.blk ≠ 1 ∨ r.status.isSome ∨ r.stop ≤ r.cur ∨ p.count < r.readyAt then p
    else
      let n := m.stack
      let es := blkList r.cmd.blk + 64 + 8 * r.cur
      let ln := listLine p n r es
      let e := (ln.1.drop (es % 64)).take 8
      let page := leField e 0 3
      let tokens := leField e 3 1
      let bad := decide (tokens = 0) || decide (16 < tokens)
      let lines := entryLines (r.entries == 0) es page
      if enabled p (.memc n) && ((ln.2 && rowHeld p n es) || (!bad && pageHeld p n (page * 4096))) then p
      else
        -- the entry's own line decides before the entry is looked at
        let l := millLines p n found (if bad then lines.filter (fun x => x.1 == 0) else lines)
        if l.2 ≠ Status.done then millStops l.1 m r l.2
        else if bad then millStops l.1 m r Status.failedFormat
        else if residue then millResidue l.1 m r
        else
          let rows := millCompute l.1 n r e
          let c := pageCycles r.cmd.blk
          let pause := pauseCycles c (dutyOf p (dieOfStack n))
          let next := if r.cur + 1 < r.stop then c else 9 * blkRows r.cmd.blk
          let keys := (rows.map (·.keys)).sum - (r.rows.map (·.keys)).sum
          let q := bump (bump (bump l.1 (.mill m) 0x108 1) (.mill m) 0x110 keys) (.mill m) 0x120 pause
          setMill q m { millOf q m with
            pauseTo := p.count + pause
            run := some { r with list := ln.1, cur := r.cur + 1, entries := r.entries + 1, rows := rows, readyAt := p.count + pause + next } }

def execMillPageDone (mill : MillId) (found : List (Nat × LineErr)) (residue : Bool) (s : State) : Host.Outcome State Fault Refusal :=
  act s (fun p => millPageDone p mill found residue)

/-- Cycles of a self-test (R249). -/
def testCycles (level : Nat) : Nat := if level = 1 then 8192 else 32768

/-- MILL_TEST (R249): a test at the front of the queue starts; the phase in which it will fail, if any, and whether the two chains will differ are the
operands. A difference is counted and reported, and ends the test within 32 cycles; its phase is that of the chains where no other is
given. -/
def millTest (p : Pkg) (m : MillId) (found : TestOutcome) : Pkg :=
  let x := millOf p m
  match x.run, x.queue with
  | none, c :: rest =>
    if blkCmd c.blk ≠ 2 then p
    else
      let t := millTake p m c rest (if found.residue then 32 else testCycles (blkFlags c.blk / 32))
      let r := match (if found.residue then some (found.phase.getD 3) else found.phase) with
        | some f => { t.2 with status := some Status.failedMill, phase := f.val }
        | none => { t.2 with status := some Status.done }
      let q := setMill t.1 m { millOf t.1 m with run := some r }
      if found.residue then record (raise (bump q (.mill m) 0x128 1) (.mill m) evResidue) (some (.mill m)) evResidue Status.failedMill 2 false [0] else q
  | _, _ => p

def execMillTest (mill : MillId) (found : TestOutcome) (s : State) : Host.Outcome State Fault Refusal :=
  act s (fun p => millTest p mill found)

/-! ## Records (R242, R247) -/

/-- An attend record of row i. -/
def attendRecord (p : Pkg) (m : MillId) (r : MillRun) (st : Status) (i : Nat) (x : MillRow) : List Byte :=
  let v := blkVscale r.cmd.blk
  let o := if x.keys = 0 then x.o else x.o.map (fun c => toF32 (round32 ((ofF32 c).mul v)))
  o.flatMap (leBytes 4) ++ leBytes 4 x.m ++ leBytes 4 x.l ++ leBytes 2 st.toNat ++ leBytes 1 m.stack.val ++ leBytes 1 m.mill.val
    ++ leBytes 4 x.keys ++ leBytes 4 r.entries ++ leBytes 2 i ++ leBytes 2 0 ++ leBytes 8 p.bell.toNat ++ leBytes 32 0

/-- A test record. -/
def testRecord (p : Pkg) (m : MillId) (r : MillRun) (st : Status) : List Byte :=
  leBytes 2 st.toNat ++ leBytes 1 m.stack.val ++ leBytes 1 m.mill.val ++ leBytes 1 r.phase ++ leBytes 3 0 ++ leBytes 8 p.bell.toNat ++ leBytes 48 0

/-- A command's records are written where its instruction asked for them: poisoned when its status is not of class done. -/
def writeRecords (p : Pkg) (m : MillId) (r : MillRun) (st : Status) : Pkg :=
  let c := r.cmd
  let n := recordBytes c.blk
  (List.range (recordRows c.blk)).foldl (fun (q : Pkg) i =>
    let a := c.dest + (i * c.nsel + c.j) * n
    if Status.cls st ≠ 0 then poisonLocal q a n
    else writeLocal q a (if blkCmd c.blk = 1 then attendRecord p m r st i (nth r.rows i MillRow.fresh) else testRecord p m r st) noTag) p

/-- A command ends with its status (R247): its records, the mill's counts and events, its share of the instruction. -/
def millEnd (p : Pkg) (m : MillId) (r : MillRun) (st : Status) : Pkg :=
  let g := Page.mill m
  let q := writeRecords p m r st
  let q := if Status.cls st = 0 then q else raise (bump q g 0x130 1) g evCmdFailed
  endShare (endItem q g r.cmd.inst st) r.cmd.inst st

/-- MILL_COMMAND_END (R240, R241, R247): the running command has no page left, or has stopped; an attend whose every row found no live
key ends done.empty. -/
def millCommandEnd (p : Pkg) (m : MillId) : Pkg :=
  match (millOf p m).run with
  | none => p
  | some r =>
    if p.count < r.readyAt ∨ (blkCmd r.cmd.blk = 1 ∧ r.status.isNone ∧ r.cur < r.stop) then p
    else
      let st := r.status.getD (if r.rows.all (fun x => x.keys == 0) then Status.doneEmpty else Status.done)
      let q := setMill (bump p (.mill m) 0x118 (p.count - r.start)) m { millOf p m with run := none, idleAt := p.count }
      let q := millEnd q m r st
      if blkCmd r.cmd.blk = 2 && st == Status.failedMill then
        enterFault (record (raise (lastErr q m 0 st) (.mill m) evMillBist) (some (.mill m)) evMillBist st 2 false [r.phase]) (.mill m) 0x09
      else q

def execMillCommandEnd (mill : MillId) (s : State) : Host.Outcome State Fault Refusal := act s (fun p => millCommandEnd p mill)

/-- MILL_CLOCK_GATE (R250). -/
def millGate (p : Pkg) (m : MillId) : Pkg :=
  let x := millOf p m
  let n := bits (getReg p (.mill m) 0x088) 11 8
  usePairs p (.mill m) [0x088] (fun p =>
    if x.run.isNone ∧ x.queue.isEmpty ∧ n ≠ 0 ∧ x.idleAt + 16 * n ≤ p.count then setMill p m { x with gated := true } else p)

def execMillClockGate (mill : MillId) (s : State) : Host.Outcome State Fault Refusal := act s (fun p => millGate p mill)

/-! ## Drains and registers (R248, R250) -/

/-- The commands left at the drain timeout end failed.disabled with poisoned records (R248). -/
def millAbort (p : Pkg) (m : MillId) : Pkg :=
  let x := millOf p m
  let idle (c : MillCmd) : MillRun := ⟨c, p.count, p.count, 0, 0, 0, [], none, 0xFF, []⟩
  let left := (match x.run with | some r => [r] | none => []) ++ x.queue.map idle
  left.foldl (fun q r => lastErr (millEnd q m r Status.failedDisabled) m r.cur Status.failedDisabled)
    (setMill p m { x with run := none, queue := [], idleAt := p.count })

/-- The commands of an instruction that have not arrived are not sent any more. -/
def millForget (p : Pkg) (id : Nat) : Pkg :=
  { p with mills := p.mills.map (fun (kv : MillId × Mill) => (kv.1, { kv.2 with path := kv.2.path.filter (fun c => c.inst != id) })) }

/-- MILL_STATUS as it reads. -/
def millStatus (p : Pkg) (m : MillId) : Word :=
  let x := millOf p m
  BitVec.ofNat 32 (x.queue.length * 2 ^ 16 + (if x.run.isSome then 2 ^ 15 else 0) + (if p.count < x.pauseTo then 2 ^ 14 else 0)
    + (match x.run with | some r => r.entries % 4096 | none => 0))

/-- A commit of MILL_CFG: the reserved test levels are discarded (R44, R250). -/
def millCfgCommit (p : Pkg) (m : MillId) (v : Word) : Pkg :=
  if 2 ≤ bits v 1 0 then discardCommit p (.mill m) else commitPair p (.mill m) 0x088 v 0x00000F03#32

/-- The self-check of an ENABLING mill ends (R249): after its full time; a failure sets bist_fail. -/
def millSelfCheck (p : Pkg) (m : MillId) (pass : Bool) : Pkg :=
  let g := Page.mill m
  if stateOf p g = .enabling ∧ !pairOk p g 0x088 then cmpFail p g
  else if (block p g).since + testCycles (bits (getReg p g 0x088) 1 0) ≤ p.count ∧ stateOf p g = .enabling then
    let q := blankMill p m
    selfCheckDone (if pass then q else record (raise q g evMillBist) (some g) evMillBist Status.failedMill 2 false []) g pass
  else p

end Sys2Proof.Machine
end

