-- ==== Sys2Proof/Machine/Reeve.lean ====
section
/-! DEFINITION. Command packets and their replies (R369–R374), the reply cache, the watchdog, and Caselm's event records
(R388–R390). -/
namespace Sys2Proof.Machine
open Sys2Proof

/-! ## Packets (R369) -/

/-- The fields of a command packet, and the gateway bobbin whose slots take its payload (R209). -/
structure Packet where
  gateway : Fin 8
  version : Nat
  flags : Nat
  code : Nat
  lenField : Nat
  requester : Chip
  target : Chip
  id : Word
  job : Word
  pcrc : Nat
  arg0 : Nat
  arg1 : Nat
  arg2 : Nat
  status : Status
  reserved : Nat
  hcrcOk : Bool
  payload : List Byte
  deriving DecidableEq, Repr

/-- The packet that bytes spell, its payload taken by a gateway bobbin. -/
def packetOf (b : List Byte) (gateway : Fin 8) : Packet :=
  { gateway := gateway, version := leField b 0 1, flags := leField b 1 1, code := leField b 2 2, lenField := leField b 4 2 % 4096
    requester := BitVec.ofNat 16 (leField b 8 2), target := BitVec.ofNat 16 (leField b 10 2), id := BitVec.ofNat 32 (leField b 12 4)
    job := BitVec.ofNat 32 (leField b 16 4), pcrc := leField b 20 4, arg0 := leField b 24 8, arg1 := leField b 32 8
    arg2 := leField b 40 8, status := BitVec.ofNat 16 (leField b 48 2)
    reserved := leField b 1 1 / 4 + leField b 4 2 / 4096 + leField b 6 2 + leField b 50 2
    hcrcOk := leField b 60 4 == (crc32 (b.take 60)).toNat, payload := (b.drop 64).take (leField b 4 2 % 4096) }

/-- The bytes of a packet: its header with both check sums and its payload. -/
def packetBytes (reply last : Bool) (code : Nat) (requester target : Chip) (id job : Word) (args : List Nat) (st : Status) (sent : DWord)
    (payload : List Byte) : List Byte :=
  let h := leBytes 1 2 ++ leBytes 1 ((if reply then 1 else 0) + (if last then 2 else 0)) ++ leBytes 2 code ++ leBytes 2 payload.length
    ++ leBytes 2 0 ++ leBytes 2 requester.toNat ++ leBytes 2 target.toNat ++ leBytes 4 id.toNat ++ leBytes 4 job.toNat
    ++ leBytes 4 (if payload.isEmpty then 0 else (crc32 payload).toNat)
    ++ leBytes 8 (nth args 0 0) ++ leBytes 8 (nth args 1 0) ++ leBytes 8 (nth args 2 0) ++ leBytes 2 st.toNat ++ leBytes 2 0
    ++ leBytes 8 sent.toNat
  h ++ leBytes 4 (crc32 h).toNat ++ payload

/-- The payload of a packet that stands in its slot; a slot that was freed by a LAND_FULL write holds none of it (R209). -/
def slotPayload (p : Pkg) (s : Fin 8 × Nat) : List Byte := Map.getD (bobOf p (.gateway s.1)).slots s.2 []

/-- The first packet that has arrived whole over the optical ports and whose payload, if it has one, stands in a landing slot (R209,
R370), with that slot, and what is left of the inbox. The frames before are given. -/
def firstPacket (p : Pkg) (before : List Delivered) : List Delivered → Option (List Byte × Option (Fin 8 × Nat) × List Delivered)
  | [] => none
  | x :: r =>
    match (if carriesPacket x && !isSecond before x && !x.held before then wholePacket x r else none) with
    | some b =>
      let rest := before ++ (if x.frame.last then r else dropFirst (followsOn x) r)
      some (match x.slot with
        | some s => (b.take 64 ++ slotPayload p s, some s, rest)
        | none => (b, none, rest))
    | none => firstPacket p (before ++ [x]) r

/-- Whether Caselm, or the recovery ROM, takes packets (R434, R441). -/
def takesPackets (p : Pkg) : Bool := p.boot.stage == .caselm || p.boot.stage == .recovery

/-- The gateway bobbin of a packet on the management paths: GB4, or the next ENABLED one; GB4 when none is (R209, R211). -/
def mgmtGateway (p : Pkg) : Fin 8 := (landGateway p 4).getD 4

/-- Whether a packet of the management port has no payload, or its payload finds a landing slot (R209). -/
def mgmtLands (p : Pkg) (b : List Byte) : Bool := b.length ≤ 64 || (landPlace p 4).isSome

/-- The packet of a source, the path it came by, and the package without it. The recovery ROM serves the management paths
only (R441). The command lands the payload, so that its slot frees with the command that takes the packet; a payload that finds no free
slot is held at its port (R209; log entry 14). -/
def takePacket (p : Pkg) (src : CmdSrc) : Option (Packet × Nat × Pkg) :=
  if !takesPackets p || p.pw.p3 then none
  else
    match src with
    | .fabric =>
      if p.boot.stage = .recovery then none
      else
        let p := landWaiting p
        match firstPacket p [] p.inbox with
        | some (b, some (k, n), r) => some (packetOf b k, 0, landWaiting (dropSlot { p with inbox := r } k n))
        | some (b, none, r) => some (packetOf b 0, 0, { p with inbox := r })
        | none => none
    | .mgmt b => if mgmtLands p b then some (packetOf b (mgmtGateway p), 1, tallyOut (tallyIn p .mgmt 1) .mgmt 1) else none
    | .i3c b => some (packetOf b (mgmtGateway p), 2, tallyOut (tallyIn p .mgmt 1) .mgmt 1)
    | .held =>
      match p.pw.held, p.pw.heldI3c with
      | b :: r, _ =>
        if mgmtLands p b then some (packetOf b (mgmtGateway p), 1, tallyOut { p with pw := { p.pw with held := r } } .mgmt 1) else none
      | [], some b => some (packetOf b (mgmtGateway p), 2, tallyOut { p with pw := { p.pw with heldI3c := none } } .mgmt 1)
      | [], none => none

/-! ## The command set (R374, R406, R442) -/

/-- A defined code: the paths it is allowed on, optical ports, management port, I3C; whether it needs the manifest's job tag; and
whether it changes state. -/
structure CmdForm where
  fabric : Bool
  mgmt : Bool
  i3c : Bool
  job : Bool
  changes : Bool
  deriving DecidableEq, Repr

/-- The table of R374 with those of R442 and R406. -/
def cmdForm (code : Nat) : Option CmdForm :=
  match code with
  | 0x01 | 0x02 => some ⟨true, true, true, false, false⟩
  | 0x03 => some ⟨true, true, false, false, false⟩
  | 0x04 => some ⟨true, true, true, false, true⟩
  | 0x10 | 0x11 | 0x12 | 0x16 | 0x17 | 0x18 => some ⟨true, true, false, false, true⟩
  | 0x13 | 0x14 | 0x15 | 0x19 => some ⟨true, true, false, false, false⟩
  | 0x20 | 0x21 | 0x22 => some ⟨true, true, false, false, true⟩
  | 0x23 | 0x24 | 0x30 | 0x40 | 0x41 => some ⟨true, true, false, true, true⟩
  | 0x31 | 0x60 => some ⟨true, true, false, true, false⟩
  | 0x50 | 0x51 | 0x52 => some ⟨true, false, false, true, true⟩
  | 0x61 => some ⟨true, true, false, true, true⟩
  | 0x70 => some ⟨false, true, false, false, true⟩
  | 0x71 | 0x75 | 0x77 | 0x78 => some ⟨true, true, false, false, true⟩
  | 0x72 | 0x73 | 0x74 => some ⟨true, false, false, false, true⟩
  | 0x76 => some ⟨false, true, false, false, true⟩
  | _ => none

/-- Codes that the recovery ROM runs (R441). -/
def recoveryRuns (code arg2 : Nat) : Bool := code == 0x01 || (code == 0x03 && arg2 == 1) || (0x10 ≤ code && code < 0x14)

/-! ## Replies (R370–R373) -/

/-- The frames that carry bytes to a requester (R370): of kind 0x3 on flow 0x001, the longer ones two. -/
def packetFrames (p : Pkg) (k : CmdKey) (b : List Byte) : List Frame :=
  let f := { controlFrame p 4 k.chip 0 b with seq := k.id }
  if b.length ≤ 2048 then [f] else [{ f with payload := b.take 2048, last := false }, { f with payload := b.drop 2048 }]

/-- Bytes sent to a requester on its path (R370). On the optical ports the lowest-numbered die whose router carries control traffic takes
the frames; with none they wait until one does, so that the reply is not lost (R24; log entry 35). -/
def sendBytes (p : Pkg) (k : CmdKey) (b : List Byte) : Pkg :=
  if k.path = 0 then
    match replyDie p with
    | some d => (packetFrames p k b).foldl (fun q f => inject q d f) p
    | none => { p with rv := { p.rv with unsent := p.rv.unsent ++ packetFrames p k b } }
  else emit p (.packet k.path b)

/-- The job tag a packet of a code carries. -/
def jobField (p : Pkg) (code : Nat) : Word :=
  match cmdForm code with
  | some f => if f.job then (match p.rv.job with | some j => j.tag | none => 0) else 0
  | none => 0

/-- The one reply of a command (R371): the command ends, the reply is sent on the path it came by, and a command that ran is
kept in the reply cache (R372). -/
def sendReply (p : Pkg) (k : CmdKey) (code : Nat) (st : Status) (args : List Nat) (payload : List Byte) (ran : Bool) : Pkg :=
  let b := packetBytes true false code k.chip (if k.path = 0 then ownChip p else 0) k.id (jobField p code) args st p.bell payload
  let q := sendBytes (endItem p .reeve code st) k b
  let q := if Status.cls st = 1 then bump q .reeve 0x108 1 else q
  if ran then { q with rv := { q.rv with cache := (q.rv.cache ++ [(⟨k, b, q.count⟩ : Cached)]).drop (q.rv.cache.length + 1 - 1024) } } else q

/-- The reply of a command that ran. -/
def finish (p : Pkg) (k : CmdKey) (code : Nat) (st : Status) (args : List Nat) (payload : List Byte) : Pkg :=
  sendReply p k code st args payload true

/-- A command goes on running; its reply comes later. -/
def keepRunning (p : Pkg) (k : CmdKey) (pk : Packet) : Pkg :=
  { p with rv := { p.rv with runs := p.rv.runs ++ [⟨k, pk.code, pk.arg0, pk.arg1, p.count⟩] } }

/-- The running commands that meet a condition end with one status (R371). -/
def endRuns (p : Pkg) (t : CmdRun → Bool) (st : Status) (args : List Nat) (payload : List Byte) : Pkg :=
  let l := p.rv.runs.filter t
  l.foldl (fun q r => finish q r.key r.code st args payload) { p with rv := { p.rv with runs := p.rv.runs.filter (fun r => !t r) } }

/-- A reply of the cache that is not older than 1 s (R372). -/
def cached (p : Pkg) (k : CmdKey) : Option Cached := p.rv.cache.find? (fun c => c.key == k && decide (p.count < c.at_ + 1000000000))

/-- Whether a manifest commit or withdrawal runs (R371). -/
def manifestBusy (p : Pkg) : Bool := p.rv.commitRound.isSome || p.rv.withdrawAt.isSome

/-- The checks of R371 up to the sixth, in order; `done` when none fails. A len above the 2,048 of R369 is no packet's and counts as a header
field that is not zero where it must be; an I3C packet above the 256 bytes of R370 is not allowed on its path (log entry 34). -/
def packetCheck (p : Pkg) (pk : Packet) (path : Nat) : Status :=
  match cmdForm pk.code with
  | none => if pk.version ≠ 2 then Status.refusedVersion else Status.failedOpcode
  | some f =>
    if pk.version ≠ 2 then Status.refusedVersion
    else if pk.reserved ≠ 0 ∨ 2048 < pk.lenField then Status.failedOpcode
    else if !(if path = 0 then f.fabric else if path = 1 then f.mgmt else f.i3c && decide (pk.lenField ≤ 256)) then Status.refusedPath
    else if pk.pcrc ≠ (if pk.lenField = 0 then 0 else (crc32 pk.payload).toNat) ∨ pk.payload.length ≠ pk.lenField then Status.failedCrc
    else if f.job ∧ p.rv.job.isNone then Status.refusedNoJob
    else if f.job ∧ pk.job ≠ (match p.rv.job with | some j => j.tag | none => 0) then Status.refusedJob
    else Status.done

/-- A packet whose header is sound is accepted and run, or answered by the first check that fails (R371). -/
def acceptPacket (p : Pkg) (pk : Packet) (path : Nat) (run : Pkg → CmdKey → Packet → Pkg) : Pkg :=
  let k : CmdKey := ⟨path, pk.requester, pk.id⟩
  let q := tallyIn (bump p .reeve 0x100 1) .reeve 1
  let st := packetCheck p pk path
  if st ≠ Status.done then sendReply q k pk.code st [] [] false
  else
    match cached p k with
    | some c => sendBytes (endItem (bump q .reeve 0x120 1) .reeve pk.code Status.done) k c.reply
    | none =>
      if 64 ≤ p.rv.runs.length then sendReply q k pk.code Status.refusedBusy [] [] false
      else if (match cmdForm pk.code with | some f => f.changes | none => false) && manifestBusy p then
        sendReply q k pk.code Status.refusedBusy [] [] false
      else if p.boot.stage = .recovery ∧ !recoveryRuns pk.code pk.arg2 then finish q k pk.code Status.refusedOffline [] []
      else run q k pk

/-- A command row: the first packet of a source is taken when it is the row's command with a sound header. -/
def serve (p : Pkg) (src : CmdSrc) (code : Nat) (run : Pkg → CmdKey → Packet → Pkg) : Pkg :=
  match takePacket p src with
  | some (pk, path, q) => if pk.hcrcOk && pk.code == code && pk.flags % 2 == 0 then acceptPacket q pk path run else p
  | none => p

/-- COMMAND_BAD_HEADER (R371): a packet whose hcrc fails is counted and answered with nothing; one of a code that no row names ends with
the first check that fails. A reply to a command that this package sent is discarded (R406). -/
def badHeader (p : Pkg) (src : CmdSrc) : Pkg :=
  match takePacket p src with
  | some (pk, path, q) =>
    if !pk.hcrcOk then raise (bump q .reeve 0x110 1) .reeve 19
    else if pk.flags % 2 = 1 ∧ pk.code ≠ 0x41 then q
    else if (cmdForm pk.code).isNone ∧ pk.flags % 2 = 0 then acceptPacket q pk path (fun r _ _ => r)
    else p
  | none => p

def execCommandBadHeader (src : CmdSrc) (s : State) : Host.Outcome State Fault Refusal := act s (fun p => badHeader p src)

/-- CMD_FRAGMENT_TIMEOUT (R370): the first frame of a packet whose second has not come within 65,536 ticks is discarded. -/
def fragmentTimeout (p : Pkg) : Pkg :=
  let old (x : Delivered) : Bool := carriesPacket x && !x.frame.last && decide (x.at_ + 65536 ≤ p.count)
    && !(p.inbox.any (fun y => followsOn x y && decide (y.at_ < x.at_ + 65536)))
  match takeInbox p old with
  | some (x, q) =>
    let q := match x.slot with | some (k, n) => dropSlot q k n | none => q
    raise (bump (freeUnits q ⟨x.frame, x.arrival⟩) .reeve 0x118 1) .reeve 20
  | none => p

def execCmdFragmentTimeout (s : State) : Host.Outcome State Fault Refusal := act s fragmentTimeout

/-- REPLY_CACHE_EXPIRY (R372): entries of 1 s and more leave the cache. -/
def cacheExpiry (p : Pkg) : Pkg :=
  { p with rv := { p.rv with cache := p.rv.cache.filter (fun c => decide (p.count < c.at_ + 1000000000)) } }

def execReplyCacheExpiry (s : State) : Host.Outcome State Fault Refusal := act s cacheExpiry

/-! ## What Caselm reports of itself -/

/-- REEVE_STATUS.cstate (R391): recovery ROM, booting, idle, job loaded, serving, withdrawing, quarantined. -/
def cstate (p : Pkg) : Nat :=
  match p.boot.stage with
  | .booting => 1
  | .caselm =>
    if p.quarantined then 6
    else if p.rv.withdrawAt.isSome then 5
    else if p.rv.job.isNone then 2
    else if p.rv.started then 4
    else 3
  | _ => 0

/-- Reeve cores that run: one in the ROM, all four under Caselm less those halted (R434, R441, R488). -/
def coresRunning (p : Pkg) : Nat :=
  match p.boot.stage with
  | .rom | .recovery => 1
  | .booting | .caselm => 4 - p.dbg.halted.length
  | _ => 0

/-- REEVE_STATUS (R391). -/
def reeveStatus (p : Pkg) : Word :=
  BitVec.ofNat 32 (cstate p * 2 ^ 28 + coresRunning p * 2 ^ 24 + (if p.rv.job.isSome then p.rv.phase else 0) * 2 ^ 16 + min 64 p.rv.runs.length)

/-- NV_RECORD_WRITE (R390): the oldest record that waits is written and read back; a write that fails is retried once in the next slot, and
a second failure is counted and reported. The 8 MiB area keeps 131,072 records; when it is full its oldest sector, 1,024 of them,
is erased. -/
def nvWrite (p : Pkg) (ok retryOk : Bool) : Pkg :=
  match p.nvPending with
  | [] => p
  | r :: rest =>
    let q := { p with nvPending := rest }
    if ok || retryOk then
      setReg { q with nvRecords := (if 131072 ≤ q.nvRecords.length then q.nvRecords.drop 1024 else q.nvRecords) ++ [r] } .reeve 0x094 r.seq
    else record (raise (bump q .reeve 0x130 1) .reeve 18) (some .reeve) 18 0 2 false [r.seq.toNat]

def execNvRecordWrite (ok : Bool) (retryOk : Bool) (s : State) : Host.Outcome State Fault Refusal := act s (fun p => nvWrite p ok retryOk)

/-! ## The commands that only read (R374) -/

/-- IDENTIFY. -/
def identify (p : Pkg) (src : CmdSrc) : Pkg :=
  serve p src 0x01 (fun q k _ =>
    finish q k 0x01 Status.done [(getReg q .fuse 0x080).toNat + 2 ^ 32 * (chipReg q).toNat, (reeveStatus q).toNat, (getReg q .reeve 0x084).toNat] [])

def execIdentify (src : CmdSrc) (s : State) : Host.Outcome State Fault Refusal := act s (fun p => identify p src)

/-- Free bytes drawn for values that the manual leaves open. -/
def drawBytes (p : Pkg) (n : Nat) : Pkg × List Byte := ({ p with free := p.free + n }, (List.range n).map (fun i => Config.freeByte (p.free + i)))

/-- The value of a telemetry record (R386): the figure of the latest snapshot that the id's group, instance and item name. The manual numbers no
item of a group: which of the group's figures an item names is open (log entry 21). An id that names none reads all ones. -/
def teleValue (p : Pkg) (id : Nat) : Nat :=
  match Map.look p.rv.figures (id / 65536, id / 256 % 256) with
  | some l => (match l[Config.teleItem (id / 65536) (id % 256)]? with | some v => v % 2 ^ 64 | none => 2 ^ 64 - 1)
  | none => 2 ^ 64 - 1

/-- The values of n telemetry records, 8 bytes each. -/
def teleValues (p : Pkg) (ids : List Byte) (n : Nat) : List Byte := (List.range n).flatMap (fun i => leBytes 8 (teleValue p (leField ids (4 * i) 4)))

/-- TELEMETRY: values of the latest snapshot, its bell time in arg0. -/
def telemetry (p : Pkg) (src : CmdSrc) : Pkg :=
  serve p src 0x02 (fun q k pk =>
    let n := pk.payload.length / 4
    if pk.payload.length % 4 ≠ 0 ∨ (if k.path = 2 then 32 else 256) < n then finish q k 0x02 Status.failedFormat [] []
    else
      finish q k 0x02 Status.done [q.rv.snapshot.toNat] (teleValues q pk.payload n))

def execTelemetry (src : CmdSrc) (s : State) : Host.Outcome State Fault Refusal := act s (fun p => telemetry p src)

/-- EVENT_READ: up to 32 records from a sequence on, of the volatile ring or the non-volatile area. -/
def eventRead (p : Pkg) (src : CmdSrc) : Pkg :=
  serve p src 0x03 (fun q k pk =>
    if pk.arg1 = 0 ∨ 32 < pk.arg1 ∨ 1 < pk.arg2 then finish q k 0x03 Status.failedFormat [] []
    else
      let rs := ((if pk.arg2 = 0 then q.records else q.nvRecords).filter (fun r => decide (pk.arg0 ≤ r.seq.toNat))).take pk.arg1
      let next := match rs.getLast? with | some r => r.seq.toNat + 1 | none => pk.arg0
      finish q k 0x03 Status.done [next] (rs.flatMap recordBytesOf))

def execEventRead (src : CmdSrc) (s : State) : Host.Outcome State Fault Refusal := act s (fun p => eventRead p src)

/-! ## The watchdog (R367) -/

/-- The watchdog's timeout in ticks. -/
def wdogLimit (p : Pkg) : Nat :=
  let t := bits (getReg p .reeve 0x088) 7 0
  (if t ≤ 1 then 10 else t) * 1000000

/-- Whether the watchdog counts: Caselm has taken over and no Reeve core is halted by the debug port (R488). -/
def wdogRuns (p : Pkg) : Bool := (p.boot.stage == .caselm || p.boot.stage == .booting) && p.dbg.halted.isEmpty && !p.pw.p3

/-- WATCHDOG_EXPIRY (R367): quarantine, the Reeve cores reset, and the recovery ROM started, in this order. What runs on Reeve is lost:
the reply cache and the job it held; the running commands end failed.disabled, each with its reply (R24; log entry 35). -/
def wdogExpiry (p : Pkg) : Pkg :=
  if wdogRuns p ∧ !pairOk p .reeve 0x088 then cmpFail p .reeve
  else if wdogRuns p ∧ p.rv.wdogAt + wdogLimit p ≤ p.count then
    let q := raise (bump (quarantine p) .reeve 0x138 1) .reeve 16
    let q := endRuns q (fun _ => true) Status.failedDisabled [] []
    { q with
      serving := false
      rv := { q.rv with cache := [], runs := [], staging := none, job := none, commitRound := none, withdrawAt := none, started := false
                        change := none, sampler := none, admission := none }
      dbg := { q.dbg with halted := [] }
      boot := { q.boot with stage := .rom, at_ := q.count, cause := 0x05 } }
  else p

def execWatchdogExpiry (s : State) : Host.Outcome State Fault Refusal := act s wdogExpiry

end Sys2Proof.Machine
end

