-- ==== Sys2Proof/Machine/Selvage.lean ====
section
/-! DEFINITION. Selvage engines (R251–R272): heater codes and lock loops, holds, sweeps and recalibration, wrong lock, the laser, dark ports
and wake bursts, and the lanes' markers and error limit (R274, R277). -/
namespace Sys2Proof.Machine
open Sys2Proof

def evDark : Nat := 16
def evHold : Nat := 18
def evWrongLock : Nat := 19
def evRetired : Nat := 20
def evRecalDone : Nat := 21
def evLaserFault : Nat := 22
def evOpenFibre : Nat := 23
def evWakeRx : Nat := 24
def evTblErr : Nat := 25
def evTblLocked : Nat := 26
def evRelockFail : Nat := 27
def evSelBusy : Nat := 28

/-- Whether an engine works: SEL ENABLED, or kept at work in quarantine (R332). -/
def selOn (p : Pkg) (e : Fin 16) : Bool := carries p (.sel e)
/-- SEL_CFG. -/
def selCfg (p : Pkg) (e : Fin 16) : Word := getReg p (.sel e) 0x088
/-- SEL_CFG.trim_max and drift_limit in heater steps. -/
def trimMax (p : Pkg) (e : Fin 16) : Nat := let v := bits (selCfg p e) 25 21; milliSteps (if v = 0 then 16 else v)
def driftLimit (p : Pkg) (e : Fin 16) : Nat := let v := bits (selCfg p e) 20 16; milliSteps (if v = 0 then 8 else v)
/-- SEL_CFG.integ in ticks (R256). -/
def integTicks (p : Pkg) (e : Fin 16) : Nat :=
  match bits (selCfg p e) 11 10 with | 0 => 156 | 1 => 625 | 2 => 2500 | _ => 10000

/-- A command of an ENABLED engine that uses SEL_CFG (R42). -/
def selUse (p : Pkg) (e : Fin 16) (f : Pkg → Pkg) : Pkg := if selOn p e && !pairOk p (.sel e) 0x088 then cmpFail p (.sel e) else f p

/-- Whether a burst of 640 µs is still being sent. -/
def bursting (p : Pkg) (n : Fin 32) : Bool :=
  match (selPort p n).burstAt with
  | some t => (portOfPkg p n).optic == .dark && decide (p.count < t + 640000)
  | none => false

/-- Whether a ring is LOCKED now: the transmit rings of a port but λ0 are parked while a burst is sent (R268). -/
def ringLocked (p : Pkg) (e : Fin 16) (r : Fin 64) : Bool :=
  (ringOf p e r).state == .locked && !(!ringRx r && ringLane r != 0 && bursting p (ringPort e r))

/-- What is reported of a ring, but nothing of a DARK port's (R267). -/
def reported (p : Pkg) (e : Fin 16) (r : Fin 64) (f : Pkg → Pkg) : Pkg := if (portOfPkg p (ringPort e r)).optic = .dark then p else f p

/-- Caselm saves an engine's offset table to the configuration area (R264; log entry 49). -/
def saveOffsets (p : Pkg) (e : Fin 16) : Pkg :=
  if p.boot.stage == .caselm && !p.pw.p3 then
    let now := (p.rg.tables.filter (fun kv => kv.1.1 == .sel e && kv.1.2.1 == 2)).map (fun kv => (kv.1, kv.2.1))
    { p with boot := { p.boot with tables := p.boot.tables.filter (fun kv => kv.1.1 != .sel e) ++ now } }
  else p

/-- An offset written: a value that fits no signed 16-bit step count is free (log entry 49). -/
def writeOffset (p : Pkg) (e : Fin 16) (r : Fin 64) (v : Int) : Pkg :=
  if -32768 ≤ v ∧ v ≤ 32767 then setEntry p (.sel e) 2 r.val ((BitVec.ofInt 16 v).setWidth 32)
  else setEntry { p with free := p.free + 1 } (.sel e) 2 r.val (Config.freeWord p.free &&& 0xFFFF#32)

/-! ## Holds and sweeps (R260–R263) -/

/-- A directed sweep of a ring starts from the parked point (R261). -/
def startSweep (p : Pkg) (e : Fin 16) (r : Fin 64) : Pkg :=
  let q := endRingItem p e r Status.failedRelock
  tallyIn (applyHeat (setRing q e r { ringOf q e r with
    state := .sweep, sweepAt := q.count, trim := 0, satAt := none, driftAt := none, failedAt := none, queued := false, cal := none, wrong := 0 }) e r) (.sel e) 1

/-- A ring goes to HOLD for a fault and is swept at once (R260). -/
def holdRing (p : Pkg) (e : Fin 16) (r : Fin 64) : Pkg :=
  startSweep (reported p e r (fun p => raise (bump p (.sel e) 0x308 1) (.sel e) evHold)) e r

/-- The next ring of a direction waiting for recalibration begins it: held while every other lane of the direction is in service, else in
tracking form (R260, R264). One ring per direction at a time. -/
def recalDirection (p : Pkg) (e : Fin 16) (h : Fin 2) (rx : Bool) : Pkg :=
  let lanes := (List.finRange 16).map (ringNo h rx)
  if !selOn p e || lanes.any (fun r => (ringOf p e r).cal.isSome) then p
  else
    match lanes.find? (fun r => (ringOf p e r).queued && ringLocked p e r) with
    | none => p
    | some r =>
      let held := lanes.all (fun k => k == r || ringLocked p e k)
      let x := ringOf p e r
      if held then
        tallyIn (setRing (reported p e r (fun p => raise (bump p (.sel e) 0x308 1) (.sel e) evHold)) e r
          { x with state := .hold, queued := false, cal := some (false, p.count), failedAt := none, satAt := none, driftAt := none }) (.sel e) 1
      else
        let q := setSel p e { selOf p e with tracking := true }
        tallyIn (setRing q e r { x with queued := false, cal := some (true, p.count) }) (.sel e) 1

/-- Recalibration goes on in every direction; a pass with no ring left is over: recal_done. -/
def recalNext (p : Pkg) (e : Fin 16) : Pkg :=
  let q := recalDirection (recalDirection (recalDirection (recalDirection p e 0 false) e 0 true) e 1 false) e 1 true
  if (selOf q e).pass && (List.finRange 64).all (fun r => !(ringOf q e r).queued && (ringOf q e r).cal.isNone) then
    saveOffsets (raise (setSel q e { selOf q e with pass := false }) (.sel e) evRecalDone) e
  else q

/-- A sweep or held recalibration found nothing (R261): HOLD, and RETIRED at the third failure within 1 s. -/
def sweepFailed (p : Pkg) (e : Fin 16) (r : Fin 64) : Pkg :=
  let g := Page.sel e
  let x := ringOf p e r
  let fs := p.count :: x.failures.filter (fun t => decide (p.count < t + 1000000000))
  let q := endItem (applyHeat (setRing p e r { x with state := .hold, cal := none, failures := fs, failedAt := some p.count }) e r) g r.val Status.failedRelock
  if 3 ≤ fs.length then
    let q := setRing q e r { ringOf q e r with state := .retired, failedAt := none }
    reported q e r (fun q => record (raiseAll (bump q g 0x310 1) g [evRetired, evRelockFail]) (some g) evRelockFail Status.failedRelock 2 true [r.val])
  else q

/-- A ring LOCKED again at an offset moved by d steps. -/
def relocked (p : Pkg) (e : Fin 16) (r : Fin 64) (d : Int) : Pkg :=
  let q := writeOffset p e r (ringOffset p e r.val + d)
  let x := ringOf q e r
  saveOffsets (endItem (applyHeat (setRing q e r { x with
    state := .locked, trim := 0, cal := none, relocks := min 255 (x.relocks + 1), wrong := 0, markAt := q.count, satAt := none, driftAt := none }) e r)
    (.sel e) r.val Status.done) e

/-- The channel spacing, 4.75 mW, and 0.3 nm at 0.24 nm/mW, 1.25 mW, in heater steps (R255, R257, R261, R264). -/
def channelSteps : Nat := milliSteps 38
def recalSteps : Nat := milliSteps 10

/-- DIRECTED_SWEEP_END (R261): the operand is how far from ff + offset the lane's own resonance was found, in heater steps; none, one beyond a
channel, or more than 200 µs after the start, is a failed sweep. -/
def sweepEnd (p : Pkg) (e : Fin 16) (r : Fin 64) (found : Option Int) : Pkg :=
  let x := ringOf p e r
  if x.state ≠ .sweep then p
  else
    match (if p.count ≤ x.sweepAt + 200000 then found.filter (fun d => decide (d.natAbs ≤ channelSteps)) else none) with
    | some d => recalNext (relocked p e r d) e
    | none => recalNext (sweepFailed p e r) e

def execDirectedSweepEnd (se : Fin 16) (ring : Fin 64) (found : Option Int) (s : State) : Host.Outcome State Fault Refusal :=
  act s (fun p => sweepEnd p se ring found)

/-- SWEEP_RETRY (R261): 1 ms after a failed sweep. -/
def sweepRetry (p : Pkg) (e : Fin 16) (r : Fin 64) : Pkg :=
  let x := ringOf p e r
  match x.failedAt with
  | some t => if x.state = .hold ∧ t + 1000000 ≤ p.count ∧ selOn p e then startSweep p e r else p
  | none => p

def execSweepRetry (se : Fin 16) (ring : Fin 64) (s : State) : Host.Outcome State Fault Refusal := act s (fun p => sweepRetry p se ring)

/-- SEL_CMD relock (R260, R272): the ring must be LOCKED. -/
def selRelock (p : Pkg) (e : Fin 16) (r : Fin 64) : Pkg :=
  if selOn p e ∧ ringLocked p e r then recalNext (holdRing p e r) e else raise p (.sel e) evSelBusy

def execSelRelock (se : Fin 16) (ring : Fin 64) (s : State) : Host.Outcome State Fault Refusal := act s (fun p => ifOn p (.sel se) (fun p => selRelock p se ring))

/-- A wrong lock detected (R262, R263). -/
def wrongLock (p : Pkg) (e : Fin 16) (r : Fin 64) : Pkg :=
  let g := Page.sel e
  let q := reported p e r (fun p => record (raise (bump p g 0x300 1) g evWrongLock) (some g) evWrongLock 0 1 false [r.val])
  recalNext (holdRing q e r) e

/-- PILOT_WRONG_LOCK (R262): a transmit ring's monitor demodulates another lane's pilot. -/
def pilotWrong (p : Pkg) (e : Fin 16) (r : Fin 64) (pilot : Fin 16) : Pkg :=
  if selOn p e && !ringRx r && ringLocked p e r && pilot.val != ringLane r then wrongLock p e r else p

def execPilotWrongLock (se : Fin 16) (ring : Fin 64) (pilot : Fin 16) (s : State) : Host.Outcome State Fault Refusal :=
  act s (fun p => pilotWrong p se ring pilot)

/-! ## Markers (R262, R274, R277) -/

/-- LANE_MARKER_RECEIVE (R262, R274): a marker that fails its sync or complement does not count; its reserved bits are ignored. One with the lane's own
number gives the peer's tx_map; two in a row with another number are a wrong lock. -/
def markerReceive (p : Pkg) (n : Fin 32) (lane : Fin 16) (m : DWord) : Pkg :=
  let e := seOfPort n
  let r := ringNo (portHalf n) true lane
  let x := ringOf p e r
  if !selOn p e || x.state != .locked then p
  else if bits m 7 0 ≠ 0x4B ∨ bits m 11 8 + bits m 15 12 ≠ 15 then setRing p e r { x with wrong := 0 }
  else if bits m 11 8 = lane.val then
    let q := setRing p e r { x with wrong := 0, markAt := p.count }
    setPort q n { portOfPkg q n with peerTx := BitVec.ofNat 16 (bits m 31 16) }
  else if x.wrong = 0 then setRing p e r { x with wrong := 1, markAt := p.count }
  else wrongLock p e r

def execLaneMarkerReceive (port : Fin 32) (lane : Fin 16) (marker : DWord) (s : State) : Host.Outcome State Fault Refusal :=
  act s (fun p => markerReceive p port lane marker)

/-- MARKER_MISSING (R262): no marker for 100 µs is a loss of lock. -/
def markerMissing (p : Pkg) (n : Fin 32) (lane : Fin 16) : Pkg :=
  let e := seOfPort n
  let r := ringNo (portHalf n) true lane
  let x := ringOf p e r
  if selOn p e && x.state == .locked && decide (x.markAt + 100000 ≤ p.count) then recalNext (holdRing p e r) e else p

def execMarkerMissing (port : Fin 32) (lane : Fin 16) (s : State) : Host.Outcome State Fault Refusal := act s (fun p => markerMissing p port lane)

/-- Whether a margin run has a lane of a port under test, so that R277 is suspended for it (R493). -/
def laneTested (p : Pkg) (n : Fin 32) (lane : Fin 16) : Bool :=
  match p.dbg.margin with
  | some m => bits m.tgt 31 30 == 1 && bits m.tgt 29 22 == n.val && m.lane == lane.val && m.step != 0
  | none => false

/-- FEC_LIMIT_EXCEEDED (R277): what a lane counted in a 1 ms window is the operand; past the limit the lane is taken out and its ring
relocked. -/
def fecWindow (p : Pkg) (n : Fin 32) (lane : Fin 16) (corrected uncorrectable : Nat) : Pkg :=
  let g := Page.lnk n
  let e := seOfPort n
  let r := ringNo (portHalf n) true lane
  let limit := let v := bits (getReg p g 0x088) 15 8; (if v = 0 then 38 else v) * 1024
  if (ringOf p e r).state ≠ .locked ∨ (portOfPkg p n).lstate = .down then p
  else
    let sat (q : Pkg) (off k : Nat) : Pkg := setReg q g off (BitVec.ofNat 32 (min (2 ^ 32 - 1) ((getReg q g off).toNat + k)))
    let q := sat (sat p (0x200 + 8 * lane.val) corrected) (0x204 + 8 * lane.val) uncorrectable
    if corrected ≤ limit ∨ laneTested p n lane then q
    else
      let y := portOfPkg q n
      selRelock (raise (setPort q n { y with fecOut := withBit y.fecOut lane.val true }) g 28) e r

def execFecLimitExceeded (port : Fin 32) (lane : Fin 16) (corrected uncorrectable : Nat) (s : State) : Host.Outcome State Fault Refusal :=
  act s (fun p => fecWindow p port lane corrected uncorrectable)

/-! ## Lock loops (R256, R257) -/

/-- LOCK_LOOP_UPDATE (R256, R257): once per integration a LOCKED ring takes its loop's trim, the operand, within ±trim_max, and its heater
code is built. A monitor that stays dark over it, no trim, puts the ring on HOLD at once (R260). -/
def lockLoop (p : Pkg) (e : Fin 16) (r : Fin 64) (trim : Option Int) : Pkg :=
  let x := ringOf p e r
  selUse p e (fun p =>
    if ringLocked p e r ∧ selOn p e ∧ x.loopAt + integTicks p e ≤ p.count then
      match trim with
      | none => recalNext (holdRing p e r) e
      | some v =>
        let m : Int := trimMax p e
        let t := max (-m) (min m v)
        let since (b : Bool) (o : Option Nat) : Option Nat := if b then some (o.getD p.count) else none
        applyHeat (setRing p e r { x with
          trim := t, loopAt := p.count, satAt := since (t.natAbs == trimMax p e) x.satAt
          driftAt := since (decide (driftLimit p e ≤ t.natAbs)) x.driftAt }) e r
    else p)

def execLockLoopUpdate (se : Fin 16) (ring : Fin 64) (trim : Option Int) (s : State) : Host.Outcome State Fault Refusal :=
  act s (fun p => lockLoop p se ring trim)

/-- TRIM_SATURATION (R257): at its limit for 10 µs. -/
def trimSaturated (p : Pkg) (e : Fin 16) (r : Fin 64) : Pkg :=
  let x := ringOf p e r
  match x.satAt with
  | some t => if ringLocked p e r ∧ selOn p e ∧ t + 10000 ≤ p.count then recalNext (holdRing p e r) e else p
  | none => p

def execTrimSaturation (se : Fin 16) (ring : Fin 64) (s : State) : Host.Outcome State Fault Refusal := act s (fun p => trimSaturated p se ring)

/-- DRIFT_QUEUE (R257): at or above drift_limit for 1 ms. -/
def driftQueue (p : Pkg) (e : Fin 16) (r : Fin 64) : Pkg :=
  let x := ringOf p e r
  match x.driftAt with
  | some t => if ringLocked p e r ∧ selOn p e ∧ t + 1000000 ≤ p.count then recalNext (setRing p e r { x with queued := true }) e else p
  | none => p

def execDriftQueue (se : Fin 16) (ring : Fin 64) (s : State) : Host.Outcome State Fault Refusal := act s (fun p => driftQueue p se ring)

/-- HEATER_FF_UPDATE (R255, R272): every 10 µs the two sensors are sampled, and each ring's feed-forward is read again; a ring whose lock loop does not
run takes its heater code at once, a LOCKED one with its next update. Rings whose table entries are uncorrectable set tbl_err and go to HOLD; a
PARKED ring waits for light as before (R258). -/
def ffUpdate (p : Pkg) (e : Fin 16) (t0 t1 : BitVec 12) (bad : List (Fin 64)) : Pkg :=
  let g := Page.sel e
  if stateOf p g = .off ∨ p.count < (selOf p e).ffAt + 10000 then p
  else
    let q := setReg p g 0x098 (BitVec.ofNat 32 (t1.toNat * 65536 + t0.toNat))
    let q := setSel q e { selOf q e with ffAt := q.count }
    let q := (List.finRange 64).foldl (fun q r =>
      setRing q e r { ringOf q e r with ff := feedForward q e r.val (if r.val < 32 then t0.toNat else t1.toNat) }) q
    let q := (List.finRange 64).foldl (fun q r => if (ringOf q e r).state = .locked ∨ (ringOf q e r).state = .off then q else applyHeat q e r) q
    bad.foldl (fun q r =>
      let q := raise q g evTblErr
      if selOn q e ∧ (ringLocked q e r ∨ (ringOf q e r).state = .sweep) then recalNext (holdRing q e r) e else q) q

def execHeaterFfUpdate (se : Fin 16) (sensor0 sensor1 : BitVec 12) (badEntries : List (Fin 64)) (s : State) : Host.Outcome State Fault Refusal :=
  act s (fun p => ffUpdate p se sensor0 sensor1 badEntries)

/-! ## Recalibration (R264) -/

/-- A full pass begins: every LOCKED ring is queued. -/
def startPass (p : Pkg) (e : Fin 16) : Pkg :=
  let q := setSel p e { selOf p e with pass := true, passAt := p.count, tracking := false }
  recalNext ((List.finRange 64).foldl (fun q r =>
    let x := ringOf q e r
    if x.state = .locked then setRing q e r { x with queued := true } else q) q) e

/-- SEL_CMD recal (R264, R272): ignored while a pass runs. -/
def selRecal (p : Pkg) (e : Fin 16) : Pkg :=
  if selOn p e && !(selOf p e).pass then startPass p e else raise p (.sel e) evSelBusy

def execSelRecal (se : Fin 16) (s : State) : Host.Outcome State Fault Refusal := act s (fun p => ifOn p (.sel se) (fun p => selRecal p se))

/-- RECAL_INTERVAL (R264): recal_ivl × 10 s after the last pass. -/
def recalInterval (p : Pkg) (e : Fin 16) : Pkg :=
  let v := bits (selCfg p e) 31 26
  selUse p e (fun p =>
    if selOn p e && !(selOf p e).pass && decide ((selOf p e).passAt + (if v = 0 then 60 else v) * 10000000000 ≤ p.count) then startPass p e else p)

def execRecalInterval (se : Fin 16) (s : State) : Host.Outcome State Fault Refusal := act s (fun p => recalInterval p se)

/-- HELD_RECAL_END (R264): the centre found, in heater steps from the present point and within 0.3 nm of it, or none. -/
def heldRecalEnd (p : Pkg) (e : Fin 16) (r : Fin 64) (centre : Option Int) : Pkg :=
  match (ringOf p e r).cal with
  | some (false, t) =>
    match (if p.count ≤ t + 200000 then centre.filter (fun d => decide (d.natAbs ≤ recalSteps)) else none) with
    | some d => recalNext (relocked (bump p (.sel e) 0x318 1) e r ((ringOf p e r).trim + d)) e
    | none => recalNext (sweepFailed p e r) e
  | _ => p

def execHeldRecalEnd (se : Fin 16) (ring : Fin 64) (centre : Option Int) (s : State) : Host.Outcome State Fault Refusal :=
  act s (fun p => heldRecalEnd p se ring centre)

/-- TRACKING_RECAL_END (R264): after 10 ms the offset is set to the mean of trim, the operand. -/
def trackingRecalEnd (p : Pkg) (e : Fin 16) (r : Fin 64) (mean : Int) : Pkg :=
  match (ringOf p e r).cal with
  | some (true, t) =>
    if t + 10000000 ≤ p.count then
      let q := writeOffset p e r mean
      recalNext (saveOffsets (endItem (setRing (bump q (.sel e) 0x318 1) e r { ringOf q e r with cal := none }) (.sel e) r.val Status.done) e) e
    else p
  | _ => p

def execTrackingRecalEnd (se : Fin 16) (ring : Fin 64) (mean : Int) (s : State) : Host.Outcome State Fault Refusal :=
  act s (fun p => trackingRecalEnd p se ring mean)

/-! ## The laser (R253, R254) -/

/-- LASER_STATUS_ASSERTED (R253): the module's status line rises; the tap's power is the operand. -/
def laserAsserted (p : Pkg) (e : Fin 16) (power : Half) : Pkg :=
  if stateOf p (.sel e) = .off then p else setSel p e { selOf p e with laserOk := true, tapOk := true, tapPower := power.toNat }

def execLaserStatusAsserted (se : Fin 16) (tapPower : Half) (s : State) : Host.Outcome State Fault Refusal :=
  act s (fun p => laserAsserted p se tapPower)

/-- What a port's entry to DARK reports (R266, R267): from LIT or OFF the dark event and DARK_ENTRIES once; from WAKING WAKE_FAIL alone. The
second package is the first with the port shut. -/
def darkened (p : Pkg) (n : Fin 32) (q : Pkg) : Pkg :=
  let g := Page.sel (seOfPort n)
  match (portOfPkg p n).optic with
  | .dark => p
  | .waking => bump q g 0x340 1
  | _ => raise (bump q g 0x338 1) g evDark

/-- A port without light enters DARK. -/
def enterDark (p : Pkg) (n : Fin 32) : Pkg := darkened p n (closePort p n .dark Status.failedRelock)

/-- A laser fault (R254): the enable withdrawn, both shutters closed, every transmit ring parked, both ports DARK; the receive rings and
the light that arrives stay as they are. -/
def laserFault (p : Pkg) (e : Fin 16) : Pkg :=
  let g := Page.sel e
  if !selOn p e || (selOf p e).laserFault then p
  else
    let shut (q : Pkg) (n : Fin 32) : Pkg := darkened q n (shutPort q n .dark)
    let q := (List.finRange 64).foldl (fun q r => if ringRx r then q else parkRing q e r Status.failedRelock) (shut (shut p (portOf2 e 0)) (portOf2 e 1))
    let q := setSel q e { selOf q e with laserEn := false, laserFault := true }
    record (raise q g evLaserFault) (some g) evLaserFault 0 2 true []

/-- LASER_STATUS_WITHDRAWN (R254). -/
def laserWithdrawn (p : Pkg) (e : Fin 16) : Pkg := laserFault (setSel p e { selOf p e with laserOk := false }) e

def execLaserStatusWithdrawn (se : Fin 16) (s : State) : Host.Outcome State Fault Refusal := act s (fun p => laserWithdrawn p se)

/-- LASER_TAP_LOW (R254): the tap more than 6 dB low for 100 µs; its power is the operand. -/
def laserTapLow (p : Pkg) (e : Fin 16) (power : Half) : Pkg :=
  laserFault (setSel p e { selOf p e with tapOk := false, tapPower := power.toNat }) e

def execLaserTapLow (se : Fin 16) (tapPower : Half) (s : State) : Host.Outcome State Fault Refusal := act s (fun p => laserTapLow p se tapPower)

/-- A ring RETIRED (R254, R258). -/
def retireRing (p : Pkg) (e : Fin 16) (r : Fin 64) : Pkg :=
  if (ringOf p e r).state = .retired then p
  else
    let q := endRingItem p e r Status.failedRelock
    reported (setRing q e r { ringOf q e r with state := .retired, queued := false, failedAt := none }) e r (fun q => raise q (.sel e) evRetired)

/-- LASER_LINE_DARK (R254): one line failed; that lane's transmit ring on both ports is RETIRED. -/
def laserLineDark (p : Pkg) (e : Fin 16) (lane : Fin 16) : Pkg :=
  if selOn p e then
    record (retireRing (retireRing p e (ringNo 0 false lane)) e (ringNo 1 false lane)) (some (.sel e)) evRetired 0 2 true [lane.val]
  else p

def execLaserLineDark (se : Fin 16) (lane : Fin 16) (s : State) : Host.Outcome State Fault Refusal := act s (fun p => laserLineDark p se lane)

/-- Caselm loads an engine's tables during ENABLING (R255): the factory's feed-forward and crosstalk tables, and the offsets that it has
saved. -/
def loadRings (p : Pkg) (e : Fin 16) : Pkg :=
  let q := { p with rg := { p.rg with tables := p.rg.tables.filter (fun kv => !(kv.1.1 == .sel e && decide (kv.1.2.1 ≤ 1))) } }
  let q := setSel q e { selOf q e with loaded := true }
  (p.boot.tables.filter (fun kv => kv.1.1 == .sel e && kv.1.2.1 == 2)).foldl (fun q kv => setEntry q (.sel e) 2 kv.1.2.2 kv.2) q

/-- SEL's self-check ends (R258): within it the tables have been loaded and every transmit ring has been swept, an item each (R264), and locked;
receive rings stay PARKED; a new ENABLING takes RETIRED rings back and ends a laser fault; the enable is driven and the ports are DARK. -/
def selSelfCheck (p : Pkg) (e : Fin 16) (pass : Bool) : Pkg :=
  let g := Page.sel e
  if stateOf p g ≠ .enabling then p
  else if !pass then selfCheckDone p g false
  else
    let q := loadRings p e
    let q := setSel q e { selOf q e with laserEn := true, laserFault := false, passAt := p.count, tracking := false }
    let q := (List.finRange 64).foldl (fun q r =>
      let q := setRing q e r { Ring.reset with state := if ringRx r then .parked else .locked, ff := (ringOf q e r).ff, markAt := q.count }
      if ringRx r then q else endItem (tallyIn q g 1) g r.val Status.done) q
    selfCheckDone (enterDark (enterDark q (portOf2 e 0)) (portOf2 e 1)) g true

/-! ## Dark ports and wake (R266–R270) -/

/-- RX_LIGHT_LOSS (R266, R270): received power below the threshold for 100 µs; the shutter closes and the port enters DARK. From LIT that is
an open fibre; a return from WAKING raises no event (R267); a DARK port that had light parks its receive rings (R254, R258). -/
def rxLightLoss (p : Pkg) (n : Fin 32) : Pkg :=
  let g := Page.sel (seOfPort n)
  match (portOfPkg p n).optic with
  | .lit => enterDark (raise (bump p g 0x320 1) g evOpenFibre) n
  | .waking => enterDark p n
  | _ =>
    let q := (List.finRange 16).foldl (fun q l =>
      let r := ringNo (portHalf n) true l
      if (ringOf q (seOfPort n) r).busy ∨ (ringOf q (seOfPort n) r).state = .locked ∨ (ringOf q (seOfPort n) r).state = .hold
      then parkRing q (seOfPort n) r Status.failedRelock else q) p
    setSelPort q n { selPort q n with rxLight := false }

def execRxLightLoss (port : Fin 32) (s : State) : Host.Outcome State Fault Refusal := act s (fun p => rxLightLoss p port)

/-- A wake burst leaves on a DARK port (R268). -/
def sendBurst (p : Pkg) (n : Fin 32) : Pkg :=
  emit (bump (setSelPort p n { selPort p n with burstAt := some p.count }) (.sel (seOfPort n)) 0x328 1) (.burst n)

/-- SEL_CMD wake (R268, R272): the port must be DARK. -/
def selWake (p : Pkg) (n : Fin 32) : Pkg :=
  if (portOfPkg p n).optic = .dark ∧ selOn p (seOfPort n) then sendBurst p n else raise p (.sel (seOfPort n)) evSelBusy

def execSelWake (port : Fin 32) (s : State) : Host.Outcome State Fault Refusal := act s (fun p => selWake p port)

/-- WAKE_BURST_SEND (R268): every probe_ivl × 10 ms while DARK with probe_en = 1. -/
def wakeBurstSend (p : Pkg) (n : Fin 32) : Pkg :=
  let e := seOfPort n
  let v := bits (selCfg p e) 15 12
  let due := match (selPort p n).burstAt with
    | some t => decide (t + (if v = 0 then 1 else v) * 10000000 ≤ p.count)
    | none => true
  selUse p e (fun p => if (portOfPkg p n).optic == .dark && selOn p e && bit (selCfg p e) 0 && due then sendBurst p n else p)

def execWakeBurstSend (port : Fin 32) (s : State) : Host.Outcome State Fault Refusal := act s (fun p => wakeBurstSend p port)

/-- The port enters WAKING: its shutter opens (R266). -/
def enterWaking (p : Pkg) (n : Fin 32) (burst : Bool) : Pkg :=
  let q := setPort p n { portOfPkg p n with optic := .waking }
  setSelPort q n { selPort q n with shutter := 2, wakeSeen := burst, wakingAt := q.count }

/-- WAKE_BURST_DETECT (R268): wake_rx, and a DARK port moves to WAKING. -/
def wakeBurstDetect (p : Pkg) (n : Fin 32) : Pkg :=
  let g := Page.sel (seOfPort n)
  if (portOfPkg p n).optic = .dark then raise (bump (enterWaking p n true) g 0x330 1) g evWakeRx else p

def execWakeBurstDetect (port : Fin 32) (s : State) : Host.Outcome State Fault Refusal := act s (fun p => wakeBurstDetect p port)

/-- STEADY_LIGHT_DETECT (R258, R266): a DARK port moves to WAKING; the receive rings of a port with light are swept onto their lanes. -/
def steadyLight (p : Pkg) (n : Fin 32) : Pkg :=
  let e := seOfPort n
  if (portOfPkg p n).optic = .dark ∨ ((portOfPkg p n).optic = .waking ∧ !(selPort p n).rxLight) then
    let q := if (portOfPkg p n).optic = .dark then enterWaking p n false else p
    let q := setSelPort q n { selPort q n with rxLight := true }
    checkLit ((List.finRange 16).foldl (fun q l =>
      let r := ringNo (portHalf n) true l
      if (ringOf q e r).state = .parked then startSweep q e r else q) q) n
  else p

def execSteadyLightDetect (port : Fin 32) (s : State) : Host.Outcome State Fault Refusal := act s (fun p => steadyLight p port)

/-- WAKING_TIMEOUT (R266): no steady light after 10 ms. -/
def wakingTimeout (p : Pkg) (n : Fin 32) : Pkg :=
  if (portOfPkg p n).optic == .waking && !(selPort p n).rxLight && decide ((selPort p n).wakingAt + 10000000 ≤ p.count) then enterDark p n else p

def execWakingTimeout (port : Fin 32) (s : State) : Host.Outcome State Fault Refusal := act s (fun p => wakingTimeout p port)

/-! ## Registers (R272) -/

/-- A commit of SEL_CFG; a reserved value is discarded (R44). -/
def selCfgCommit (p : Pkg) (e : Fin 16) (v : Word) : Pkg :=
  if 60 < bits v 31 26 ∨ 18 < bits v 25 21 ∨ 18 < bits v 20 16 then discardCommit p (.sel e)
  else commitPair p (.sel e) 0x088 v 0xFFFFFC01#32

/-- SEL_TBL_WRITE (R272): an entry with its complement, only while DISABLED; inc steps the index after every access, a discarded one too. -/
def selTblWrite (p : Pkg) (e : Fin 16) (v : Word) : Pkg :=
  let g := Page.sel e
  let a := getReg p g 0x200
  let t := bits a 30 29
  let i := bits a 12 0
  let x := bits v 15 0
  let q := if x + bits v 31 16 ≠ 0xFFFF then raise p g evPairErr
    else if stateOf p g ≠ .disabled then raise p g evTblLocked
    else if t = 3 ∨ (t = 0 ∧ 96 ≤ i % 128) ∨ (t = 1 ∧ 4096 ≤ i) ∨ (t = 2 ∧ 64 ≤ i) ∨ (t = 1 ∧ i % 65 = 0 ∧ x ≠ 0x4000) then raise p g evRsvdWrite
    else setEntry p g t i (BitVec.ofNat 32 x)
  advance q g 0x200 13

def execSelTblWrite (se : Fin 16) (value : Word) (s : State) : Host.Outcome State Fault Refusal := act s (fun p => ifOn p (.sel se) (fun p => selTblWrite p se value))

/-- A ring's state as it reads (R258, R268): OFF until SEL is past ENABLING, and parked beside λ0 while a burst is sent. -/
def ringView (p : Pkg) (e : Fin 16) (r : Fin 64) : Nat :=
  if stateOf p (.sel e) = .off ∨ stateOf p (.sel e) = .disabled ∨ stateOf p (.sel e) = .enabling then 0
  else
    match (ringOf p e r).state with
    | .off => 0 | .parked => 1 | .sweep => 2 | .hold => 4 | .retired => 5
    | .locked => if ringLocked p e r then 3 else 1

/-- Rings whose states read as a test takes. -/
def ringCount (p : Pkg) (e : Fin 16) (f : Nat → Bool) : Nat := ((List.finRange 64).filter (fun r => f (ringView p e r))).length

def selStatus (p : Pkg) (e : Fin 16) : Word :=
  let x := selOf p e
  BitVec.ofNat 32 ((if x.pass then 2 ^ 27 else 0) + (if x.laserEn then 2 ^ 26 else 0) + (if x.laserOk then 2 ^ 25 else 0)
    + (if x.tracking then 2 ^ 24 else 0) + ringCount p e (· == 3) * 2 ^ 16
    + (ringCount p e (fun c => c == 4 || c == 2)) % 64 * 2 ^ 8 + ringCount p e (· == 5))

def laserView (p : Pkg) (e : Fin 16) : Word :=
  let x := selOf p e
  BitVec.ofNat 32 ((if x.laserOk then 2 ^ 31 else 0) + (if x.laserEn then 2 ^ 30 else 0) + (if x.tapOk then 2 ^ 29 else 0) + x.tapPower % 65536)

/-- Lanes of a port whose rings are LOCKED, in one direction. -/
def lanesIn (p : Pkg) (n : Fin 32) (rx : Bool) : Nat :=
  ((List.finRange 16).map (fun l => if ringView p (seOfPort n) (ringNo (portHalf n) rx l) = 3 then 2 ^ l.val else 0)).sum

def portStateView (p : Pkg) (n : Fin 32) : Word :=
  let x := selPort p n
  let o := match (portOfPkg p n).optic with | .off => 0 | .dark => 1 | .waking => 2 | .lit => 3
  let out (rx : Bool) : Nat := if o = 0 then 0 else min 15 (16 - popcount 16 (lanesIn p n rx))
  BitVec.ofNat 32 (o * 2 ^ 28 + (if bursting p n then 1 else x.shutter) * 2 ^ 26 + (if x.rxLight then 2 ^ 25 else 0)
    + (if x.wakeSeen then 2 ^ 24 else 0) + out false * 16 + out true)

def portLanesView (p : Pkg) (n : Fin 32) : Word := BitVec.ofNat 32 (lanesIn p n true * 65536 + lanesIn p n false)

def laneStatusView (p : Pkg) (e : Fin 16) (r : Fin 64) : Word :=
  let x := ringOf p e r
  BitVec.ofNat 32 (ringView p e r * 2 ^ 28 + x.relocks * 2 ^ 16 + (BitVec.ofInt 16 x.trim).toNat)

end Sys2Proof.Machine
end

