-- ==== Sys2Proof/Machine/Faults.lean ====
section
/-! DEFINITION. CTRL commits, self-checks, the ends of drains (R43, R44, R394–R396), and a context's reaching STOPPED (R132, R174). -/
namespace Sys2Proof.Machine
open Sys2Proof

/-! ## What is still held ends failed.disabled (R394) -/

/-- The commons requests of an instruction end; an atomic that has been sent stays pinned (R321). -/
def dropReqs (p : Pkg) (id : Nat) : Pkg :=
  (p.creqs.filter (fun r => r.inst == id)).foldl (fun q r => endReq q r Status.failedDisabled (decide (0 < r.copies))) p

/-- An instruction that is held ends failed.disabled and retires; one that has ended retires with its own status (R395). -/
def dropInst (p : Pkg) (i : Inst) : Pkg :=
  let q := millForget (dropReqs p i.id) i.id
  match q.insts.find? (fun x => x.id == i.id) with
  | none => q
  | some x =>
    match (engineOf q i.ctx.core).run with
    | some r =>
      if r.inst = i.id then engineEnd q i.ctx.core x r (Status.worst r.status Status.failedDisabled)
      else retire q x (match i.ended with | some st => st | none => Status.failedDisabled)
    | none => retire q x (match i.ended with | some st => st | none => Status.failedDisabled)

/-- The instructions of a context that have not retired are dropped, oldest first. -/
def dropInsts (p : Pkg) (c : CtxId) : Pkg := (instsOf p c).foldl dropInst p

/-- A stopping context reaches STOPPED and writes its record (R157, R174). -/
def stopNow (p : Pkg) (c : CtxId) : Pkg := if (ctxOf p c).state = .stopping then reachStopped p c else p

/-- The descriptors of a bobbin end failed.disabled (R211). -/
def dropDescs (p : Pkg) (b : BobId) (t : Desc → Bool) : Pkg :=
  ((bobOf p b).descs.filter t).foldl (fun q d => endDesc q b { d with status := Status.worst d.status Status.failedDisabled }) p

/-- The port of a PRK page. -/
def prkOfPage (g : Page) : Option (Fin 32) := if h : g.type = 0x1A ∧ g.inst < 32 then some ⟨g.inst, h.2⟩ else none
/-- The die of a page of a type that each die has one of. -/
def dieOfPage (t : Nat) (g : Page) : Option (Fin 4) := if h : g.type = t ∧ g.inst < 4 then some ⟨g.inst, h.2⟩ else none
/-- The mill of a MILL page. -/
def millOfPage (g : Page) : Option MillId :=
  if h : g.type = 0x17 ∧ g.inst < 96 then some ⟨⟨g.inst / 8, by omega⟩, ⟨g.inst % 8, by omega⟩⟩ else none
/-- The stack of a MEMC page. -/
def stackOfPage (g : Page) : Option (Fin 12) := if h : g.type = 0x16 ∧ g.inst < 12 then some ⟨g.inst, h.2⟩ else none

/-- The line requests that a stack controller holds end failed.disabled (R231). -/
def dropHeld (p : Pkg) (n : Fin 12) : Pkg :=
  ((stackOf p n).held.filter (fun h => !h.patrol)).foldl (fun q _ => emit (tallyOut q (.memc n) 1) (.line (.memc n) Status.failedDisabled []))
    (setStack p n { stackOf p n with held := [] })

/-- Frames that end where they stand on this package (R394). -/
def dropFrames (p : Pkg) (g : Page) (fs : List Frame) : Pkg := fs.foldl (fun q f => tallyOut (endFrame q f Status.failedDisabled) g 1) p

/-- Everything a block holds ends failed.disabled (R394 step 3, R397). -/
def expireItems (p : Pkg) (g : Page) : Pkg :=
  match coreOfPage g with
  | some c =>
    let q := (ctxsOfCore c).foldl dropInsts p
    (ctxsOfCore c).foldl stopNow q
  | none =>
    match bobOfPage g, millOfPage g, prkOfPage g, lnkOfPage g with
    | some b, _, _, _ => dropDescs p b (fun _ => true)
    | _, some m, _, _ => millAbort p m
    | _, _, some n, _ =>
      let x := portOfPkg p n
      dropFrames (setPort p n { x with queue := [] }) g (x.queue.map (fun e => e.frame))
    | _, _, _, some n => linkDown p n
    | none, none, none, none =>
      match selOfPage g, stackOfPage g with
      | some e, _ => (List.finRange 64).foldl (fun q r => endRingItem q e r Status.failedDisabled) p
      | none, some n => dropHeld p n
      | none, none =>
      match dieOfPage 0x18 g, dieOfPage 0x19 g, dieOfPage 0x1D g, dieOfPage 0x1E g with
      | some d, _, _, _ => wellAbort p d
      | _, some d, _, _ =>
        let r := router p d
        dropFrames (setRouter p d { r with inq := [] }) g (r.inq.map (fun e => e.frame))
      | _, _, some d, _ =>
        (p.creqs.filter (fun r => r.ctx.core.die == d)).foldl (fun q r => endReq q r Status.failedDisabled (decide (0 < r.copies))) p
      | _, _, _, some d =>
        (ledgerOf p d).own.foldl (fun q (kv : (Chip × Nat) × List LedgerEntry) =>
          (kv.2.filter (fun e => e.pending)).foldl (fun q e => completeEntry q d kv.1 e Status.failedDisabled) q) p
      | none, none, none, none =>
        match siteOfPage g with
        | some n =>
          (match Map.look p.thims n with
            | some t => t.out.foldl (fun q o => emit q (.fromGuest o.agent Status.failedDisabled []))
                { p with thims := Map.put p.thims n { t with out := [], held := [] } }
            | none => p)
        | none =>
          match g.type with
          | 0x03 => endRuns p (fun _ => true) Status.failedDisabled [] []
          | 0x05 =>
            (match p.pw.trans with
              | some t =>
                if t.running then p
                else endRuns (endItem { p with pw := { p.pw with trans := none } } .pwr t.target Status.failedDisabled) (fun r => r.code == 0x04) Status.failedDisabled [] []
              | none => p)
          | 0x0A => (p.bobs.map (fun kv => kv.1)).foldl (fun q b =>
              dropDescs q b (fun d => match d.source with | .far _ => true | _ => false)) p
          | _ => p

/-- DRAIN_TIMEOUT (R394): at the transition plus the timeout everything still held ends failed.disabled and drain_timeout is set; the
block leaves its drain with cause 0x02, a containing block no earlier than what it contains (R396). -/
def drainTimeout (p : Pkg) (g : Page) : Pkg :=
  match Map.look p.rg.drains g with
  | some d =>
    if d.start + d.limit ≤ p.count ∧ copying p g = false then
      let q := if d.cause = 0x02 then p else raise (expireItems p g) g evDrainTimeout
      if containedDone q g then finishDrain q g 0x02
      else { q with rg := { q.rg with drains := Map.put q.rg.drains g { d with cause := 0x02 } } }
    else p
  | none => p

def execDrainTimeout (page : Page) (s : State) : Host.Outcome State Fault Refusal := act s (fun p => drainTimeout p page)

def execDrainComplete (page : Page) (s : State) : Host.Outcome State Fault Refusal := act s (fun p => drainComplete p page)

/-! ## CTRL (R36, R43–R45) -/

/-- The value that a CTRL commit writes. -/
def ctrlWord (blockCtrl : BitVec 16) (timeout : BitVec 12) (run : Nat) : Word :=
  BitVec.ofNat 32 (blockCtrl.toNat * 65536 + timeout.toNat * 16 + run)

/-- A commit of CTRL. One with run = 0b01 on a stack whose channels are being margined is held until the run ends (R494). -/
def commitCtrl (p : Pkg) (g : Page) (v : Word) : Pkg :=
  match p.dbg.margin with
  | some m =>
    if bits v 1 0 = 1 ∧ bits m.tgt 31 30 = 0 ∧ g = ⟨0x16, bits m.tgt 29 22⟩ then { p with dbg := { p.dbg with margin := some { m with held := some v } } }
    else ctrlCommit p g v
  | none => ctrlCommit p g v

/-- CTRL_ENABLE: run = 0b01 with the block's own bits and the drain timeout. -/
def execCtrlEnable (agent : Agent) (page : Page) (blockCtrl : BitVec 16) (timeout : BitVec 12) (s : State) : Host.Outcome State Fault Refusal :=
  act s (fun p => regGateW p agent page 0x008 (fun q => commitCtrl q page (ctrlWord blockCtrl timeout 1)))

/-- CTRL_DISABLE: run = 0b00. -/
def execCtrlDisable (agent : Agent) (page : Page) (blockCtrl : BitVec 16) (timeout : BitVec 12) (s : State) : Host.Outcome State Fault Refusal :=
  act s (fun p => regGateW p agent page 0x008 (fun q => commitCtrl q page (ctrlWord blockCtrl timeout 0)))

/-- SELF_CHECK_DONE (R43): the end of the self-check of ENABLING. A core's is the end of its engine's test (R128), a thimble's is the admission
of its guest (R458); those have rows of their own. -/
def checkDone (p : Pkg) (g : Page) (pass : Bool) : Pkg :=
  match coreOfPage g, millOfPage g, selOfPage g with
  | some _, _, _ => p
  | none, some m, _ => millSelfCheck p m pass
  | none, none, some e => selSelfCheck p e pass
  | none, none, none =>
    match stackOfPage g with
    | some n => memcSelfCheck p n pass
    | none => if g.type = 0x0B then p else selfCheckDone p g pass

def execSelfCheckDone (page : Page) (pass : Bool) (s : State) : Host.Outcome State Fault Refusal := act s (fun p => checkDone p page pass)

/-! ## A context reaches STOPPED (R132, R174) -/

/-- CTX_STOP_COMPLETE: every instruction that a STOPPING context has issued has retired; at the core's drain timeout those still held end
failed.disabled. -/
def stopComplete (p : Pkg) (c : CtxId) : Pkg :=
  let x := ctxOf p c
  if x.state = .stopping then
    if (instsOf p c).isEmpty then reachStopped p c
    else
      match x.stop with
      | some i => if i.at_ + drainLimit p (.core c.core) ≤ p.count then reachStopped (dropInsts p c) c else p
      | none => p
  else p

def execCtxStopComplete (c : CtxId) (s : State) : Host.Outcome State Fault Refusal := act s (fun p => stopComplete p c)

end Sys2Proof.Machine
end

