-- ==== Sys2Proof/Machine/Domains.lean ====
section
/-! DEFINITION. Power domains (R412): what a domain contains, its cut with and without a save (R397, R417, R418), its
restoration (R419, R420), and package reset (R434, R477). -/
namespace Sys2Proof.Machine
open Sys2Proof

def evTransition : Nat := 16
def evReqRefused : Nat := 17
def evWake : Nat := 18
def evWakeReplayed : Nat := 19
def evRetainForced : Nat := 20
def evSaveFail : Nat := 21

/-- The ports of a die, its clusters and cores. -/
def diePorts (d : Fin 4) : List (Fin 32) := (List.finRange 8).map (portOf d)
def dieCores (d : Fin 4) : List CoreId := (List.finRange 10).flatMap (fun c => coresOf d c)
def dieSels (d : Fin 4) : List (Fin 16) := (List.finRange 4).map (fun i => ⟨d.val * 4 + i.val, by omega⟩)
def dieStacks (d : Fin 4) : List (Fin 12) := (List.finRange 3).map (fun i => ⟨d.val * 3 + i.val, by omega⟩)
def dieBobs (d : Fin 4) : List BobId := (List.finRange 10).flatMap (fun c => [.cluster d c 0, .cluster d c 1])
def allGateways : List BobId := (List.finRange 8).map BobId.gateway

/-- The pages of a domain (R412). -/
def domainPages : Domain → List Page
  | .hearth => [.hrth, .pwr, .mgmt]
  | .hub => [.fuse, .sec, .reeve, .bell, .dbg, .gate, .thim 0, .thim 1, .thrm 4, .cmn 4, .stch (.guest 0), .stch (.guest 1)]
      ++ allGateways.map Page.bob
  | .die d =>
    (dieCores d).map Page.core ++ (List.finRange 10).map (fun c => Page.clst d c) ++ (dieBobs d).map Page.bob
      ++ (dieStacks d).map Page.memc ++ [.well d, .drt d, ⟨0x1D, d.val⟩, .ledg d, ⟨0x06, d.val⟩, .stch (.hub d)]
      ++ (diePorts d).map Page.prk ++ (diePorts d).map Page.lnk ++ (dieSels d).map (fun e => Page.stch (.selvage e))
  | .stack n => (List.finRange 8).map (fun m => Page.mill ⟨n, m⟩)
  | .optics k => (dieSels k).map Page.sel

/-- Whether a register is in the save list of its page (R417): CTRL and the RWP registers; of a core CTRL, CORE_CFG, BANK_GATE, ENG_CFG
and the entry and base and bound registers of its contexts; window blocks are not saved. -/
def savedReg (r : Reg) : Bool :=
  r.off == 0x008 || r.off == 0x00C ||
  (match findRow r.page r.off with
  | some (row, _, _) =>
    (row.kind == .rwp || row.kind == .rwp64) &&
      (match r.page.type with
      | 0x10 | 0x11 | 0x12 | 0x13 => r.off < 0x600
      | 0x14 => r.off < 0x400
      | 0x0B => r.off < 0x200
      | _ => true)
  | none => false)

/-- Whether a table entry is in the save list: SEL its offset table, CMN its domain and mirror tables. -/
def savedTable (k : Page × Nat × Nat) : Bool :=
  (k.1.type == 0x1B && k.2.1 == 2) || (k.1.type == 0x1D && (k.2.1 == 0 || k.2.1 == 1))

/-- Whether a register keeps its value through a cut: what is fused (R5, R436), counters, which are held in retention cells, and Caselm's
sequences, which go on from the non-volatile record (R390, R417). -/
def keptReg (r : Reg) : Bool :=
  (r.page == .fuse && decide (0x080 ≤ r.off)) || (r.page == .sec && (r.off == 0x084 || r.off == 0x088)) ||
  (r.page == .reeve && (r.off == 0x090 || r.off == 0x094)) ||
  (match findRow r.page r.off with
  | some (row, _, _) => row.kind == .cnt
  | none => false)

/-- The bytes over which a slot's CRC-32 is taken (R417): the bell time, the saved registers, common registers, table entries and records, in the
order of the save; the manual fixes no order of the words (log entry 41). -/
def saveBytes (s : Slot) : List Byte :=
  leBytes 8 s.at_.toNat
    ++ s.regs.flatMap (fun kv => leBytes 4 (pageOffset kv.1.page kv.1.off) ++ leBytes 4 kv.2.toNat)
    ++ s.blocks.flatMap (fun kv => leBytes 4 (pageOffset kv.1 0) ++ leBytes 4 kv.2.evt.toNat ++ leBytes 4 kv.2.mask.toNat
        ++ leBytes 4 (match kv.2.first with | some i => 2 ^ 31 + i | none => 0) ++ leBytes 4 (kv.2.round * 256 + kv.2.cause)
        ++ leBytes 8 kv.2.tin.toNat ++ leBytes 8 kv.2.tout.toNat)
    ++ s.tables.flatMap (fun kv => leBytes 4 (pageOffset kv.1.1 0) ++ leBytes 4 (kv.1.2.1 * 2 ^ 16 + kv.1.2.2) ++ leBytes 4 kv.2.1.toNat)
    ++ s.records.flatMap recordBytesOf

/-- Whether a slot passes the check of its header (R417, R419): byte count and CRC-32. -/
def slotSound (s : Slot) : Bool := s.bytes == (saveBytes s).length && s.crc == crc32 (saveBytes s)

/-- A slot with its header made. -/
def sealSlot (s : Slot) : Slot := { s with bytes := (saveBytes s).length, crc := crc32 (saveBytes s) }

/-- The save of a domain's pages (R417), with HD's last 512 volatile records. -/
def saveOf (p : Pkg) (d : Domain) : Slot :=
  let ps := domainPages d ++ (match d with | .die k => domainPages (.optics k) | _ => [])
  sealSlot {
    regs := p.rg.regs.filter (fun kv => ps.contains kv.1.page && savedReg kv.1)
    blocks := p.rg.blocks.filter (fun kv => ps.contains kv.1)
    tables := p.rg.tables.filter (fun kv => ps.contains kv.1.1 && savedTable kv.1)
    at_ := p.bell
    records := if d = .hub then p.records.drop (p.records.length - 512) else []
    bytes := 0, crc := 0 }

/-- A block whose power goes: what it holds ends failed.disabled with its tallies kept (R397), and the block is OFF (R45). -/
def cutPage (cause : Nat) (p : Pkg) (g : Page) : Pkg :=
  if stateOf p g = .off then p
  else
    let q := expireItems p g
    let q := match selOfPage g with
      | some e => if carries q g then selLeave q e else q
      | none => q
    let q := setState q g .off cause
    { q with rg := { q.rg with drains := Map.drop q.rg.drains g, undo := q.rg.undo.filter (· != g) } }

/-- A page forgets everything but its counters, tallies, the tally snapshots that agents hold (R38) and its cause (R417). -/
def forgetPages (p : Pkg) (ps : List Page) : Pkg :=
  { p with rg := { p.rg with
      regs := p.rg.regs.filter (fun kv => !ps.contains kv.1.page || keptReg kv.1)
      staged := p.rg.staged.filter (fun kv => !ps.contains kv.1.page)
      latches := p.rg.latches.filter (fun kv => !ps.contains kv.1.2)
      tables := p.rg.tables.filter (fun kv => !ps.contains kv.1.1 || kv.1.1.type == 0x16)
      blocks := p.rg.blocks.map (fun (kv : Page × Block) =>
        if ps.contains kv.1 then (kv.1, { kv.2 with evt := 0, mask := 0, first := none, forced := 0 }) else kv) } }

/-- Memory without a range of addresses, in canonical form still. -/
def dropMem (p : Pkg) (a n : Nat) : Pkg :=
  { p with
    mem := p.mem.filter (fun c => decide (c.1 < a) || decide (a + n ≤ c.1))
    poison := p.poison.filter (fun l => decide (l * 64 < a) || decide (a + n ≤ l * 64)) }

/-- What a compute die holds besides its registers is lost with its rails (R397, R419). -/
def forgetDie (p : Pkg) (d : Fin 4) : Pkg :=
  let sts := (dieCores d).map StoreId.core ++ (List.finRange 10).map (fun c => StoreId.cluster d c)
  let q := sts.foldl (fun q st => dropMem q st.base st.size) p
  let q := dropMem q (0x011C00000000 + d.val * 0x4000000) 0x4000000
  { q with
    ctxs := q.ctxs.filter (fun kv => kv.1.core.die != d)
    insts := q.insts.filter (fun i => i.ctx.core.die != d)
    stores := q.stores.filter (fun kv => kv.1.die != d)
    wins := q.wins.filter (fun kv => kv.1.1.die != d)
    engines := q.engines.filter (fun kv => kv.1.die != d)
    creqs := q.creqs.filter (fun r => r.ctx.core.die != d)
    atomWins := q.atomWins.filter (fun kv => kv.1.1 != d)
    ledgers := Map.drop q.ledgers d
    bobs := q.bobs.filter (fun kv => kv.1.die != d || kv.1.isGateway)
    wells := Map.drop q.wells d
    routers := Map.drop q.routers d
    inbox := q.inbox.filter (fun x => x.die != d)
    ports := q.ports.filter (fun kv => dieOfPort kv.1 != d)
    budget := q.budget.filter (fun kv => kv.1.1 != d)
    pw := { q.pw with thermal := Map.drop q.pw.thermal d, compat := Map.drop q.pw.compat d } }

/-- What the optics of a die hold is lost with their rails. -/
def forgetOptics (p : Pkg) (d : Fin 4) : Pkg :=
  { p with
    sels := p.sels.filter (fun kv => dieOfSe kv.1 != d)
    selPorts := p.selPorts.filter (fun kv => dieOfPort kv.1 != d)
    ports := p.ports.map (fun (kv : Fin 32 × Port) => if dieOfPort kv.1 = d then (kv.1, { kv.2 with optic := .off }) else kv) }

/-- What HD holds is lost with its rail: Reeve stops with everything Caselm held, the bell is UNJOINED. -/
def forgetHub (p : Pkg) : Pkg :=
  { p with
    bellU := BellUnit.reset
    bobs := p.bobs.filter (fun kv => !kv.1.isGateway)
    thims := [], fences := [], records := [], serving := false
    rv := { Pkg.reset.rv with audits := p.rv.audits, faults := p.rv.faults, rejections := p.rv.rejections, exposed := p.rv.exposed, withdrawn := p.rv.withdrawn }
    dbg := { Pkg.reset.dbg with ir := p.dbg.ir, boundary := p.dbg.boundary }
    boot := { p.boot with
      stage := .hearth, at_ := p.count, staging := none, reports := [], challenge := none, token := Pkg.reset.boot.token
      scope := 0, unlockAt := none, aliasRsa := false, udsOpen := true, octal := false, lastCheck := 0, lastStatus := Status.done } }

/-- A stack whose rail is cut loses its contents, its repair tables and its mills' state (R428, R475). -/
def forgetStack (p : Pkg) (n : Fin 12) : Pkg :=
  let q := dropMem p (n.val * 2 ^ 36) (2 ^ 36)
  let x := stackOf q n
  setStack { q with
    mills := q.mills.filter (fun kv => kv.1.stack != n)
    rg := { q.rg with tables := q.rg.tables.filter (fun kv => kv.1.1 != .memc n) } }
    n { Stack.reset with tripped := x.tripped, railCut := x.railCut, coolAt := x.coolAt, temp := x.temp, sampleAt := x.sampleAt }

/-- The mills of a stack whose controller has lost its power drain, the stack being in self-refresh (R248). -/
def restMills (cause : Nat) (p : Pkg) (g : Page) : Pkg :=
  if g.type = 0x16 then (contained g).foldl (fun q h => if enabled q h then leaveOne q h .draining cause else restMill q h) p else p

/-- A domain's rails go (R397, R416 step 5); a compute die takes its optics with it. With retention the registers and memories keep
their contents (R418). -/
def cutDomain (p : Pkg) (d : Domain) (cause : Nat) (retain : Bool) : Pkg :=
  let ps := domainPages d ++ (match d with | .die k => domainPages (.optics k) | _ => [])
  let q := ps.foldl (fun q g => restMills cause (cutPage cause q g) g) p
  let q :=
    if retain then { q with pw := { q.pw with kept := d :: q.pw.kept.filter (· != d) } }
    else
      let q := forgetPages q ps
      let q := match d with
        | .die k => forgetOptics (forgetDie q k) k
        | .hub => forgetHub q
        | .stack n => forgetStack q n
        | .optics k => forgetOptics q k
        | .hearth => q
      { q with pw := { q.pw with cut := d :: q.pw.cut.filter (· != d) } }
  let gone (e : Domain) : Bool := e == d || (match d with | .die k => e == .optics k | _ => false)
  { q with pins := { q.pins with en := q.pins.en.filter (fun kv => !gone kv.1), good := q.pins.good.filter (fun e => !gone e) } }

/-- A page comes up DISABLED (R43), with the cause it had. -/
def wakePage (p : Pkg) (g : Page) : Pkg := if stateOf p g = .off then setState p g .disabled (block p g).cause else p

/-- A save applied to its pages: registers, tables, event registers; events that arose since stay. -/
def applySlot (p : Pkg) (s : Slot) : Pkg :=
  let q := { p with rg := { p.rg with
    regs := s.regs ++ p.rg.regs.filter (fun (kv : Reg × Word) => (Map.look s.regs kv.1).isNone)
    tables := s.tables ++ p.rg.tables.filter (fun (kv : (Page × Nat × Nat) × (Word × Word)) => (Map.look s.tables kv.1).isNone)
    blocks := p.rg.blocks.map (fun (kv : Page × Block) =>
      match Map.look s.blocks kv.1 with
      | some b => (kv.1, { kv.2 with evt := b.evt ||| kv.2.evt, mask := b.mask, first := if b.first.isSome then b.first else kv.2.first, cause := b.cause })
      | none => kv) } }
  { q with records := s.records ++ q.records }

/-- A domain powers up and its pages come up DISABLED (R420): kept contents as they were, else its Hearth slot applied; a slot that
fails its CRC-32, or of which the operand says that a word could not be corrected, is not applied, and save_fail is set (R419). -/
def restoreDomain (p : Pkg) (d : Domain) (slotOk : Bool) : Pkg :=
  let kept := p.pw.kept.contains d
  let q := (domainPages d).foldl wakePage p
  let q := { q with
    pw := { q.pw with kept := q.pw.kept.filter (· != d), cut := q.pw.cut.filter (· != d), slotFail := q.pw.slotFail.filter (· != d) }
    pins := { q.pins with
      en := if d = .hearth ∨ (Map.look q.pins.en d).isSome then q.pins.en else Map.put q.pins.en d q.count
      good := d :: q.pins.good.filter (· != d) } }
  if kept then q
  else
    match Map.look q.pw.slots d with
    | none => q
    | some s =>
      let q := tallyIn q .hrth 1
      if slotOk && slotSound s then endItem (applySlot q s) .hrth 0 Status.done
      else raise (endItem { q with pw := { q.pw with slotFail := d :: q.pw.slotFail } } .hrth 0 Status.failedCrc) .pwr evSaveFail

/-- A compute die and its optics power up. -/
def restoreDie (p : Pkg) (d : Fin 4) (slotOk : Bool) : Pkg := restoreDomain (restoreDomain p (.die d) slotOk) (.optics d) true

/-- Every domain but Hearth. -/
def allDomains : List Domain :=
  (List.finRange 4).map Domain.die ++ (List.finRange 4).map Domain.optics ++ (List.finRange 12).map Domain.stack ++ [.hub]

/-- The rejections of samplers that a reset other than maintenance leaves, the local count starting afresh: three once they have barred the package, else
those of the last 24 hours (R409, R411). -/
def carriedRejections (p : Pkg) : List Nat :=
  let l := p.rv.rejections
  if (l.zip (l.drop 2)).any (fun x => decide (x.2 < x.1 + dayTicks)) then [0, 0, 0] else (l.filter (fun t => decide (p.count < t + dayTicks))).map (fun _ => 0)

/-- Package reset (R434, R477): everything but what is fused, in flash, in the non-volatile record, or kept across resets: the
stacks' trips (R430), the reset count and the anti-rollback counter; records not yet written are lost, and the local count starts afresh. -/
def packageReset (p : Pkg) (cause : Nat) : Pkg :=
  { Pkg.reset with
    rg := { Pkg.reset.rg with
      blocks := (allDomains.flatMap domainPages).map (fun (g : Page) => (g, { Block.reset with state := .off }))
      regs := (p.rg.regs.filter (fun kv => kv.1.page == .fuse || (kv.1.page == .sec && kv.1.off == 0x088) || (kv.1.page == .sec && kv.1.off == 0x084)))
        ++ [(⟨.reeve, 0x094⟩, getReg p .reeve 0x094), (⟨.reeve, 0x090⟩, getReg p .reeve 0x094)] }
    spares := p.spares, retired := p.retired, boots := p.boots
    nvPending := [], nvRecords := p.nvRecords
    stackUnits := p.stackUnits.filterMap (fun kv => if kv.2.tripped then some (kv.1, { Stack.reset with tripped := true, railCut := kv.2.railCut }) else none)
    free := p.free, out := p.out
    dbg := { Pkg.reset.dbg with ir := if cause = 0x03 then Pkg.reset.dbg.ir else p.dbg.ir, boundary := if cause = 0x03 then [] else p.dbg.boundary }
    boot := { Pkg.reset.boot with
      stage := .held, cause := cause, count := if cause = 0x03 then 0 else min 65535 (p.boot.count + 1)
      flash := p.boot.flash, counter := p.boot.counter, revoked := p.boot.revoked, tables := p.boot.tables, chip := p.boot.chip }
    pw := { Pkg.reset.pw with cut := allDomains }
    rv := { Pkg.reset.rv with
      rejections := if cause = 0x04 then [] else carriedRejections p, withdrawn := if cause = 0x04 then [] else p.rv.withdrawn } }

end Sys2Proof.Machine
end

