-- ==== Sys2Proof/Machine/Power.lean ====
section
/-! DEFINITION. Power states (R413–R423), sensors and throttling (R424–R426), trips (R428–R430). -/
namespace Sys2Proof.Machine
open Sys2Proof

/-! ## Requests (R415) -/

def pwrCfg (p : Pkg) : Word := getReg p .pwr 0x088

/-- The state code of a die. -/
def dieState (p : Pkg) (d : Fin 4) : Nat := Map.getD p.pw.die d 0
def setDie (p : Pkg) (d : Fin 4) (s : Nat) : Pkg := { p with pw := { p.pw with die := Map.put p.pw.die d s } }
/-- The dies of a mask. -/
def maskDies (m : Nat) : List (Fin 4) := (List.finRange 4).filter (fun d => m.testBit d.val)
/-- Whether every context of a die is IDLE. -/
def dieIdle (p : Pkg) (d : Fin 4) : Bool := p.ctxs.all (fun kv => kv.1.core.die != d || kv.2.state == .idle)

/-- The decision of R415, by the first row that applies; none arms the request. -/
def pwrDecide (p : Pkg) (target mask round : Nat) : Option Status :=
  let k := (round + 2 ^ 24 - roundNow p % 2 ^ 24) % 2 ^ 24
  if 5 ≤ target ∨ (target ≤ 2 ∧ mask = 0) ∨ (3 ≤ target ∧ mask ≠ 0) then some Status.failedFormat
  else if p.pw.trans.isSome then some Status.refusedBusy
  else if 2 ≤ target ∧ p.serving then some Status.refusedPower
  else if target = 1 ∧ (maskDies mask).any (fun d => !dieIdle p d) then some Status.refusedPower
  else if k < 2 ∨ 2 ^ 23 ≤ k then some Status.refusedPower
  else if target ≤ 2 ∧ (maskDies mask).any (fun d => dieState p d == target) then some Status.done
  else none

/-- PWR_LAST (R432). -/
def setLast (p : Pkg) (st : Status) (mask reached : Nat) : Pkg :=
  setReg p .pwr 0x098 (BitVec.ofNat 32 (st.toNat * 65536 + mask * 16 + reached))

/-- A commit of PWR_REQ (R415, R432): armed, or discarded with req_refused and its status in PWR_LAST; a
reserved target sets pair_err and rsvd_write as well (R44). -/
def pwrReq (p : Pkg) (v : Word) : Pkg × Option Status :=
  let target := bits v 2 0
  let mask := bits v 7 4
  let round := bits v 31 8
  match pwrDecide p target mask round with
  | some st =>
    let q := raise (setLast p st mask (if st = Status.done then target else 0)) .pwr evReqRefused
    (if 5 ≤ target then raiseAll q .pwr [evPairErr, evRsvdWrite] else q, some st)
  | none =>
    let q := storePair p .pwr 0x090 (v &&& 0xFFFFFFF7#32)
    let q := if bit v 3 then raise q .pwr evRsvdWrite else q
    (tallyIn { q with pw := { q.pw with trans := some ⟨target, mask, round, false, false, [], q.count⟩ } } .pwr 1, none)

/-- PWR_REQ_COMMIT. -/
def execPwrReqCommit (value : Word) (s : State) : Host.Outcome State Fault Refusal :=
  act s (fun p => if stateOf p .pwr = .off then p else (pwrReq p value).1)

/-- POWER (R374, R415): Caselm commits PWR_REQ; a request that is not armed is answered at once, an armed one at its round. A round of
0 names the fourth after the present one. -/
def power (p : Pkg) (src : CmdSrc) : Pkg :=
  serve p src 0x04 (fun q k pk =>
    let target := pk.arg0 % 8
    let mask := pk.arg0 / 256 % 16
    let round := if pk.arg1 = 0 then roundNow q + 4 else pk.arg1
    match pwrReq q (BitVec.ofNat 32 (round % 2 ^ 24 * 256 + mask * 16 + target)) with
    | (r, some st) => finish r k 0x04 st [] []
    | (r, none) => keepRunning r k pk)

def execPowerCmd (src : CmdSrc) (s : State) : Host.Outcome State Fault Refusal := act s (fun p => power p src)

/-! ## Transitions (R416–R423) -/

/-- Whether bell time is in slot 0 of a transition's round (R57). -/
def roundCome (p : Pkg) (round : Nat) : Bool := roundNow p % 2 ^ 24 == round % 2 ^ 24 && slotOf p.bell == 0

/-- The blocks of a domain leave ENABLED with cause 0x06 (R416). -/
def drainDomain (p : Pkg) (d : Domain) : Pkg :=
  (domainPages d).foldl (fun q g => if enabled q g then leaveEnabled q g .draining 0x06 else q) p

/-- The domains that an entry cuts, in order (R416, R423): the named dies; for P3 every die and then HD, with the stacks after it
when p3_dram = 0 or the target is P4. -/
def entryCuts (p : Pkg) (t : Transition) : List Domain :=
  if t.target = 2 then (maskDies t.dies).map Domain.die
  else (List.finRange 4).map Domain.die ++ [.hub]
    ++ (if t.target = 4 ∨ !bit (pwrCfg p) 21 then (List.finRange 12).map Domain.stack else [])

/-- A transition ends: transition_done, PWR_LAST, the PWR item, and in P2 or P0 the states of the named dies. -/
def endTransition (p : Pkg) (t : Transition) : Pkg :=
  let q := raise (setLast (endItem p .pwr t.target Status.done) Status.done t.dies (if t.exit then 0 else min t.target 3)) .pwr evTransition
  { q with pw := { q.pw with trans := none } }

/-- The reply to the power command, at slot 0 of its round. -/
def answerPower (p : Pkg) : Pkg := endRuns p (fun r => r.code == 0x04) Status.done [] []

/-- POWER_TRANSITION_START (R416): at slot 0 of the armed round an entry to P2, P3 or P4 begins; one to P3 uses p3_dram, which must pass its
check (R42). -/
def transitionStart (p : Pkg) : Pkg :=
  match p.pw.trans with
  | some t =>
    if !t.running && roundCome p t.round && decide (2 ≤ t.target) then usePairs p .pwr (if t.target = 3 then [0x088] else []) fun p =>
      let q := bump (answerPower p) .pwr 0x100 1
      let cuts := entryCuts q t
      let ds := cuts.filter (fun d => match d with | .stack _ => false | _ => true)
      let ds := ds.flatMap (fun d => match d with | .die k => [d, .optics k] | _ => [d])
      let q := ds.foldl drainDomain q
      { q with pw := { q.pw with trans := some { t with running := true, left := cuts, start := q.count }, forced := false } }
    else p
  | none => p

def execPowerTransitionStart (s : State) : Host.Outcome State Fault Refusal := act s transitionStart

/-- P2_EXIT_START (R415, R420): at slot 0 of the armed round a transition to P0 or P1 begins. Dies in P2 power up; the others change
state at once. -/
def exitStart (p : Pkg) : Pkg :=
  match p.pw.trans with
  | some t =>
    if !t.running && roundCome p t.round && decide (t.target < 2) then
      let q := bump (answerPower p) .pwr 0x100 1
      let off := (maskDies t.dies).filter (fun d => dieState q d == 2)
      let q := ((maskDies t.dies).filter (fun d => dieState q d != 2)).foldl (fun q d => setDie q d t.target) q
      let t' := { t with running := true, exit := true, left := off.map Domain.die, start := q.count }
      if off.isEmpty then endTransition { q with pw := { q.pw with trans := some t' } } { t' with exit := t.target == 0 }
      else { q with pw := { q.pw with trans := some t' } }
    else p
  | none => p

def execP2ExitStart (s : State) : Host.Outcome State Fault Refusal := act s exitStart

/-- Whether every drain of a domain has ended. -/
def drained (p : Pkg) (d : Domain) : Bool := (domainPages d).all (fun g => (Map.look p.rg.drains g).isNone)

/-- The save of a domain to its Hearth slot (R417), an item of HRTH: kept when it reads back. -/
def saveDomain (p : Pkg) (d : Domain) (ok : Bool) : Pkg :=
  let q := tallyIn p .hrth 1
  endItem { q with pw := { q.pw with slots := if ok then Map.put q.pw.slots d (saveOf q d) else Map.drop q.pw.slots d } } .hrth 0
    (if ok then Status.done else Status.failedCrc)

/-- DOMAIN_CUT (R416, R418): the next domain of a running entry is saved and then cut, or held in retention when PWR_CFG.retain asks for
it, the read-back fails, or Hearth's memory check has failed. A PWR_CFG that fails its own check is not used (R42). -/
def domainCut (p : Pkg) (d : Domain) (ok : Bool) : Pkg :=
  match p.pw.trans with
  | some t =>
    let opt : Bool := match d with | .die k => drained p (.optics k) | _ => true
    let saves : Bool := match d with | .die _ | .hub => true | _ => false
    if t.running && !t.exit && t.left.head? == some d && drained p d && opt then usePairs p .pwr (if saves then [0x088] else []) fun p =>
      let q := if saves then saveDomain p d ok else p
      let forced := saves && (!ok || p.pw.memFail)
      let q := if forced then
          { (raise (bump q .pwr 0x118 1) .pwr evRetainForced) with
            pw := { (raise (bump q .pwr 0x118 1) .pwr evRetainForced).pw with forced := true, forcedDue := true } } else q
      let q := cutDomain q d 0x06 (saves && (bit (pwrCfg p) 22 || forced))
      { q with pw := { q.pw with trans := some { t with left := t.left.drop 1 } } }
    else p
  | none => p

def execDomainCut (domain : Domain) (readBackOk : Bool) (s : State) : Host.Outcome State Fault Refusal :=
  act s (fun p => domainCut p domain readBackOk)

/-- A wake is logged (R421, R433). -/
def logWake (p : Pkg) (code port : Nat) : Pkg :=
  let q := setReg p .hrth 0x098 (BitVec.ofNat 32 (code * 2 ^ 24 + port * 2 ^ 16))
  raise (bump (setReg64 q .hrth 0x0A0 (BitVec.ofNat 64 q.count)) .pwr 0x108 1) .pwr evWake

/-- The exit from P3 begins (R420): HD, then the dies, and the stacks that were cut. -/
def exitP3 (p : Pkg) : Pkg :=
  let p := bump p .pwr 0x100 1
  let left := [Domain.hub] ++ (List.finRange 4).map Domain.die ++ ((List.finRange 12).map Domain.stack).filter (fun d => p.pw.cut.contains d)
  tallyIn { p with
    pw := { p.pw with trans := some ⟨0, 0, 0, true, true, left, p.count⟩, wake := none }
    pins := { p.pins with pdnReady := false } } .pwr 1

/-- The exit of named dies from P2 begins. -/
def exitP2 (p : Pkg) (mask : Nat) : Pkg :=
  let p := bump p .pwr 0x100 1
  tallyIn { p with pw := { p.pw with trans := some ⟨0, mask, 0, true, true, (maskDies mask).map Domain.die, p.count⟩, wake := none } } .pwr 1

/-- A forced fallback is recorded by Caselm after the exit (R418). -/
def recordForced (p : Pkg) : Pkg :=
  if p.pw.forcedDue ∧ p.boot.stage = .caselm then record { p with pw := { p.pw with forcedDue := false } } (some .pwr) evRetainForced 0 1 false [] else p

/-- POWER_STATE_REACHED (R422, R423): nothing is left of a running transition. After an entry the state is reached, a P4 request writes its
record and raises PDN_READY, and a latched wake is replayed at once; after an exit P0 is reached, from P3 once Caselm runs. -/
def stateReached (p : Pkg) : Pkg :=
  match p.pw.trans with
  | some t =>
    if !t.running || !t.left.isEmpty then p
    else if t.exit then
      if t.dies ≠ 0 then recordForced (endTransition ((maskDies t.dies).foldl (fun q d => setDie q d t.target) p) t)
      else if p.boot.stage = .caselm then recordForced (endTransition p t)
      else p
    else
      let q := endTransition p t
      let q := if t.target = 2 then (maskDies t.dies).foldl (fun q d => setDie q d 2) q
        else { q with pw := { q.pw with p3 := true, die := [] } }
      let q := if t.target = 4 then
          { (record q (some .pwr) evTransition 0 0 true [4]) with pins := { (record q (some .pwr) evTransition 0 0 true [4]).pins with pdnReady := true } } else q
      match q.pw.wake with
      | some _ =>
        let q := raise (bump q .pwr 0x110 1) .pwr evWakeReplayed
        if t.target = 2 then exitP2 q t.dies else exitP3 q
      | none => q
  | none => p

def execPowerStateReached (s : State) : Host.Outcome State Fault Refusal := act s stateReached

/-- P1_AUTO_ENTER (R414): with p1_auto, a die in P0 whose contexts have all been IDLE for p1_delay enters P1. -/
def p1Enter (p : Pkg) (d : Fin 4) : Pkg :=
  let us := bits (pwrCfg p) 31 24
  usePairs p .pwr [0x088] (fun p =>
    if bit (pwrCfg p) 23 ∧ dieState p d = 0 ∧ dieIdle p d ∧ !p.pw.cut.contains (.die d)
        ∧ Map.getD p.pw.idleAt d 0 + (if us = 0 then 100 else us) * 1000 ≤ p.count then setDie p d 1
    else p)

def execP1AutoEnter (die : Fin 4) (s : State) : Host.Outcome State Fault Refusal := act s (fun p => p1Enter p die)

/-- Whether a source is enabled in HRTH_CFG and WAKE_PORTS (R421). -/
def wakeEnabled (p : Pkg) : WakeSource → Bool
  | .burst n | .light n => bit (getReg p .hrth 0x088) 0 && bit (getReg p .hrth 0x090) n.val
  | .mgmt b => bit (getReg p .hrth 0x088) 1 && (packetOf b 4).hcrcOk
  | .i3c _ => bit (getReg p .hrth 0x088) 2
  | .cooled => p.pw.trips.contains 4

/-- The wake log code and port of a source. -/
def wakeCode : WakeSource → Nat × Nat
  | .burst n => (1, n.val)
  | .light n => (2, n.val)
  | .mgmt _ => (3, 0)
  | .i3c _ => (4, 0)
  | .cooled => (5, 0)

/-- Whether HD is off, in P3 or at the end of the entry to it, or in the exit from it Caselm does not run yet, so that Hearth holds what arrives
on the management paths (R421). -/
def hearthHolds (p : Pkg) : Bool :=
  p.pw.p3 || p.pw.cut.contains .hub || p.pw.kept.contains .hub
    || (p.boot.stage != .caselm && (match p.pw.trans with | some t => t.running && t.exit && t.dies == 0 | none => false))

/-- A packet that arrives in P3 is held in order, 16 of them; a full buffer sends PAUSE, an I3C write that finds one held is NACKed. -/
def holdPacket (p : Pkg) (w : WakeSource) : Pkg :=
  if !hearthHolds p then p
  else
    match w with
    | .mgmt b =>
      if p.pw.held.length < 16 then tallyIn { p with pw := { p.pw with held := p.pw.held ++ [b] } } .mgmt 1
      else emit (raise p .hrth 17) (.pause false)
    | .i3c b =>
      if p.pw.heldI3c.isNone then tallyIn { p with pw := { p.pw with heldI3c := some b } } .mgmt 1
      else emit p (.pause true)
    | _ => p

/-- A burst or light on a port of a die in P2 sets wake_rx in its SEL page (R421). -/
def lightInP2 (p : Pkg) : WakeSource → Pkg
  | .burst n | .light n => if !p.pw.p3 && dieState p (dieOfPort n) == 2 then raise p (.sel (seOfPort n)) evWakeRx else p
  | _ => p

/-- WAKE_DETECT (R421, R422): in P3 an enabled source starts the exit; during an entry it is latched, the first one only; during an exit it
is counted and changes nothing. A burst or light on a port of a die in P2 sets wake_rx and wakes nothing. -/
def wakeDetect (p : Pkg) (w : WakeSource) : Pkg :=
  let q := lightInP2 (holdPacket p w) w
  if w ≠ .cooled ∧ !(pairOk p .hrth 0x088 && pairOk p .hrth 0x090) then cmpFail q .hrth
  else if !wakeEnabled p w then q
  else
    match p.pw.trans with
    | some t =>
      if !t.running then q
      else if t.exit then bump q .pwr 0x108 1
      else if p.pw.wake.isSome then q
      else
        let q := logWake q (wakeCode w).1 (wakeCode w).2
        { q with pw := { q.pw with wake := some (wakeCode w) } }
    | none => if p.pw.p3 then exitP3 (logWake q (wakeCode w).1 (wakeCode w).2) else q

def execWakeDetect (source : WakeSource) (s : State) : Host.Outcome State Fault Refusal := act s (fun p => wakeDetect p source)

/-- DOMAIN_RESTORE (R419, R420): the next domain of an exit powers up; HD starts the recovery ROM. -/
def domainRestore (p : Pkg) (d : Domain) (ok : Bool) : Pkg :=
  match p.pw.trans with
  | some t =>
    if t.running ∧ t.exit ∧ t.left.head? = some d then
      let q := match d with
        | .die k => setDie (restoreDie p k ok) k 0
        | _ => restoreDomain p d ok
      let q := if d = .hub then
          { q with pw := { q.pw with p3 := false }, boot := { q.boot with stage := .hearth, at_ := q.count, cause := if q.pw.trips.contains 4 then 0x06 else 0x07 } } else q
      { q with pw := { q.pw with trans := some { t with left := t.left.drop 1 } } }
    else p
  | none => p

def execDomainRestore (domain : Domain) (slotOk : Bool) (s : State) : Host.Outcome State Fault Refusal :=
  act s (fun p => domainRestore p domain slotOk)

/-! ## Sensors and throttling (R424, R425) -/

def Thermal.reset : Thermal := ⟨[], [], 0, 0, false, none⟩
def thermalOf (p : Pkg) (i : Fin 5) : Thermal := Map.getD p.pw.sensors i Thermal.reset

/-- A reading put in its place in a rising list. -/
def insertInt : List Int → Int → List Int
  | [], k => [k]
  | a :: r, k => if k ≤ a then k :: a :: r else a :: insertInt r k

/-- Twice the median of readings. -/
def median2 (l : List Int) : Int :=
  let s := l.foldl insertInt []
  nth s ((s.length - 1) / 2) 0 + nth s (s.length / 2) 0

/-- Whether a reading fails (R424): below −20 °C, above 150 °C, or more than 20 °C from the median of its die. -/
def readingFails (med2 r : Int) : Bool :=
  decide (r < -320) || decide (2400 < r) || decide (640 < 2 * r - med2) || decide (640 < med2 - 2 * r)

/-- The greatest valid reading and its sensor. -/
def hottest (failed : List Nat) : Nat → List Int → Int × Nat → Int × Nat
  | _, [], b => b
  | i, r :: rest, b => hottest failed (i + 1) rest (if !failed.contains i && decide (b.1 < r) then (r, i) else b)

/-- A duty change at a sample (R425): the new duty and the sensor record. -/
def dutyStep (cfg : Word) (now : Nat) (x : Thermal) (tmax : Int) (d : Nat) : Nat × Thermal :=
  let thr : Int := (bits cfg 31 24 * 16 : Nat)
  let low := bits cfg 15 12 + 1
  if thr ≤ tmax then (max low (d - (if x.above then 1 else bits cfg 23 20)), { x with above := true, coolAt := none })
  else if tmax ≤ thr - (bits cfg 19 16 * 16 : Nat) then
    let since := x.coolAt.getD now
    if since + bits cfg 11 8 * 1000000 ≤ now then (min 16 (d + 1), { x with above := false, coolAt := some now })
    else (d, { x with above := false, coolAt := some since })
  else (d, { x with above := false, coolAt := none })

/-- SENSOR_SAMPLE (R424, R425): a sample of a die's 32 sensors or of HD's 12. -/
def sensorSample (p : Pkg) (i : Fin 5) (readings : List Int) : Pkg :=
  let g : Page := ⟨0x06, i.val⟩
  let n := if i.val = 4 then 12 else 32
  if readings.length ≠ n ∨ stateOf p g = .off then p
  else if !pairOk p g 0x088 then cmpFail p g
  else
    let x := thermalOf p i
    let alive := (List.range n).filter (fun k => !x.failed.contains k)
    let med := median2 (alive.map (fun k => nth readings k 0))
    let new := alive.filter (fun k => readingFails med (nth readings k 0))
    let failed := x.failed ++ new
    let (tmax, hot) := hottest failed 0 readings (-4096, 0)
    let cfg := getReg p g 0x088
    let x := { x with readings := readings, failed := failed, tmax := tmax, hot := hot }
    let q := new.foldl (fun q k => record (raise q g 20) (some g) 20 0 1 false [k]) p
    if h : i.val < 4 then
      let d : Fin 4 := ⟨i.val, h⟩
      let duty := Map.getD p.pw.thermal d 16
      let (duty', x') := if bit cfg 0 then dutyStep cfg p.count x tmax duty else (16, { x with above := false, coolAt := none })
      let q := { q with pw := { q.pw with thermal := Map.put q.pw.thermal d duty', sensors := Map.put q.pw.sensors i x' } }
      let q := if duty < 16 then bump q g 0x200 10000 else q
      if duty = 16 ∧ duty' < 16 then raise q g 16 else if duty < 16 ∧ duty' = 16 then raise q g 17 else q
    else
      let hotNow := decide (((bits cfg 31 24 * 16 : Nat) : Int) ≤ tmax)
      let q := { q with pw := { q.pw with sensors := Map.put q.pw.sensors i { x with above := hotNow } } }
      if hotNow ∧ !x.above then raise (bump q g 0x208 1) g 18 else q

def execSensorSample (inst : Fin 5) (readings : List Int) (s : State) : Host.Outcome State Fault Refusal :=
  act s (fun p => sensorSample p inst readings)

/-! ## Trips (R428–R430) -/

/-- The items still held by the pages of a domain. -/
def heldItems (p : Pkg) (d : Domain) : Nat := ((domainPages d).map (fun g => (tallyHeld p g).toNat)).sum

/-- A die is cut by a trip or a loss of its rail (R397, R429): quarantine with a manifest in force, no drain, and the held count in the
record. -/
def loseDie (p : Pkg) (d : Fin 4) (code : Nat) (cause : Nat) : Pkg :=
  let q := if p.serving then quarantine p else p
  let held := heldItems q (.die d)
  record (cutDomain q (.die d) cause false) (some ⟨0x06, d.val⟩) code 0 3 true [held]

/-- Whether a domain's rail was lost within the last 10 µs, so that a trip on it takes precedence (R475). -/
def lossFresh (p : Pkg) (d : Domain) : Bool := (Map.getD p.pins.losses d []).any (fun t => decide (p.count < t + 10000))

/-- What the newest record of a page with a code holds beside its head. -/
def lossDetail (p : Pkg) (g : Page) (code : Nat) : List Nat :=
  match (p.records.filter (fun r => r.type == g.type && r.inst == g.inst && r.code == code)).getLast? with | some r => r.detail | none => [0]

/-- A trip takes the place of the loss of the same domain's rail (R475): the newest record of the page with that code is dropped, the loss
holds the rail back no longer, and the pages name the trip. -/
def dropLoss (p : Pkg) (d : Domain) (g : Page) (code : Nat) : Pkg :=
  let mine (r : EvtRec) : Bool := r.type == g.type && r.inst == g.inst && r.code == code
  let n := ((p.records.filter mine).map (fun r => r.seq)).getLast?
  let q := (g :: domainPages d).foldl (fun q h => if (block q h).cause = 0x06 then setBlock q h { block q h with cause := 0x07 } else q) p
  { q with
    records := p.records.filter (fun r => !(mine r && some r.seq == n))
    nvPending := p.nvPending.filter (fun r => !(mine r && some r.seq == n))
    pins := { p.pins with
      losses := Map.put p.pins.losses d ((Map.getD p.pins.losses d []).filter (fun t => !decide (p.count < t + 10000)))
      barred := p.pins.barred.filter (· != d), again := Map.drop p.pins.again d } }

/-- The die's trip is latched: THRM*k*'s event and count, and the die stays off until it has cooled (R428). -/
def latchTrip (p : Pkg) (d : Fin 4) : Pkg :=
  let i : Fin 5 := ⟨d.val, by omega⟩
  raise (bump { p with pw := { p.pw with trips := i :: p.pw.trips.filter (· != i) } } ⟨0x06, d.val⟩ 0x210 1) ⟨0x06, d.val⟩ 19

/-- TRIP_COMPUTE_DIE (R428): a trip sensor at 115 °C; the die and its optics are cut with no drain. One whose rail fell within the last 10 µs is
off already, and the trip takes the loss's place (R475). -/
def tripDie (p : Pkg) (d : Fin 4) : Pkg :=
  if p.pw.cut.contains (.die d) ∨ p.pw.kept.contains (.die d) then
    if lossFresh p (.die d) then
      latchTrip (record (dropLoss p (.die d) ⟨0x06, d.val⟩ 0x0125) (some ⟨0x06, d.val⟩) 19 0 3 true
        (lossDetail p ⟨0x06, d.val⟩ 0x0125)) d
    else p
  else latchTrip (loseDie p d 19 0x07) d

def execTripComputeDie (die : Fin 4) (s : State) : Host.Outcome State Fault Refusal := act s (fun p => tripDie p die)

/-- Every die and HD are cut with no drain, and the package is as in P3 (R428, R475); with a manifest in force it is quarantined. A power change
that was armed or running ends failed.disabled. -/
def loseHub (p : Pkg) (cause : Nat) : Pkg :=
  let q := if p.serving then quarantine p else p
  let q := match q.pw.trans with | some t => endItem q .pwr t.target Status.failedDisabled | none => q
  let held := (allDomains.map (heldItems q)).sum
  let q := ((List.finRange 4).map Domain.die ++ [Domain.hub]).foldl (fun q d => if q.pw.cut.contains d then q else cutDomain q d cause false) q
  let q := record q (some .hrth) 19 0 3 true [held]
  { q with pw := { q.pw with p3 := true, trans := none, wake := none, die := [] } }

/-- TRIP_HUB (R428): an HD trip sensor at 115 °C. A loss of VHUB within the last 10 µs counts as this trip: its one record stands for it, and HD
waits until it has cooled (R475). -/
def tripHub (p : Pkg) : Pkg :=
  let trip (q : Pkg) : Pkg := { q with pw := { q.pw with trips := 4 :: q.pw.trips.filter (· != 4) } }
  if p.pw.cut.contains .hub then
    if lossFresh p .hub then trip { p with pins := { p.pins with losses := Map.drop p.pins.losses .hub, again := Map.drop p.pins.again .hub } } else p
  else trip (loseHub p 0x07)

def execTripHub (s : State) : Host.Outcome State Fault Refusal := act s tripHub

/-- TRIP_STACK (R231, R428): refresh temperature at 105 °C; the MEMC page drains to FAULT with cause 0x07. Within 10 µs of the loss of its rail the
trip alone is recorded (R475). -/
def tripStack (p : Pkg) (n : Fin 12) : Pkg :=
  let x := stackOf p n
  if x.tripped then
    if lossFresh p (.stack n) then record (dropLoss p (.stack n) (.memc n) evStateChange) (some (.memc n)) evStateChange 0 3 true [7] else p
  else
    let q := setStack p n { x with tripped := true, coolAt := none }
    record (enterFault q (.memc n) 0x07) (some (.memc n)) evStateChange 0 3 true [7]

def execTripStack (stack : Fin 12) (s : State) : Host.Outcome State Fault Refusal := act s (fun p => tripStack p stack)

/-- A stack's rail goes and its contents with it (R428, R475). -/
def loseStack (p : Pkg) (n : Fin 12) (cause : Nat) : Pkg :=
  let q := enterFault p (.memc n) cause
  let q := cutDomain (setStack q n { stackOf q n with tripped := true, railCut := true, coolAt := none }) (.stack n) cause false
  record { q with lost := Map.put q.lost n.val [] } (some (.memc n)) evStateChange 0 3 true [8]

/-- TRIP_STACK_RAIL_CUT (R428): at 110 °C. -/
def tripStackCut (p : Pkg) (n : Fin 12) : Pkg :=
  if (stackOf p n).tripped ∧ !(stackOf p n).railCut then loseStack p n 0x07 else p

def execTripStackRailCut (stack : Fin 12) (s : State) : Host.Outcome State Fault Refusal := act s (fun p => tripStackCut p stack)

/-- TRIP_SELVAGE (R428): a sensor at 105 °C; SEL goes to FAULT, its ports go OFF. -/
def tripSel (p : Pkg) (e : Fin 16) : Pkg :=
  let g := Page.sel e
  if stateOf p g = .off ∨ (stateOf p g = .fault ∧ (block p g).cause = 0x07) then p
  else record (enterFault p g 0x07) (some g) evStateChange 0 3 true [7]

def execTripSelvage (se : Fin 16) (s : State) : Host.Outcome State Fault Refusal := act s (fun p => tripSel p se)

/-- TRIP_COOLED (R428): every trip sensor of a tripped die or of HD is below 70 °C. The die powers up and its slot is restored; after a hub
trip the exit from P3 runs with wake code 0x5. -/
def tripCooled (p : Pkg) (i : Fin 5) (ok : Bool) : Pkg :=
  if !p.pw.trips.contains i then p
  else if h : i.val < 4 then
    let d : Fin 4 := ⟨i.val, h⟩
    if p.pw.p3 then p
    else
      let q := setDie (restoreDie p d ok) d 0
      record { q with pw := { q.pw with trips := q.pw.trips.filter (· != i) } } (some ⟨0x06, d.val⟩) 0x0113 0 1 false []
  else wakeDetect p .cooled

def execTripCooled (inst : Fin 5) (slotOk : Bool) (s : State) : Host.Outcome State Fault Refusal := act s (fun p => tripCooled p inst slotOk)

/-- STACK_TRIP_CLEAR (R430): after 10 s at or below 85 °C and a passed self-check, Caselm clears a tripped stack. One whose rail was cut is
restored from the mirrors page by page, and what has no mirror is reported lost. -/
def stackTripClear (p : Pkg) (n : Fin 12) : Pkg :=
  let x := stackOf p n
  match x.coolAt with
  | some t =>
    if x.tripped ∧ t + 10000000000 ≤ p.count ∧ enabled p (.memc n) then
      let q := setStack p n { x with tripped := false, railCut := false, coolAt := none }
      if x.railCut ∧ p.rv.job.isSome then { q with rv := { q.rv with restoring := Map.put q.rv.restoring n 0 } } else q
    else p
  | none => p

def execStackTripClear (stack : Fin 12) (s : State) : Host.Outcome State Fault Refusal := act s (fun p => stackTripClear p stack)

/-! ## What the registers of the power part read (R431–R433) -/

/-- THRM_STATUS. -/
def thrmStatus (p : Pkg) (i : Fin 5) : Word :=
  let x := thermalOf p i
  let duty := if h : i.val < 4 then dutyOf p ⟨i.val, h⟩ else 16
  BitVec.ofNat 32 ((duty - 1) * 2 ^ 28 + (if duty < 16 then 2 ^ 27 else 0) + (if i.val = 4 ∧ x.above then 2 ^ 26 else 0)
    + (BitVec.ofInt 12 x.tmax).toNat * 2 ^ 12 + x.hot % 64 * 64)

/-- SENSORk: valid, trip sensor, reading. The first sensors of a place are its trip sensors. -/
def sensorView (p : Pkg) (i : Fin 5) (k : Nat) : Word :=
  let x := thermalOf p i
  match x.readings[k]? with
  | some r => BitVec.ofNat 32 ((if x.failed.contains k then 0 else 2 ^ 31) + (if k < (if i.val = 4 then 2 else 4) then 2 ^ 30 else 0)
      + (BitVec.ofInt 12 r).toNat)
  | none => 0

/-- PWR_STATUS. -/
def pwrStatus (p : Pkg) : Word :=
  BitVec.ofNat 32 ((if p.pw.p3 then 3 * 2 ^ 29 else 0) + (if p.pw.trans.isSome then 2 ^ 28 else 0) + (if p.pw.forced then 2 ^ 27 else 0)
    + (if p.pw.wake.isSome then 2 ^ 26 else 0) + ((List.finRange 4).map (fun d => dieState p d % 4 * 2 ^ (16 + 2 * d.val))).sum
    + ((List.finRange 12).map (fun n => if p.pins.good.contains (.stack n) then 2 ^ (4 + n.val) else 0)).sum
    + ((List.finRange 4).map (fun k => if p.pins.good.contains (.optics k) then 2 ^ k.val else 0)).sum)

/-- HRTH_STATUS. -/
def hrthStatus (p : Pkg) : Word :=
  let doms := (List.finRange 4).map Domain.die ++ [.hub]
  let mask (t : Domain → Bool) : Nat := ((List.range 5).map (fun i => if t (nth doms i .hub) then 2 ^ i else 0)).sum
  BitVec.ofNat 32 (mask (fun d => (Map.look p.pw.slots d).isSome) * 2 ^ 16 + mask (fun d => p.pw.slotFail.contains d) * 2 ^ 8
    + min 16 p.pw.held.length)

/-- A commit of THRM_CFG (R431): values outside the stated ranges are discarded. -/
def thrmCfgCommit (p : Pkg) (g : Page) (v : Word) : Pkg :=
  if g.inst = 4 then commitPair p g 0x088 v 0xFF000F01#32
  else if bits v 31 24 < 70 ∨ 105 < bits v 31 24 ∨ bits v 23 20 = 0 ∨ 8 < bits v 23 20 ∨ bits v 19 16 = 0 ∨ bits v 15 12 = 0 ∨ bits v 11 8 = 0 then
    discardCommit p g
  else commitPair p g 0x088 v 0xFFFFFF01#32

end Sys2Proof.Machine
end

