-- ==== Sys2Proof/Machine/Boot.lean ====
section
/-! DEFINITION. The boot chain (R434, R441), images (R437–R443), attestation (R444–R446), and unlock tokens (R447–R449). -/
namespace Sys2Proof.Machine
open Sys2Proof

def evVerifyFail : Nat := 16
def evRollback : Nat := 17
def evUnlock : Nat := 18

/-- The generation that FUSE.PART_ID names (R5). -/
def partGeneration (p : Pkg) : Nat := bits (getReg p .fuse 0x080) 31 24

/-- The slots of R440 that hold a digest and, for images, are not revoked (SEC.KEYS, R450). -/
def imgUsable (p : Pkg) : Nat := ((List.range 4).map (fun i => if bit (getReg p .sec 0x084) i && !p.boot.revoked.contains i then 2 ^ i else 0)).sum
def keysView (p : Pkg) : Word := withBits (getReg p .sec 0x084) 3 0 (imgUsable p)

/-- SEC_STATUS (R450). -/
def secStatus (p : Pkg) : Word :=
  BitVec.ofNat 32 ((if p.boot.udsOpen then 2 ^ 31 else 0) + (if p.boot.aliasRsa then 2 ^ 30 else 0) + (if p.boot.octal then 2 ^ 29 else 0)
    + p.boot.lastCheck % 256 * 65536 + p.boot.lastStatus.toNat)

/-! ## The checks of R439 -/

/-- Whether a range of bytes is all zero. -/
def zeroRange (b : List Byte) (i n : Nat) : Bool := ((b.drop i).take n).all (· == 0)

/-- Bytes compared with a fused digest. -/
def digestIs (b : List Byte) (k : Nat) : Bool := b == (List.range 48).map (Config.keyDigest k)

/-- The length of an image's body. -/
def imageBody (b : List Byte) : Nat := leField b 16 4

/-- Check 1 of R439: magic, version, generation, lengths, offsets, reserved fields (R437, R438). -/
def imageFormatOk (p : Pkg) (b : List Byte) : Bool :=
  let n := imageBody b
  leField b 0 4 == 0x4C435146 && leField b 4 2 == 1 && leField b 6 1 == partGeneration p && decide (leField b 7 1 ≤ 3)
    && decide (leField b 12 1 ≤ 128) && decide (leField b 13 1 ≤ 1) && zeroRange b 14 2 && n % 64 == 0 && decide (64 ≤ n) && decide (n ≤ 5242880)
    && leField b 20 4 % 4 == 0 && decide (leField b 20 4 < n) && zeroRange b 120 136 && b.length == 256 + n + 17056
    && zeroRange b (256 + n + 436) 12

/-- The key block's checks (check 2): a usable slot, its digest, and the exponent. -/
def keyBlockOk (usable : Bool) (slot : Nat) (key : List Byte) : Bool :=
  usable && digestIs (sha384 key) slot && (key.drop 384).take 4 == [0x00#8, 0x01#8, 0x00#8, 0x01#8]

/-- The checks of an image in order: the first that fails and its status, or 0 and `done` (R439). -/
def imageCheck (p : Pkg) (b : List Byte) (c : SigChecks) : Nat × Status :=
  let n := imageBody b
  let key := (b.drop (256 + n)).take 448
  if !imageFormatOk p b then (1, Status.failedFormat)
  else if !(keyBlockOk ((imgUsable p).testBit (leField b 7 1)) (leField b 7 1) key && sha384 key == (b.drop 72).take 48) then (2, Status.failedSignature)
  else if sha384 ((b.drop 256).take n) ≠ (b.drop 24).take 48 then (3, Status.failedSignature)
  else if !c.rsa then (4, Status.failedSignature)
  else if !c.slh then (5, Status.failedSignature)
  else if leField b 12 1 < p.boot.counter then (6, Status.refusedRollback)
  else (0, Status.done)

/-- The flash image's check; of the image that the factory wrote only the signatures are in question. -/
def flashCheck (p : Pkg) (c : SigChecks) (readable : Bool) : Nat × Status :=
  if !readable then (1, Status.failedFormat)
  else
    match p.boot.flash with
    | some b => imageCheck p b c
    | none => if !c.rsa then (4, Status.failedSignature) else if !c.slh then (5, Status.failedSignature) else (0, Status.done)

/-- The header of the flash image. -/
def flashHeader (p : Pkg) : List Byte :=
  match p.boot.flash with
  | some b => b.take 256
  | none => (List.range 256).map Config.factoryHeader

/-- A verification is an item of the SEC page; its outcome is in SEC_STATUS, and a failure sets verify_fail or rollback (R450). -/
def secItem (p : Pkg) (check : Nat) (st : Status) : Pkg :=
  let q := endItem (tallyIn p .sec 1) .sec check st
  let q := { q with boot := { q.boot with lastStatus := st } }
  if st = Status.refusedRollback then raise q .sec evRollback else if st = Status.done then q else raise q .sec evVerifyFail

/-! ## The chain (R434) -/

/-! ## The test access port (R491) -/

def evJtagRefused : Nat := 18

/-- Whether EXTEST, CLAMP and HIGHZ are permitted (R491): RST_N low, or scope bit 5. -/
def jtagOpen (p : Pkg) : Bool := p.boot.stage == .held || p.boot.scope.testBit 5

/-- An instruction loaded into the TAP. -/
def loadIr (p : Pkg) (ir : Nat) : Pkg := { p with dbg := { p.dbg with ir := ir } }
/-- One that is not permitted acts as BYPASS and sets jtag_refused. -/
def jtagRefused (p : Pkg) : Pkg := raise (loadIr p 0xFF) .dbg evJtagRefused
/-- An instruction in force that is permitted no longer acts as BYPASS from now on. -/
def tapCheck (p : Pkg) : Pkg := if (p.dbg.ir == 3 || p.dbg.ir == 4 || p.dbg.ir == 5) && !jtagOpen p then jtagRefused p else p

/-- RESET_RELEASE (R434 step 1, R468, R474): the Hearth ROM starts; the straps are sampled, Hearth memory is checked, EN_HUB rises. -/
def resetRelease (p : Pkg) (mgmtSel : Bool) (addr : Nat) (memoryOk : Bool) : Pkg :=
  if p.boot.stage ≠ .held then p
  else
    let q := if memoryOk then p else raise p .hrth 16
    tapCheck { q with
      boot := { q.boot with stage := .hearth, at_ := q.count }
      pw := { q.pw with memFail := !memoryOk }
      pins := { q.pins with en := Map.put q.pins.en .hub q.count, mgmtSel := mgmtSel, addr := addr } }

def execResetRelease (mgmtSel : Bool) (addr : BitVec 3) (memoryOk : Bool) (s : State) : Host.Outcome State Fault Refusal :=
  act s (fun p => resetRelease p mgmtSel addr.toNat memoryOk)

/-- RECOVERY_ROM_START (R434 steps 1–3, R441): with HD powered the recovery ROM verifies the flash image, the UDS closes, and either the
body is loaded or the ROM stays in control. -/
def romStart (p : Pkg) (c : SigChecks) (readable octal : Bool) : Pkg :=
  if p.boot.stage = .rom ∨ (p.boot.stage = .hearth ∧ p.pins.good.contains .hub) then
    let (k, st) := flashCheck p c readable
    let q := secItem p k st
    let b := { q.boot with octal := octal, udsOpen := false, lastCheck := k, at_ := q.count }
    if st = Status.done then { q with boot := { b with stage := .booting, header := flashHeader p } }
    else record { q with boot := { b with stage := .recovery } } none 0x0120 st 3 true [k]
  else p

def execRecoveryRomStart (checks : SigChecks) (readable octal : Bool) (s : State) : Host.Outcome State Fault Refusal :=
  act s (fun p => romStart p checks readable octal)

/-- CASELM_HANDOVER (R434 step 4, R367, R390, R435): all four Reeve cores run Caselm. It writes the boot record with the reset cause,
a watchdog record where the cause is one, and a record for each configuration record that fails its HMAC; and it reloads the
repair and offset tables from the others. -/
def handover (p : Pkg) (reload : List (Page × Nat × Nat × Word)) (bad : List Nat) : Pkg :=
  if p.boot.stage ≠ .booting then p
  else
    let q := { p with
      boots := p.boots + 1
      boot := { p.boot with stage := .caselm, at_ := p.count, aliasRsa := false }
      rv := { p.rv with wdogAt := p.count, snapAt := p.count }
      pw := { p.pw with trips := p.pw.trips.filter (· != 4) } }
    let q := if p.boot.flash.isSome then setReg q .reeve 0x084 (BitVec.ofNat 32 (leField q.boot.header 8 4)) else q
    let q := record q none 0x0100 0 0 true [p.boot.cause, p.boot.count]
    let q := if p.boot.cause = 0x05 then record q (some .reeve) 16 0 3 true [] else q
    let q := bad.foldl (fun q k => record q none 0x0121 Status.failedCrc 1 false [k]) q
    reload.foldl (fun q e => setEntry q e.1 e.2.1 e.2.2.1 e.2.2.2) q

def execCaselmHandover (reload : List (Page × Nat × Nat × Word)) (bad : List Nat) (s : State) : Host.Outcome State Fault Refusal :=
  act s (fun p => handover p reload bad)

/-- ALIAS_RSA_READY (R445): SEC has the Alias RSA key. -/
def aliasReady (p : Pkg) : Pkg := if p.boot.stage = .caselm then { p with boot := { p.boot with aliasRsa := true } } else p

def execAliasRsaReady (s : State) : Host.Outcome State Fault Refusal := act s aliasReady

/-! ## Staging -/

/-- Bytes staged at an offset; those of a later packet win. -/
def Staging.put (x : Staging) (off : Nat) (b : List Byte) : Staging := { x with written := x.written ++ [(off, b.length)], bytes := (off, b) :: x.bytes }

/-- The end of the range from a point on that is written, within a count of ranges. -/
def coveredTo : Nat → List (Nat × Nat) → Nat → Nat
  | 0, _, at_ => at_
  | n + 1, l, at_ =>
    match l.find? (fun r => decide (r.1 ≤ at_) && decide (at_ < r.1 + r.2)) with
    | some r => coveredTo n l (r.1 + r.2)
    | none => at_

/-- Whether every staged byte has been written. -/
def Staging.whole (x : Staging) : Bool := decide (x.total ≤ coveredTo x.written.length x.written 0)

/-- The staged byte at an offset. -/
def stagedByte (l : List (Nat × List Byte)) (i : Nat) : Byte :=
  match l.find? (fun r => decide (r.1 ≤ i) && decide (i < r.1 + r.2.length)) with
  | some r => nth r.2 (i - r.1) 0
  | none => 0

/-- The staged bytes. -/
def Staging.all (x : Staging) : List Byte := (List.range x.total).map (stagedByte x.bytes)

/-! ## Image commands (R442, R443) -/

/-- IMAGE_BEGIN. -/
def imageBegin (p : Pkg) (src : CmdSrc) : Pkg :=
  serve p src 0x10 (fun q k pk =>
    if 5260192 < pk.arg0 then finish q k 0x10 Status.failedFormat [] []
    else finish { q with boot := { q.boot with staging := some ⟨pk.arg0, 0, [], []⟩ } } k 0x10 Status.done [] [])

def execImageBegin (src : CmdSrc) (s : State) : Host.Outcome State Fault Refusal := act s (fun p => imageBegin p src)

/-- IMAGE_DATA. -/
def imageData (p : Pkg) (src : CmdSrc) : Pkg :=
  serve p src 0x11 (fun q k pk =>
    match q.boot.staging with
    | some x =>
      if x.total < pk.arg0 + pk.payload.length then finish q k 0x11 Status.failedFormat [] []
      else finish { q with boot := { q.boot with staging := some (x.put pk.arg0 pk.payload) } } k 0x11 Status.done [] []
    | none => finish q k 0x11 Status.failedFormat [] [])

def execImageData (src : CmdSrc) (s : State) : Host.Outcome State Fault Refusal := act s (fun p => imageData p src)

/-- A checked image is in the slot: revocation bits and the counter are blown (R440, R443), and the change is recorded. -/
def imageTaken (p : Pkg) (b : List Byte) (advance_ : Bool) : Pkg :=
  let slot := leField b 7 1
  let revoked := if leField b 13 1 = 1 then p.boot.revoked ++ (List.range slot).filter (fun i => !p.boot.revoked.contains i) else p.boot.revoked
  let counter := if advance_ then max p.boot.counter (leField b 12 1) else p.boot.counter
  record { p with boot := { p.boot with flash := some b, staging := none, revoked := revoked, counter := counter } } none 0x0122 0 0 true [leField b 8 4]

/-- IMAGE_COMMIT (R442): the staged image is whole and sound, is written to flash and read back, once more where that fails; with arg0[1],
and always in recovery, the package then resets. -/
def imageCommit (p : Pkg) (src : CmdSrc) (c : SigChecks) (tries : Nat) : Pkg :=
  serve p src 0x12 (fun q k pk =>
    match q.boot.staging with
    | none => finish q k 0x12 Status.failedFormat [] []
    | some x =>
      let resets := pk.arg0.testBit 1
      if resets ∧ q.serving then finish q k 0x12 Status.refusedBusy [] []
      else if !x.whole then finish q k 0x12 Status.failedFormat [] []
      else
        let b := x.all
        let (n, st) := imageCheck q b c
        let q := secItem q n st
        if st ≠ Status.done then finish q k 0x12 st [] []
        else if 2 ≤ tries then finish { q with boot := { q.boot with flash := some [] } } k 0x12 Status.failedCrc [] []
        else
          let q := finish (imageTaken q b (pk.arg0.testBit 0)) k 0x12 Status.done [] []
          if resets ∨ q.boot.stage = .recovery then packageReset q 0x08 else q)

def execImageCommit (src : CmdSrc) (checks : SigChecks) (failures : Fin 3) (s : State) : Host.Outcome State Fault Refusal :=
  act s (fun p => imageCommit p src checks failures.val)

/-- IMAGE_INFO. -/
def imageInfo (p : Pkg) (src : CmdSrc) : Pkg :=
  serve p src 0x13 (fun q k pk =>
    if 1 < pk.arg0 then finish q k 0x13 Status.failedFormat [] []
    else finish q k 0x13 Status.done [] (if pk.arg0 = 0 then q.boot.header else flashHeader q))

def execImageInfo (src : CmdSrc) (s : State) : Host.Outcome State Fault Refusal := act s (fun p => imageInfo p src)

/-! ## Attestation (R446) -/

/-- Bytes 0–319 of a report. -/
def reportHead (p : Pkg) (nonce : List Byte) : List Byte :=
  leBytes 4 1 ++ leBytes 4 16928 ++ nonce ++ leBytes 8 (if bellJoined p then p.bell.toNat else p.count) ++ leBytes 4 (getReg p .fuse 0x080).toNat
    ++ leBytes 2 (ownChip p).toNat ++ leBytes 1 p.boot.counter ++ leBytes 1 p.boot.ever
    ++ (List.range 48).map Config.romDigest ++ sha384 p.boot.header
    ++ (List.range 48).map (Config.fuseDigest ((p.boot.revoked.map (2 ^ ·)).sum))
    ++ (match p.rv.job with | some j => j.digest | none => List.replicate 48 0)
    ++ leBytes 4 (match p.rv.job with | some j => j.tag.toNat | none => 0) ++ leBytes 1 (cstate p) ++ List.replicate 67 0

/-- ATTEST: a report under both Alias keys, readable for 10 s; at most two are built at once, each within 300 ms. The signatures are open
values. -/
def attest (p : Pkg) (src : CmdSrc) : Pkg :=
  serve p src 0x14 (fun q k pk =>
    if pk.payload.length ≠ 32 then finish q k 0x14 Status.failedFormat [] []
    else if !q.boot.aliasRsa ∨ 2 ≤ (q.boot.reports.filter (fun r => decide (q.count < r.at_ + 300000000))).length then
      finish q k 0x14 Status.refusedBusy [] []
    else
      let (r, sig) := drawBytes q 16608
      let h := r.boot.nextHandle
      let x : Attested := ⟨h, reportHead r pk.payload ++ sig, r.count⟩
      finish (endItem (tallyIn { r with boot := { r.boot with reports := r.boot.reports ++ [x], nextHandle := h + 1 } } .sec 1) .sec h Status.done)
        k 0x14 Status.done [16928, h] [])

def execAttest (src : CmdSrc) (s : State) : Host.Outcome State Fault Refusal := act s (fun p => attest p src)

/-- ATTEST_READ. -/
def attestRead (p : Pkg) (src : CmdSrc) : Pkg :=
  serve p src 0x15 (fun q k pk =>
    match q.boot.reports.find? (fun r => r.handle == pk.arg0 && decide (q.count < r.at_ + 10000000000)) with
    | some r => finish q k 0x15 Status.done [] ((r.bytes.drop pk.arg1).take 2048)
    | none => finish q k 0x15 Status.failedFormat [] [])

def execAttestRead (src : CmdSrc) (s : State) : Host.Outcome State Fault Refusal := act s (fun p => attestRead p src)

/-- CERT_READ: the certificates' bytes and lengths are open values. -/
def certRead (p : Pkg) (src : CmdSrc) : Pkg :=
  serve p src 0x19 (fun q k pk =>
    if 3 < pk.arg0 then finish q k 0x19 Status.failedFormat [] []
    else
      let n := min 2048 (Config.certLen pk.arg0 - pk.arg1)
      finish q k 0x19 Status.done [] ((List.range n).map (fun i => Config.certByte pk.arg0 (if pk.arg0 < 2 then 0 else q.boots.toNat) (pk.arg1 + i))))

def execCertRead (src : CmdSrc) (s : State) : Host.Outcome State Fault Refusal := act s (fun p => certRead p src)

/-! ## Unlock (R448) -/

/-- DEBUG_CHALLENGE: 32 fresh bytes; a new challenge voids the one before. -/
def debugChallenge (p : Pkg) (src : CmdSrc) : Pkg :=
  serve p src 0x16 (fun q k _ =>
    let (r, b) := drawBytes q 32
    finish { r with boot := { r.boot with challenge := some (b, r.count) } } k 0x16 Status.done [] b)

def execDebugChallenge (src : CmdSrc) (s : State) : Host.Outcome State Fault Refusal := act s (fun p => debugChallenge p src)

/-- UNLOCK_DATA: bytes of the 17,312-byte token. -/
def unlockData (p : Pkg) (src : CmdSrc) : Pkg :=
  serve p src 0x17 (fun q k pk =>
    if 17312 < pk.arg0 + pk.payload.length then finish q k 0x17 Status.failedFormat [] []
    else finish { q with boot := { q.boot with token := { (q.boot.token.put pk.arg0 pk.payload) with total := 17312 } } } k 0x17 Status.done [] [])

def execUnlockData (src : CmdSrc) (s : State) : Host.Outcome State Fault Refusal := act s (fun p => unlockData p src)

/-- The checks of a token (R448): those of R439 against the debug slot, the device and the challenge, which is valid for 60 s and for one
use. -/
def tokenCheck (p : Pkg) (b : List Byte) (c : SigChecks) : Nat × Status :=
  let slot := leField b 90 2
  let key := (b.drop 256).take 448
  let usable := bit (getReg p .sec 0x084) (4 + slot) && decide (slot ≤ 1)
  if !(leField b 0 4 == 0x4B4F5446 && decide (leField b 88 2 < 128) && decide (slot ≤ 1) && decide (1 ≤ leField b 92 4) && decide (leField b 92 4 ≤ 86400)
      && zeroRange b 96 160 && zeroRange b 692 12) then (1, Status.failedFormat)
  else if !keyBlockOk usable (4 + slot) key then (2, Status.failedSignature)
  else if leField b 4 4 ≠ (getReg p .fuse 0x080).toNat ∨ (b.drop 8).take 48 ≠ (List.range 48).map Config.deviceDigest
      ∨ !(match p.boot.challenge with | some (x, t) => (b.drop 56).take 32 == x && decide (p.count < t + 60000000000) | none => false) then
    (3, Status.failedSignature)
  else if !c.rsa then (4, Status.failedSignature)
  else if !c.slh then (5, Status.failedSignature)
  else (0, Status.done)

/-- UNLOCK_COMMIT: the token's scope is granted for its duration, but with a manifest in force none with bit 0, 2 or 4. -/
def unlockCommit (p : Pkg) (src : CmdSrc) (c : SigChecks) : Pkg :=
  serve p src 0x18 (fun q k _ =>
    let b := q.boot.token.all
    let whole := q.boot.token.whole && q.boot.token.total == 17312
    let (n, st) := if whole then tokenCheck q b c else (1, Status.failedFormat)
    let q := secItem { q with boot := { q.boot with challenge := none, token := ⟨0, 0, [], []⟩ } } n st
    let scope := leField b 88 2
    if st ≠ Status.done then finish q k 0x18 st [] []
    else if q.serving ∧ (scope.testBit 0 || scope.testBit 2 || scope.testBit 4) then finish q k 0x18 Status.refusedBusy [] []
    else
      let ticks := leField b 92 4 * 1000000000
      let q := { q with boot := { q.boot with
        scope := scope, ever := q.boot.ever ||| scope, unlockAt := some (q.count + ticks), unlockEnd := q.bell + BitVec.ofNat 64 ticks } }
      finish (record (tapCheck (raise q .sec evUnlock)) (some .sec) evUnlock 0 1 true [scope]) k 0x18 Status.done [scope] [])

def execUnlockCommit (src : CmdSrc) (checks : SigChecks) (s : State) : Host.Outcome State Fault Refusal := act s (fun p => unlockCommit p src checks)

end Sys2Proof.Machine
end

