-- ==== Sys2Proof/Machine/Guests.lean ====
section
/-! DEFINITION. Stitch links, guest dies and the thimble (R451–R466). -/
namespace Sys2Proof.Machine
open Sys2Proof

def evModOut : Nat := 16
def evModIn : Nat := 17
def evLinkDown : Nat := 18
def evReplay : Nat := 19
def evGuestReject : Nat := 16
def evGuestRefused : Nat := 17
def evWinBad : Nat := 18
def evSnoopTimeout : Nat := 19
def evDoorbell : Nat := 20
def evRateHeld : Nat := 21

/-! ## Links (R451–R454) -/

def Stitch.reset : Stitch := ⟨0, 0, [], 0, 0, []⟩
def stitchOf (p : Pkg) (l : StitchId) : Stitch := Map.getD p.stitches l Stitch.reset
def setStitch (p : Pkg) (l : StitchId) (x : Stitch) : Pkg := { p with stitches := Map.put p.stitches l x }

/-- Modules of a link, and the fewest it runs with (R451). -/
def linkModules : StitchId → Nat | .hub _ => 16 | .selvage _ => 5 | .guest _ => 8
def linkMinimum : StitchId → Nat | .hub _ => 12 | .selvage _ => 4 | .guest _ => 4

/-- STCH_STATUS (R465). -/
def stitchStatus (p : Pkg) (l : StitchId) : Word :=
  let x := stitchOf p l
  let fast : Bool := match l with | .guest _ => false | _ => true
  BitVec.ofNat 32 (x.lstate * 2 ^ 28 + (if x.lstate = 2 ∧ fast = true then 2 ^ 27 else 0) + x.mods % 65536)

/-- The guest link goes DOWN (R463): every access in flight ends failed.link, the page enters FAULT and drains, Caselm records it. -/
def guestDown (p : Pkg) (g : Fin 2) : Pkg :=
  let x := thimOf p g
  let q := setStitch p (.guest g) { stitchOf p (.guest g) with lstate := 0 }
  let q := setThim q g { x with out := [], held := [], admitted := false, dir := [], wins := [], snoops := [] }
  let q := x.out.foldl (fun q o => emit (endItem q (.thim g) o.id Status.failedLink) (.fromGuest o.agent Status.failedLink [])) q
  let q := x.held.foldl (fun q a => emit q (.guest g a.id Status.failedLink [])) q
  record (enterFault q (.thim g) 0x09) (some (.stch (.guest g))) evLinkDown Status.failedLink 2 false []

def execGuestLinkDown (site : Fin 2) (s : State) : Host.Outcome State Fault Refusal := act s (fun p => guestDown p site)

/-- A link below its minimum goes DOWN (R454). -/
def stitchDown (p : Pkg) (l : StitchId) : Pkg :=
  let q := raise (setStitch p l { stitchOf p l with lstate := 0 }) (.stch l) evLinkDown
  let q := record (enterFault q (.stch l) 0x09) (some (.stch l)) evLinkDown Status.failedLink 2 false []
  match l with
  | .selvage n =>
    let q := failPort (failPort q (portOf2 n 0)) (portOf2 n 1)
    if enabled q (.sel n) then leaveEnabled q (.sel n) .draining 0x08 else q
  | .hub d =>
    let q := (diePorts d).foldl failPort q
    let q := if q.serving then quarantine q else q
    ((domainPages (.die d)).filter (fun g => g != .stch l)).foldl (fun q g => enterFault q g 0x09) q
  | .guest g => guestDown q g

/-- MODULE_OUT (R453, R454): a module leaves service, after a failed training or a retrain for a flit replayed 8 times. Three failed
trainings within 1 s keep it out until the next package reset. -/
def moduleOut (p : Pkg) (l : StitchId) (m : Nat) (failedTraining : Bool) (replays : Nat) : Pkg :=
  let x := stitchOf p l
  let g := Page.stch l
  if linkModules l ≤ m ∨ stateOf p g = .off then p
  else
    let recent := (Map.getD x.fails m []).filter (fun t => decide (p.count < t + 1000000000))
    let fails := if failedTraining then p.count :: recent else recent
    let was := x.mods.testBit m
    let mods := if was then x.mods - 2 ^ m else x.mods
    let x := { x with mods := mods, fails := Map.put x.fails m fails, gone := if 3 ≤ fails.length ∧ !x.gone.testBit m then x.gone + 2 ^ m else x.gone }
    let q := setStitch p l x
    let q := if replays = 0 then q else raise (bump (bump q g 0x118 replays) g 0x110 replays) g evReplay
    if !was then q
    else
      let q := raise (bump q g 0x120 1) g evModOut
      let n := popcount 16 mods
      if x.lstate = 2 ∧ n < linkMinimum l then stitchDown q l
      else
        match l with
        | .selvage e => if x.lstate = 2 ∧ n < 5 then revokePort (revokePort q (portOf2 e 0)) (portOf2 e 1) else q
        | _ => q

def execModuleOut (link : StitchId) (m : Fin 16) (failedTraining : Bool) (replays : Nat) (s : State) : Host.Outcome State Fault Refusal :=
  act s (fun p => moduleOut p link m.val failedTraining replays)

/-- MODULE_IN (R453): a module that is enabled and not out for good completes its training; with the link's minimum in service the link is
UP. The link of an empty site is never trained (R464). -/
def moduleIn (p : Pkg) (l : StitchId) (m : Nat) : Pkg :=
  let x := stitchOf p l
  let g := Page.stch l
  if linkModules l ≤ m ∨ stateOf p g = .off ∨ !inService p g ∨ x.gone.testBit m ∨ x.mods.testBit m then p
  else if !pairOk p g 0x088 then cmpFail p g
  else if !bit (getReg p g 0x088) m then p
  else
    let mods := x.mods + 2 ^ m
    let up := decide (linkMinimum l ≤ popcount 16 mods)
    let q := setStitch (raise p g evModIn) l { x with mods := mods, lstate := if up then 2 else if x.lstate = 0 then 1 else x.lstate }
    match l with
    | .guest n => if up ∧ x.lstate ≠ 2 then setThim q n { thimOf q n with upAt := q.count } else q
    | _ => q

def execModuleIn (link : StitchId) (m : Fin 16) (s : State) : Host.Outcome State Fault Refusal := act s (fun p => moduleIn p link m.val)

/-- STITCH_MESSAGE_RECEIVE (R455): a message on a reserved channel or with a bad complement is discarded and counted; any other gives its credits
to their channel (R456). A stream message is an item of the page; a coherence message from a guest answers its oldest snoop (R457; log entry
50). What else a message asks for is done by the commands of its channel. -/
def stitchReceive (p : Pkg) (l : StitchId) (h : DWord) : Pkg :=
  let x := stitchOf p l
  let g := Page.stch l
  let lines := bits h 13 8
  if x.lstate ≠ 2 then p
  else
    let q := bump p g 0x108 ((8 + 64 * lines + 255) / 256)
    if 5 ≤ bits h 2 0 ∨ bits h 63 48 + bits h 15 0 ≠ 0xFFFF ∨ 33 < lines ∨ bits h 15 14 ≠ 0 ∨ bits h 47 43 ≠ 0 then
      setStitch q l { x with malformed := x.malformed + 1 }
    else
      let ch := bits h 42 40
      let q := if bits h 39 32 = 0 then q else setStitch q l { x with credits := Map.put x.credits ch (Map.getD x.credits ch 0 + bits h 39 32) }
      if bits h 2 0 = 4 then endItem (tallyIn q g 1) g (bits h 31 16) Status.done
      else
        match l with
        | .guest n => if bits h 2 0 = 1 ∧ !(thimOf q n).snoops.isEmpty then setThim q n { thimOf q n with snoops := (thimOf q n).snoops.drop 1 } else q
        | _ => q

def execStitchMessageReceive (link : StitchId) (header : DWord) (s : State) : Host.Outcome State Fault Refusal :=
  act s (fun p => stitchReceive p link header)

/-! ## Admission (R458) -/

/-- The guest is rejected: FAULT with cause 0x09, guest_reject, a non-volatile record; the site counts as empty (R458, R464). -/
def rejectGuest (p : Pkg) (g : Fin 2) : Pkg :=
  let q := selfCheckDone (raise p (.thim g) evGuestReject) (.thim g) false
  let q := setThim q g { thimOf q g with admitted := false, rejected := true }
  record q (some (.thim g)) evGuestReject 0 2 true [g.val]

/-- GUEST_IDENTITY_RECORD (R458): the record that a fitted guest sends while its page is ENABLING. -/
def guestIdentity (p : Pkg) (g : Fin 2) (b : List Byte) : Pkg :=
  if stateOf p (.thim g) ≠ .enabling ∨ !siteFitted p g then p
  else
    let fused := (List.range 12).flatMap (fun i => leBytes 4 (getReg p .fuse (0x100 + 0x40 * g.val + 4 * i)).toNat)
    if leField b 0 1 = bits (getReg p .fuse 0x080) 15 8 ∧ leField b 1 1 = g.val ∧ (b.drop 16).take 48 = fused then
      selfCheckDone (setThim p g { thimOf p g with admitted := true }) (.thim g) true
    else rejectGuest p g

def execGuestIdentityRecord (site : Fin 2) (bytes : List Byte) (s : State) : Host.Outcome State Fault Refusal :=
  act s (fun p => guestIdentity p site bytes)

/-- GUEST_ID_TIMEOUT (R458): no record within 100 ms of the link's reaching UP. -/
def guestIdTimeout (p : Pkg) (g : Fin 2) : Pkg :=
  if stateOf p (.thim g) = .enabling ∧ siteFitted p g ∧ (stitchOf p (.guest g)).lstate = 2 ∧ (thimOf p g).upAt + 100000000 ≤ p.count then rejectGuest p g
  else p

def execGuestIdTimeout (site : Fin 2) (s : State) : Host.Outcome State Fault Refusal := act s (fun p => guestIdTimeout p site)

/-- GUEST_ALERT (R468): the alert line toward Caselm, which records it. -/
def execGuestAlert (site : Fin 2) (s : State) : Host.Outcome State Fault Refusal :=
  act s (fun p => if siteFitted p site then record p (some (.thim site)) 0x0123 0 1 false [site.val] else p)

/-! ## Windows (R459) -/

/-- The first local offset of Caselm's region (R368). -/
def caselmBase : Nat := 0x00BFC0000000

/-- Whether an inbound window's target lies in DRAM outside Caselm's region. -/
def inboundOk (base size : Nat) : Bool := decide (base + size ≤ caselmBase)

/-- THIM_WIN_OPEN: a closed window of a site in service (R4, R464) opens; an inbound one whose target lies elsewhere sets win_bad. -/
def thimOpen (p : Pkg) (g : Fin 2) (w : Nat) : Pkg :=
  let x := thimOf p g
  if (Map.look x.wins w).isSome ∨ stateOf p (.thim g) = .off ∨ !inService p (.thim g) then p
  else if !bit (thimWctl p g w) 31 ∧ !inboundOk (thimPbase p g w) (thimSize p g w) then raise p (.thim g) evWinBad
  else setThim p g { x with wins := Map.put x.wins w 1 }

def execThimWinOpen (site : Fin 2) (w : Fin 32) (s : State) : Host.Outcome State Fault Refusal := act s (fun p => ifOn p (.thim site) (fun p => thimOpen p site w.val))

/-- THIM_WIN_CLOSE: the window admits nothing new and closes once every admitted access has ended. -/
def thimClose (p : Pkg) (g : Fin 2) (w : Nat) : Pkg :=
  let x := thimOf p g
  if Map.look x.wins w = some 1 then setThim p g (settleWins { x with wins := Map.put x.wins w 2 }) else p

def execThimWinClose (site : Fin 2) (w : Fin 32) (s : State) : Host.Outcome State Fault Refusal := act s (fun p => ifOn p (.thim site) (fun p => thimClose p site w.val))

/-! ## Guest accesses (R457, R460, R461) -/

/-- The MSG_ALLOW bit that an operation needs. -/
def opAllow : GuestOp → Option Nat
  | .read _ => some 0
  | .write _ => some 1
  | .atomic .. => some 2
  | .snoop _ => some 3
  | .interrupt => some 4
  | .other => none

/-- The guest's answer, with the count of refused accesses. -/
def guestAnswer (p : Pkg) (g : Fin 2) (id : Nat) (st : Status) (data : List Byte) : Pkg :=
  let q := if Status.cls st = 1 then raise (bump p (.thim g) 0x108 1) (.thim g) evGuestRefused else p
  emit q (.guest g id st data)

/-- A line enters the directory (R457): a full one first has its oldest line's copy invalidated. -/
def dirAdd (p : Pkg) (g : Fin 2) (line : Nat) (modified : Bool) : Pkg :=
  let x := thimOf p g
  let rest := x.dir.filter (fun e => e.1 != line)
  if rest.length < 16384 then setThim p g { x with dir := rest ++ [(line, modified)] }
  else
    match rest with
    | (old, m) :: r =>
      bump (emit (setThim p g { x with dir := r ++ [(line, modified)], snoops := x.snoops ++ [(old, m, p.count)] }) (.toGuest g (old * 64) (.snoop false)))
        (.thim g) 0x118 1
    | [] => p

/-- An admitted access at its DRAM target (R460 check 5 and the access itself). -/
def guestServe (p : Pkg) (g : Fin 2) (id a : Nat) (op : GuestOp) : Pkg :=
  let (q, st) := checkAccess p (.guest g) a (opLen op)
  if st ≠ Status.done then guestAnswer q g id st []
  else
    let q := bump (tallyIn q (.thim g) 1) (.thim g) 0x100 1
    let fin (q : Pkg) (st : Status) (d : List Byte) : Pkg := guestAnswer (endItem q (.thim g) id st) g id st d
    match op with
    | .read n => fin (countDram q a n false) (if localPoisoned q a n then Status.donePoisoned else Status.done) (readLocal q a n)
    | .write b =>
      let x := thimOf q g
      let q := setThim q g { x with dir := x.dir.filter (fun e => !(linesOf a b.length).contains (e.1 * 64)) }
      fin (writeLocal (countDram q a b.length true) a b noTag) Status.done []
    | .atomic opc wide operand compare =>
      (match atomApply q a opc wide operand compare with
        | .ok (r, old, _) => fin r Status.done (leBytes (if wide then 8 else 4) old.toNat)
        | .error st => fin q st [])
    | .snoop m => fin (dirAdd q g (a / 64) m) Status.done (readLocal q a 64)
    | _ => fin q Status.done []

/-- The checks of R460 for a guest access that its buckets let through. Accesses to the mailbox reach its slots: the guest writes the inbound
ones, unless the slot's doorbell bit is still set, and reads all (R462), as aligned 4-byte words (R35). -/
def guestCheck (p : Pkg) (g : Fin 2) (id off : Nat) (op : GuestOp) : Pkg :=
  let cfg := getReg p (.thim g) 0x088
  let refuse (st : Status) : Pkg := guestAnswer p g id st []
  if stateOf p (.thim g) = .quarantined then refuse Status.refusedQuarantined
  else if (match opAllow op with | some i => !bit cfg i | none => true) then refuse Status.refusedThimble
  else
    match op, rangeOf off with
    | .interrupt, _ => guestAnswer (raise (bump p (.thim g) 0x100 1) (.thim g) evDoorbell) g id Status.done []
    | .read n, .page h o =>
      if h = Page.thim g ∧ 0xC00 ≤ o ∧ (n ≠ 4 ∨ o % 4 ≠ 0) then refuse Status.refusedUnmapped
      else if h = Page.thim g ∧ 0xC00 ≤ o then guestAnswer (bump p (.thim g) 0x100 1) g id Status.done (leBytes 4 (getReg p h o).toNat)
      else refuse Status.refusedThimble
    | .write b, .page h o =>
      if h = Page.thim g ∧ 0xC00 ≤ o ∧ (b.length ≠ 4 ∨ o % 4 ≠ 0) then refuse Status.refusedUnmapped
      else if h = Page.thim g ∧ 0xC00 ≤ o ∧ o < 0xE00 ∧ b.length = 4 then
        if bit (getReg p h 0x098) ((o - 0xC00) / 64) then refuse Status.refusedBusy
        else guestAnswer (setReg (bump p (.thim g) 0x100 1) h o (BitVec.ofNat 32 (leNat b))) g id Status.done []
      else refuse Status.refusedThimble
    | _, .page _ _ => refuse Status.refusedThimble
    | _, _ =>
      match thimFind p g false (opPerm op) off (opLen op) with
      | some w => guestServe p g id (thimPbase p g w + (off - thimGbase p g w)) op
      | none => refuse Status.refusedThimble

/-- The buckets filled up to now: at their rates, each to 16 µs of its rate (R461). -/
def fillBuckets (p : Pkg) (g : Fin 2) : Thimble :=
  let x := thimOf p g
  let r := getReg p (.thim g) 0x090
  let dt := p.count - x.filledAt
  let cap (rate level : Nat) : Nat := min (16000 * rate) (level + rate * dt)
  { x with reqs := cap (bits r 15 0) x.reqs, lines := cap (bits r 31 16) x.lines, filledAt := p.count }

/-- Whether a bucket is empty; a rate of 0 is no limit. -/
def bucketEmpty (p : Pkg) (g : Fin 2) (x : Thimble) : Bool :=
  let r := getReg p (.thim g) 0x090
  (bits r 15 0 != 0 && decide (x.reqs < 1000)) || (bits r 31 16 != 0 && decide (x.lines < 1000))

/-- A guest access takes its tokens. -/
def takeTokens (p : Pkg) (g : Fin 2) (x : Thimble) (op : GuestOp) : Pkg :=
  setThim p g { x with reqs := x.reqs - 1000, lines := x.lines - 1000 * (((opLen op) + 63) / 64) }

/-- The pairs that admitting a guest access uses: THIM_CFG, THIM_RATE and the open windows' registers (R42). -/
def thimPairsOk (p : Pkg) (g : Fin 2) : Bool :=
  pairOk p (.thim g) 0x088 && pairOk p (.thim g) 0x090
    && (thimOf p g).wins.all (fun kv => [0, 8, 16, 24].all (fun o => pairOk p (.thim g) (winOff kv.1 + o)))

/-- GUEST_ACCESS (R460, R461, R463): while the page is ENABLED or QUARANTINED the access is checked, or held while a bucket is empty; during a
drain it is held, and out of service it ends refused.offline. -/
def guestAccess (p : Pkg) (g : Fin 2) (id off : Nat) (op : GuestOp) : Pkg :=
  if enabled p (.thim g) ∧ !thimPairsOk p g then guestAnswer (cmpFail p (.thim g)) g id Status.refusedOffline []
  else if stateOf p (.thim g) = .quarantined then guestCheck p g id off op
  else if enabled p (.thim g) then
    let x := fillBuckets p g
    if bucketEmpty p g x || !x.held.isEmpty then
      raise (setThim p g { x with held := x.held ++ [⟨id, off, op, p.count⟩] }) (.thim g) evRateHeld
    else guestCheck (takeTokens p g x op) g id off op
  else if (Map.look p.rg.drains (.thim g)).isSome then
    let x := thimOf p g
    setThim p g { x with held := x.held ++ [⟨id, off, op, p.count⟩] }
  else guestAnswer p g id Status.refusedOffline []

def execGuestAccess (site : Fin 2) (id off : Nat) (op : GuestOp) (s : State) : Host.Outcome State Fault Refusal :=
  act s (fun p => guestAccess p site id off op)

/-- GUEST_RATE_RELEASE (R461, R463): the oldest held access goes on as the buckets refill; once the page has left service it ends
refused.offline. -/
def guestRelease (p : Pkg) (g : Fin 2) : Pkg :=
  let x := fillBuckets p g
  match x.held with
  | a :: r =>
    if enabled p (.thim g) then
      if bucketEmpty p g x then setThim p g x
      else guestCheck (takeTokens (bump p (.thim g) 0x110 (p.count - a.at_)) g { x with held := r } a.op) g a.id a.off a.op
    else if (Map.look p.rg.drains (.thim g)).isSome then p
    else guestAnswer (setThim p g { x with held := r }) g a.id Status.refusedOffline []
  | [] => p

def execGuestRateRelease (site : Fin 2) (s : State) : Host.Outcome State Fault Refusal := act s (fun p => guestRelease p site)

/-- SNOOP_TIMEOUT (R457): a guest has not answered a snoop within 2 µs; every line it held modified is written poisoned and the
thimble enters FAULT with cause 0x09. A line that a write has taken from it since keeps what was written. -/
def snoopTimeout (p : Pkg) (g : Fin 2) : Pkg :=
  let x := thimOf p g
  if x.snoops.all (fun e => decide (p.count < e.2.2 + 2000)) then p
  else
    let q := (x.dir.filter (fun e => e.2)).foldl (fun q e => poisonLocal q (e.1 * 64) 64) p
    enterFault (raise (setThim q g { x with dir := [], snoops := [] }) (.thim g) evSnoopTimeout) (.thim g) 0x09

def execSnoopTimeout (site : Fin 2) (s : State) : Host.Outcome State Fault Refusal := act s (fun p => snoopTimeout p site)

/-! ## Accesses toward a guest (R460) -/

/-- OUTBOUND_GUEST_ACCESS: at a site in service an access that an open outbound window holds goes to the guest, which answers with its own
status, now or later; any other ends refused.thimble. -/
def outboundAccess (p : Pkg) (ag : Agent) (g : Fin 2) (id off : Nat) (op : GuestOp) (answer_ : Option (Status × List Byte)) : Pkg :=
  let ends (q : Pkg) (st : Status) (d : List Byte) : Pkg := emit q (.fromGuest ag st d)
  if !permitted ag (.guest g off) then ends (countRefusal p hubCmn) Status.refusedPrivate []
  else if !enabled p (.thim g) ∨ !inService p (.thim g) then ends (countRefusal p hubCmn) Status.refusedOffline []
  else
    match thimFind p g true (opPerm op) off (opLen op) with
    | none => ends p Status.refusedThimble []
    | some w =>
      let q := emit (tallyIn p (.thim g) 1) (.toGuest g (thimGbase p g w + (off - thimPbase p g w)) op)
      match answer_ with
      | some (st, d) => ends (endItem q (.thim g) id st) st d
      | none =>
        let us := bits (getReg q (.thim g) 0x088) 31 24
        let x := thimOf q g
        setThim q g { x with out := x.out ++ [⟨id, ag, off, (opLen op), q.count + (if us = 0 then 16 else us) * 1000⟩] }

def execOutboundGuestAccess (agent : Agent) (site : Fin 2) (id off : Nat) (op : GuestOp) (answer : Option (Status × List Byte)) (s : State) :
    Host.Outcome State Fault Refusal := act s (fun p => outboundAccess p agent site id off op answer)

/-- OUTBOUND_REPLY_TIMEOUT: no answer within THIM_CFG.reply_wait. -/
def outboundTimeout (p : Pkg) (g : Fin 2) (id : Nat) : Pkg :=
  let x := thimOf p g
  match x.out.find? (fun o => o.id == id && decide (o.deadline ≤ p.count)) with
  | some o =>
    emit (endItem (setThim p g (settleWins { x with out := x.out.filter (fun e => e.id != id) })) (.thim g) id Status.unknownNoAck)
      (.fromGuest o.agent Status.unknownNoAck [])
  | none => p

def execOutboundReplyTimeout (site : Fin 2) (id : Nat) (s : State) : Host.Outcome State Fault Refusal :=
  act s (fun p => outboundTimeout p site id)

/-! ## Mailbox (R462) -/

/-- Whether an agent writes a slot: the guest the eight inbound ones, Reeve and the debug port the eight outbound ones. -/
def slotWriter (ag : Agent) (g : Fin 2) (slot : Nat) : Bool :=
  match ag with
  | .guest k => k == g && decide (slot < 8)
  | .reeve _ | .debug => decide (8 ≤ slot)
  | _ => false
def slotReader (ag : Agent) (g : Fin 2) (slot : Nat) : Bool :=
  match ag with
  | .guest k => k == g && decide (8 ≤ slot)
  | .reeve _ | .debug => decide (slot < 8)
  | _ => false

/-- MB_DOORBELL_SET: the writer sets its slot's bit, and one interrupt goes to the reader. An empty site's mailbox is unreachable. -/
def doorbellSet (p : Pkg) (ag : Agent) (g : Fin 2) (slot : Nat) : Pkg :=
  if slotWriter ag g slot && inService p (.thim g) && stateOf p (.thim g) != .off then
    let q := setReg p (.thim g) 0x098 (withBit (getReg p (.thim g) 0x098) slot true)
    let q := emit q (.doorbell g (decide (8 ≤ slot)) (slot % 8))
    if slot < 8 then raise q (.thim g) evDoorbell else q
  else p

def execMbDoorbellSet (agent : Agent) (site : Fin 2) (slot : Fin 16) (s : State) : Host.Outcome State Fault Refusal :=
  act s (fun p => doorbellSet p agent site slot.val)

/-- MB_DOORBELL_CLEAR: the reader clears the bit, which frees the slot. -/
def doorbellClear (p : Pkg) (ag : Agent) (g : Fin 2) (slot : Nat) : Pkg :=
  if slotReader ag g slot && inService p (.thim g) && stateOf p (.thim g) != .off then
    setReg p (.thim g) 0x098 (withBit (getReg p (.thim g) 0x098) slot false)
  else p

def execMbDoorbellClear (agent : Agent) (site : Fin 2) (slot : Fin 16) (s : State) : Host.Outcome State Fault Refusal :=
  act s (fun p => doorbellClear p agent site slot.val)

/-- THIM_STATUS (R466). -/
def thimStatus (p : Pkg) (g : Fin 2) : Word :=
  let x := thimOf p g
  BitVec.ofNat 32 ((if x.admitted then 2 ^ 31 else 0) + (if siteFitted p g then 2 ^ 30 else 0) + min 65535 x.dir.length)

/-- A commit of a thimble window's register (R459, R466): only while the window is closed; WCTL's command opens or closes it. -/
def thimWinCommit (p : Pkg) (g : Fin 2) (w o : Nat) (v : Word) : Pkg :=
  let pg := Page.thim g
  let x := thimOf p g
  if o = 0 ∧ bits v 1 0 = 2 then thimClose p g w
  else if (Map.look x.wins w).isSome then discardCommit p pg
  else
    let base := if o = 16 then bits v 27 0 * 4096 else thimPbase p g w
    let size := if o = 24 then bits v 28 0 * 4096 else thimSize p g w
    let dir := if o = 0 then bit v 31 else bit (thimWctl p g w) 31
    if !dir ∧ o ≠ 8 ∧ !inboundOk base size then raise p pg evWinBad
    else
      let mask : Word := if o = 0 then 0xF8000000#32 else if o = 16 then 0x0FFFFFFF#32 else 0x1FFFFFFF#32
      let res : Word := if o = 0 then v &&& 0x07FFFFFC#32 else v &&& ~~~mask
      let q := storePair p pg (winOff w + o) (v &&& mask)
      let q := if res = 0 then q else raise q pg evRsvdWrite
      if o = 0 ∧ bits v 1 0 = 1 then thimOpen q g w else q

end Sys2Proof.Machine
end

