-- ==== Sys2Proof/Machine/Debug.lean ====
section
/-! DEFINITION. The debug lock's withdrawal (R449), sequencer halts (R489), boundary scan (R491) and margining (R492–R494). -/
namespace Sys2Proof.Machine
open Sys2Proof

def evStepDone : Nat := 17
def evMrgDone : Nat := 19

/-! ## Margin runs (R492–R494) -/

/-- The port, Stitch link and stack that an instance number names. -/
def portNo (i : Nat) : Option (Fin 32) := if h : i < 32 then some ⟨i, h⟩ else none
def stackNo (i : Nat) : Option (Fin 12) := if h : i < 12 then some ⟨i, h⟩ else none
def stitchNo (i : Nat) : Option StitchId :=
  if h : i < 4 then some (.hub ⟨i, h⟩)
  else if h : 0x10 ≤ i ∧ i < 0x20 then some (.selvage ⟨i - 0x10, by omega⟩)
  else if h : 0x20 ≤ i ∧ i < 0x22 then some (.guest ⟨i - 0x20, by omega⟩)
  else none

/-- The condition of a target (R492). -/
def targetReady (p : Pkg) (tgt : Word) (running : Bool) : Bool :=
  match bits tgt 31 30 with
  | 0 => (match stackNo (bits tgt 29 22) with | some n => stateOf p (.memc n) == .disabled && !(stackOf p n).tripped | none => false)
  | 1 => (match portNo (bits tgt 29 22) with | some n => (portOfPkg p n).lstate == .up && (portOfPkg p n).activeRes == 1 | none => false)
  | 2 =>
    (match stitchNo (bits tgt 29 22) with
      | some l => (stitchOf p l).lstate == 2 && decide (linkMinimum l < popcount 16 (stitchOf p l).mods + (if running then 1 else 0))
      | none => false)
  | _ => false

/-- Lanes of a target: 36 for a stack, 16 otherwise. -/
def targetLanes (tgt : Word) : Nat := if bits tgt 31 30 = 0 then 36 else 16

/-- The lanes that a run tests at once: all of a stack channel's or a Stitch module's, one of an optical port's (R493). -/
def testLanes (m : Margin) : List Nat := if bits m.tgt 31 30 = 1 then [m.lane] else List.range (targetLanes m.tgt)

/-- The lines that a stack run wrote in its channel, by their offsets in the stack, rewritten as zero with valid check bits (R493). -/
def clearLines (p : Pkg) (m : Margin) (written : List Nat) : Pkg :=
  match bits m.tgt 31 30, stackNo (bits m.tgt 29 22) with
  | 0, some n =>
    (written.filter (fun s => chanOf s == bits m.tgt 21 17)).foldl (fun q s => writeClean q (n.val * 2 ^ 36 + s / 64 * 64) (List.replicate 64 0)) p
  | _, _ => p

/-- A run ends with a status (R494): the item ends, its edges are kept when it completed, a held CTRL commit takes effect. -/
def endMargin (p : Pkg) (st : Status) : Pkg :=
  match p.dbg.margin with
  | none => p
  | some m =>
    let edges := if st = Status.done then (List.range (targetLanes m.tgt)).map (fun i => (i, (Map.getD m.low i 0, Map.getD m.highs i 0))) else p.dbg.edges
    let q := { p with dbg := { p.dbg with margin := none, status := st, edges := edges, valid := st == Status.done } }
    let q := raise (endItem q .dbg 0 st) .dbg evMrgDone
    match m.held, stackNo (bits m.tgt 29 22) with
    | some v, some n => ctrlCommit q (.memc n) v
    | _, _ => q

/-- A run ends before its sweep is over (R494): the lines that a stack run has written till then, which the manual does not fix, are rewritten
as zero (R493). -/
def stopMargin (p : Pkg) (st : Status) : Pkg :=
  match p.dbg.margin with
  | none => p
  | some m =>
    if bits m.tgt 31 30 = 0 then endMargin { clearLines p m ((Config.marginLines p.free).map (· % 2 ^ 36)) with free := p.free + 1 } st
    else endMargin p st

/-- MRG_GO (R492): the scope, a manifest or a busy run, and the target's condition, in this order; the failing check's status ends the
run at once. A Stitch run takes its module out of service. -/
def mrgGo (p : Pkg) : Pkg :=
  let tgt := getReg p .dbg 0x100
  let st := if !p.boot.scope.testBit 6 then Status.refusedLocked
    else if p.serving || p.dbg.margin.isSome then Status.refusedBusy
    else if !targetReady p tgt false then Status.refusedOffline
    else Status.done
  let q := bump (tallyIn p .dbg 1) .dbg 0x210 1
  if !(pairOk p .dbg 0x100 && pairOk p .dbg 0x108) then
    cmpFail (endItem { q with dbg := { q.dbg with status := Status.failedFormat } } .dbg 0 Status.failedFormat) .dbg
  else if st ≠ Status.done then endItem { q with dbg := { q.dbg with status := st } } .dbg 0 st
  else
    let q := { q with dbg := { q.dbg with margin := some ⟨tgt, getReg q .dbg 0x108, false, 1, [], [], q.count, none, 0, []⟩, valid := false } }
    if bits tgt 31 30 = 2 then
      (match stitchNo (bits tgt 29 22) with
        | some l => moduleOut q l (bits tgt 21 17) false 0
        | none => q)
    else q

def execMrgGo (agent : Agent) (s : State) : Host.Outcome State Fault Refusal := act s (fun p => regGateW p agent .dbg 0x110 mrgGo)

/-- MRG_ABORT (R494). -/
def execMrgAbort (agent : Agent) (s : State) : Host.Outcome State Fault Refusal :=
  act s (fun p => regGateW p agent .dbg 0x110 (fun q => stopMargin q Status.failedDisabled))

/-- A side of the sweep is over: lanes that never failed have the range as their edge; then the high side, the next lane of an optical run, or
the end (R493). -/
def sideOver (m : Margin) : Margin :=
  let all := (testLanes m).map (fun i => (i, Map.getD m.edges i (bits m.cfg 15 8)))
  if !m.high then { m with low := m.low ++ all, edges := [], high := true, step := 1 }
  else if bits m.tgt 31 30 = 1 ∧ m.lane + 1 < targetLanes m.tgt then { m with highs := m.highs ++ all, edges := [], high := false, step := 1, lane := m.lane + 1 }
  else { m with highs := m.highs ++ all, edges := [], step := 0 }

/-- MARGIN_POINT_DONE (R493, R494): the lanes under test that failed at this step have it less one as their edge; the side stops when every one
of them has failed or the range is reached. A target that has left its condition, or a wrong lock of its ring, ends the run. -/
def pointDone (p : Pkg) (failed : List Nat) (wrongLock : Bool) : Pkg :=
  match p.dbg.margin with
  | none => p
  | some m =>
    if wrongLock ∧ bits m.tgt 31 30 = 1 then stopMargin p Status.failedRelock
    else if !targetReady p m.tgt true then stopMargin p Status.failedDisabled
    else if m.step = 0 then p
    else
      let new := (testLanes m).filter (fun i => failed.contains i && (Map.look m.edges i).isNone)
      let m := { m with edges := m.edges ++ new.map (fun i => (i, m.step - 1)) }
      let m := if (testLanes m).all (fun i => (Map.look m.edges i).isSome) ∨ bits m.cfg 15 8 ≤ m.step then sideOver m else { m with step := m.step + 1 }
      { p with dbg := { p.dbg with margin := some m } }

def execMarginPointDone (failed : List Nat) (wrongLock : Bool) (s : State) : Host.Outcome State Fault Refusal :=
  act s (fun p => pointDone p failed wrongLock)

/-- MARGIN_RUN_END (R493, R494): both sides are swept; the lines a stack run wrote in its channel are rewritten as zero. -/
def runEnd (p : Pkg) (written : List Nat) : Pkg :=
  match p.dbg.margin with
  | none => p
  | some m =>
    if m.step ≠ 0 then p
    else if !targetReady p m.tgt true then stopMargin p Status.failedDisabled
    else endMargin (clearLines p m written) Status.done

def execMarginRunEnd (written : List Nat) (s : State) : Host.Outcome State Fault Refusal := act s (fun p => runEnd p written)

/-- MRG_STATUS and MRG_EDGE (R496). -/
def mrgStatus (p : Pkg) : Word :=
  BitVec.ofNat 32 ((if p.dbg.margin.isSome then 2 ^ 31 else 0) + (if p.dbg.valid then 2 ^ 30 else 0) + p.dbg.status.toNat)
def mrgEdge (p : Pkg) (i : Nat) : Word :=
  let e := Map.getD p.dbg.edges i (0, 0)
  BitVec.ofNat 32 (e.1 % 256 * 256 + e.2 % 256)

/-! ## Sequencer halts (R489, R490) -/

/-- The context that SEQ_SEL names. -/
def seqCtx (p : Pkg) : Option CtxId :=
  let v := getReg p .dbg 0x090
  (coreOfPage ⟨0x10 + bits v 25 24, bits v 23 16⟩).map (fun c => ⟨c, ⟨bits v 1 0 % 4, Nat.mod_lt _ (by decide)⟩⟩)

/-- SEQ_CMD on the selected context. -/
def seqCmd (p : Pkg) (f : Ctx → Ctx) : Pkg :=
  match seqCtx p with
  | some c => setCtx p c (f (ctxOf p c))
  | none => p

/-- SEQ_HALT: the context issues nothing from now on. -/
def execSeqHalt (agent : Agent) (s : State) : Host.Outcome State Fault Refusal :=
  act s (fun p => regGateW p agent .dbg 0x094 (fun q => seqCmd q (fun x => if x.halted then x else { x with halted := true, bp := none, stepping := false })))

/-- SEQ_RESUME: the context issues again; the breakpoint it stands on is passed once. -/
def execSeqResume (agent : Agent) (s : State) : Host.Outcome State Fault Refusal :=
  act s (fun p => regGateW p agent .dbg 0x094 (fun q => seqCmd q (fun x => { x with halted := false, bp := none, stepping := false, skipBp := x.bp.isSome })))

/-- SEQ_STEP: the context issues its next instruction, then halts again once that has retired. -/
def execSeqStep (agent : Agent) (s : State) : Host.Outcome State Fault Refusal :=
  act s (fun p => regGateW p agent .dbg 0x094 (fun q => seqCmd q (fun x => { x with halted := false, bp := none, stepping := true, skipBp := true })))

/-- Contexts under debug halt. -/
def haltedCtxs (p : Pkg) : Nat := (p.ctxs.filter (fun kv => kv.2.halted)).length

/-- SEQ_STATUS and DBG_STATUS (R496). -/
def seqStatus (p : Pkg) : Word :=
  match seqCtx p with
  | some c =>
    let x := ctxOf p c
    BitVec.ofNat 32 ((if enabled p (.core c.core) then 2 ^ 31 else 0) + (if x.halted then 2 ^ 30 else 0)
      + (match x.bp with | some b => 2 ^ 29 + b % 4 * 2 ^ 27 | none => 0) + x.pc % 65536)
  | none => 0
def dbgStatus (p : Pkg) : Word :=
  BitVec.ofNat 32 ((if p.boot.scope ≠ 0 then 2 ^ 31 else 0) + (p.dbg.halted.map (fun h => 2 ^ (27 + h % 4))).sum
    + (if p.dbg.halted.isEmpty then 0 else 2 ^ 26) + (if p.dbg.margin.isSome then 2 ^ 25 else 0) + haltedCtxs p % 65536)

/-! ## The end of an unlock (R449) -/

/-- SEC clears every trigger and breakpoint and resumes every Reeve core and every context under debug halt; the watchdog counts afresh. -/
def releaseHalts (p : Pkg) : Pkg :=
  let q := (List.range 4).foldl (fun q b => storePair q .dbg (0x0A0 + 8 * b) (withBit (getReg q .dbg (0x0A0 + 8 * b)) 31 false)) p
  { q with
    ctxs := q.ctxs.map (fun (kv : CtxId × Ctx) => (kv.1, kv.2.unhalt))
    dbg := { q.dbg with halted := [], dmi := q.dbg.dmi.filter (fun kv => !(0x100 ≤ kv.1)) }
    rv := { q.rv with wdogAt := if q.dbg.halted.isEmpty then q.rv.wdogAt else q.count } }

/-- UNLOCK_EXPIRY: the duration is over; SEC relocks, and a margin run ends. -/
def unlockExpiry (p : Pkg) : Pkg :=
  match p.boot.unlockAt with
  | some t =>
    if t ≤ p.count then
      let q := stopMargin (releaseHalts p) Status.failedDisabled
      tapCheck (raise { q with boot := { q.boot with scope := 0, unlockAt := none } } .sec 19)
    else p
  | none => p

def execUnlockExpiry (s : State) : Host.Outcome State Fault Refusal := act s unlockExpiry

/-- A commit of a manifest withdraws scope bits 0, 2 and 4 with every halt, and records it (R449); a margin run ends (R494). -/
def scopeWithdraw (p : Pkg) : Pkg :=
  let p := stopMargin p Status.failedDisabled
  let taken := p.boot.scope &&& 0x15
  if taken = 0 then p
  else
    let q := releaseHalts p
    record { q with boot := { q.boot with scope := q.boot.scope - taken } } (some .sec) 19 0 1 true [taken]

/-! ## Boundary scan (R491) -/


/-- JTAG_IDCODE: stepping major, 0x7240, the vendor identity as fused, and 1. -/
def idcode (p : Pkg) : Word := BitVec.ofNat 32 (bits (getReg p .fuse 0x080) 7 4 * 2 ^ 28 + 0x7240 * 2 ^ 12 + Config.jedec.toNat * 2 + 1)

def execJtagIdcode (s : State) : Host.Outcome State Fault Refusal :=
  act s (fun p => emit (loadIr p 0x01) (.tdo ((List.range 32).map (fun i => bit (idcode p) i))))

/-- JTAG_SAMPLE_PRELOAD: the levels of the 114 stages are captured and shifted out, the boundary register is loaded. -/
def execJtagSamplePreload (levels load : List Bool) (s : State) : Host.Outcome State Fault Refusal :=
  act s (fun p => emit { (loadIr p 0x02) with dbg := { (loadIr p 0x02).dbg with boundary := load.take 114 } } (.tdo (levels.take 114)))

/-- JTAG_EXTEST: the boundary register drives the lands that are not observe-only. -/
def execJtagExtest (load : List Bool) (s : State) : Host.Outcome State Fault Refusal :=
  act s (fun p => if jtagOpen p then { (loadIr p 0x03) with dbg := { (loadIr p 0x03).dbg with boundary := load.take 114 } } else jtagRefused p)

def execJtagClamp (s : State) : Host.Outcome State Fault Refusal := act s (fun p => if jtagOpen p then loadIr p 0x04 else jtagRefused p)
def execJtagHighz (s : State) : Host.Outcome State Fault Refusal := act s (fun p => if jtagOpen p then loadIr p 0x05 else jtagRefused p)

/-- JTAG_PRIVATE: permitted with scope bit 5 alone; the manual gives the private instructions no effect, so a permitted one is refused by
name. -/
def execJtagPrivate (code : BitVec 8) (s : State) : Host.Outcome State Fault Refusal :=
  if 0x80 ≤ code.toNat ∧ code.toNat ≤ 0xFE ∧ s.pkg.boot.scope.testBit 5 then .refused .jtagPrivate else act s jtagRefused

def execJtagBypass (s : State) : Host.Outcome State Fault Refusal := act s (fun p => loadIr p 0xFF)

end Sys2Proof.Machine
end

