-- ==== Sys2Proof/Machine/Pins.lean ====
section
/-! DEFINITION. The pins: rail enables and power-goods (R472–R476), RST_N (R477), the reference clock (R478). -/
namespace Sys2Proof.Machine
open Sys2Proof

/-- An enable goes high. -/
def raiseEn (p : Pkg) (d : Domain) : Pkg := { p with pins := { p.pins with en := Map.put p.pins.en d p.count } }
/-- An enable goes low, and with it its power-good. -/
def lowerEn (p : Pkg) (d : Domain) : Pkg :=
  { p with pins := { p.pins with en := Map.drop p.pins.en d, good := p.pins.good.filter (· != d) } }

/-- POWER_GOOD_ACCEPT (R472): a power-good has been steadily high for 50 µs, within 1 ms of its enable; 10 µs later the domain's reset is
released. HD's starts the boot chain at the recovery ROM (R434, R475). -/
def goodAccept (p : Pkg) (d : Domain) (slotOk : Bool) : Pkg :=
  match Map.look p.pins.en d with
  | some t =>
    if p.pins.good.contains d ∨ p.count < t + 60000 ∨ t + 1010000 < p.count then p
    else
      let q := restoreDomain p d slotOk
      match d with
      | .die k => if dieState q k = 2 then setDie q k 0 else q
      | .hub =>
        if p.pw.p3 then
          { q with pw := { q.pw with p3 := false }, boot := { q.boot with stage := .hearth, at_ := q.count, cause := 0x06 } }
        else q
      | _ => q
  | none => p

def execPowerGoodAccept (domain : Domain) (slotOk : Bool) (s : State) : Host.Outcome State Fault Refusal :=
  act s (fun p => goodAccept p domain slotOk)

/-- RAIL_FAULT (R472): no power-good accepted within 1 ms of the enable: Hearth lowers the enable, the domain stays OFF. -/
def railFault (p : Pkg) (d : Domain) : Pkg :=
  match Map.look p.pins.en d with
  | some t =>
    if p.pins.good.contains d ∨ p.count < t + 1000000 then p
    else
      let q := lowerEn p d
      record { q with pins := { q.pins with barred := d :: q.pins.barred.filter (· != d) } } none 0x0124 0 2 true []
  | none => p

def execRailFault (domain : Domain) (s : State) : Host.Outcome State Fault Refusal := act s (fun p => railFault p domain)

/-- A lost rail of a die or of its optics is raised once more after 1 s; a second loss within 24 h holds it off until RST_N (R475). -/
def noteLoss (p : Pkg) (d : Domain) : Pkg :=
  let old := (Map.getD p.pins.losses d []).filter (fun t => decide (p.count < t + 86400000000000))
  { p with pins := { p.pins with
      losses := Map.put p.pins.losses d (p.count :: old)
      again := if old.isEmpty then Map.put p.pins.again d (p.count + 1000000000) else p.pins.again
      barred := if old.isEmpty then p.pins.barred else d :: p.pins.barred } }

/-- The tick of a rail's loss, by which a trip of the same domain within 10 µs takes precedence (R475). -/
def noteFall (p : Pkg) (d : Domain) : Pkg := { p with pins := { p.pins with losses := Map.put p.pins.losses d [p.count] } }

/-- POWER_GOOD_FALL (R475, R476): a power-good falls while its enable is high. -/
def goodFall (p : Pkg) (r : BoardRail) : Pkg :=
  match r with
  | .always => packageReset p 0x03
  | .guest g =>
    if p.pins.guestEn.contains g then
      guestDown { p with pins := { p.pins with guestOut := p.pins.guestOut.filter (· != g) } } g
    else p
  | .domain d =>
    if !(p.pins.good.contains d && (Map.look p.pins.en d).isSome) then p
    else
      match d with
      | .hearth => packageReset p 0x03
      | .hub =>
        let q := (List.finRange 12).foldl (fun q n => if (Map.look q.pins.en (.stack n)).isSome then cutDomain q (.stack n) 0x06 false else q)
          (loseHub p 0x06)
        noteFall { q with pins := { q.pins with en := [], good := [], guestEn := [], guestOut := [], again := [(.hub, q.count + 1000000000)] } } d
      | .die k => noteLoss (loseDie p k 0x0125 0x06) d
      | .optics k =>
        noteLoss (record (cutDomain p (.optics k) 0x06 false) (some ⟨0x06, k.val⟩) 0x0125 0 3 true [heldItems p (.optics k)]) d
      | .stack n => noteFall (loseStack p n 0x06) d

def execPowerGoodFall (rail : BoardRail) (s : State) : Host.Outcome State Fault Refusal := act s (fun p => goodFall p rail)

/-- Whether Caselm may raise a domain's enable (R474): it is low, not held off by a fault, a loss, a trip or a power state; optics follow
their die. -/
def mayRaise (p : Pkg) (d : Domain) : Bool :=
  (Map.look p.pins.en d).isNone && !p.pins.barred.contains d && (Map.look p.pins.again d).isNone &&
    (match d with
    | .die k => dieState p k != 2 && !p.pw.trips.contains ⟨k.val, by omega⟩
    | .optics k => dieState p k != 2 && !p.pw.trips.contains ⟨k.val, by omega⟩
        && !p.pins.barred.contains (.die k) && (Map.look p.pins.again (.die k)).isNone
    | .stack n => !(stackOf p n).railCut
    | _ => false)

/-- The groups of enables that Caselm raises, in order (R474). -/
def enableGroups : List (List Domain) :=
  [[.stack 0, .stack 1, .stack 2], [.stack 3, .stack 4, .stack 5], [.stack 6, .stack 7, .stack 8], [.stack 9, .stack 10, .stack 11]]
    ++ (List.finRange 4).map (fun d => [Domain.die d]) ++ [(List.finRange 4).map Domain.optics]

/-- RAIL_ENABLE_STEP (R474): Caselm raises the next group, 1 ms after the one before; last the guest sites' supplies, and 1 ms after
that their resets are released. -/
def enableStep (p : Pkg) : Pkg :=
  let last := (p.pins.en.filter (fun kv => kv.1 != .hub)).foldl (fun m kv => max m kv.2) 0
  if p.boot.stage ≠ .caselm ∨ p.pw.p3 ∨ p.pw.trans.any (fun t => t.running) ∨ (last ≠ 0 ∧ p.count < last + 1000000) then p
  else
    match enableGroups.find? (fun g => g.any (mayRaise p)) with
    | some g => (g.filter (mayRaise p)).foldl raiseEn p
    | none =>
      let sites := (List.finRange 2).filter (fun g => siteFitted p g)
      if !sites.all (fun g => p.pins.guestEn.contains g) then { p with pins := { p.pins with guestEn := sites, guestAt := p.count } }
      else if p.count < p.pins.guestAt + 1000000 then p
      else { p with pins := { p.pins with guestOut := sites.filter (fun g => stateOf p (.thim g) != .fault) } }

def execRailEnableStep (s : State) : Host.Outcome State Fault Refusal := act s enableStep

/-- RAIL_RERAISE (R475): 1 s after the loss the enable rises once more, HD's by Hearth and the others' by Caselm. A cut stack's rises once
the stack may be cleared (R430). -/
def reraise (p : Pkg) (d : Domain) : Pkg :=
  match d with
  | .stack n =>
    if (stackOf p n).railCut ∧ (Map.look p.pins.en d).isNone ∧ p.boot.stage = .caselm
        ∧ (match (stackOf p n).coolAt with | some t => decide (t + 10000000000 ≤ p.count) | none => false) = true then raiseEn p d else p
  | _ =>
    match Map.look p.pins.again d with
    | some t =>
      if t ≤ p.count ∧ (d = .hub ∨ p.boot.stage = .caselm) then raiseEn { p with pins := { p.pins with again := Map.drop p.pins.again d } } d
      else p
    | none => p

def execRailReraise (domain : Domain) (s : State) : Host.Outcome State Fault Refusal := act s (fun p => reraise p domain)

/-- RST_N_ASSERT (R477). -/
def execRstNAssert (s : State) : Host.Outcome State Fault Refusal := act s (fun p => packageReset p 0x02)

/-- REFCLK_LOSS (R478): as a brownout. -/
def execRefclkLoss (s : State) : Host.Outcome State Fault Refusal := act s (fun p => packageReset p 0x03)

end Sys2Proof.Machine
end

