-- ==== Sys2Proof/Machine/Views.lean ====
section
/-! DEFINITION. What the block-specific registers read as (R39, R46), page type by page type: stored values, and the views that hardware
serves. -/
namespace Sys2Proof.Machine
open Sys2Proof

/-- The number whose bit i is set when a test of i holds. -/
def bitsOf (n : Nat) (t : Nat → Bool) : Nat := ((List.range n).map (fun i => if t i then 2 ^ i else 0)).sum

/-- The word of a 64-bit value at distance d, 0 its low half. -/
def half (v : DWord) (d : Nat) : Word := if d = 0 then lo32 v else hi32 v

def CtxState.code : CtxState → Nat
  | .idle => 0 | .running => 1 | .waiting => 2 | .stopped => 3 | .stopping => 4

def WinState.code : WinState → Nat
  | .closed => 0 | .opened => 1 | .closing => 2

/-- ENG_STATUS (R130). -/
def engStatus (p : Pkg) (c : CoreId) : Word :=
  let e := engineOf p c
  match e.run with
  | some r =>
    let (mode, ctx) : Nat × Nat := match runInst p r with
      | some i => ((match bits i.word 7 0 with | 0x20 | 0x21 | 0x30 => 1 | 0x40 => 2 | _ => 3), i.ctx.ctx.val)
      | none => (0, 0)
    BitVec.ofNat 32 (mode * 2 ^ 30 + ctx * 2 ^ 28 + 2 ^ 27 + (if r.coll.isSome then 2 ^ 26 else 0)
      + (if e.pause.isSome then 2 ^ 25 else 0) + (if e.shadow.isSome then 2 ^ 24 else 0) + r.pass % 2 ^ 24)
  | none => BitVec.ofNat 32 ((if e.pause.isSome then 2 ^ 25 else 0) + (if e.shadow.isSome then 2 ^ 24 else 0))

/-- WIN_RECV and WIN_CTL (R158): the last closing, the owner taken with the last open command, the state. -/
def winView (p : Pkg) (st : StoreId) (w o : Nat) : Option Word :=
  let x := winOf p st w
  if o = 0x38 then some (BitVec.ofNat 32 x.recv)
  else if o = 0x3C then
    let ctx := match x.owner with | some c => c.ctx.val | none => 0
    let core := match st, x.owner with | .cluster _ _, some c => c.core.core.val | _, _ => 0
    some (BitVec.ofNat 32 (core * 2 ^ 16 + (if x.ended then winStatusCode x.status else 0) * 2 ^ 12 + ctx * 2 ^ 8 + x.state.code * 2 ^ 4))
  else none

/-- Banks of a store that sleep or fill, and those with a request pending (R158). -/
def asleepView (p : Pkg) (st : StoreId) : DWord :=
  BitVec.ofNat 64 (bitsOf st.banks (fun b => (storeOf p st).asleep.testBit b || (Map.look (storeOf p st).bankFill b).isSome))
def pendView (p : Pkg) (st : StoreId) : DWord := BitVec.ofNat 64 (bitsOf st.banks (fun b => (Map.look (storeOf p st).pend b).isSome))

/-- ENG_COLL (R120): the cycles of the holds before, and those of a hold that is running. -/
def engColl (p : Pkg) (c : CoreId) : DWord :=
  getReg64 p (.core c) 0x440 + (match (engineOf p c).run with
    | some r => (match r.coll with | some t => BitVec.ofNat 64 ((p.count - t) * 6 / 5) | none => 0)
    | none => 0)

/-- CORE (R130, R158). -/
def coreView (p : Pkg) (c : CoreId) (off : Nat) : Option Word :=
  let st := StoreId.core c
  if off = 0x080 then
    some (BitVec.ofNat 32 ((if (storeOf p st).filling.isSome then 2 ^ 16 else 0) + bitsOf 8 (fun w => (winOf p st w).state != .closed) * 256
      + bitsOf 4 (fun i => (ctxOf p ⟨c, ⟨i % 4, Nat.mod_lt _ (by decide)⟩⟩).state != .idle)))
  else if off = 0x098 then some (lo32 (asleepView p st))
  else if off = 0x09C then some (lo32 (pendView p st))
  else if off = 0x400 then some (engStatus p c)
  else if off = 0x440 then some (lo32 (engColl p c))
  else if off = 0x444 then some (hi32 (engColl p c))
  else if 0x100 ≤ off ∧ off < 0x300 then
    let x := ctxOf p ⟨c, ⟨(off - 0x100) / 0x80 % 4, Nat.mod_lt _ (by decide)⟩⟩
    if off % 0x80 = 0 then some (BitVec.ofNat 32 x.state.code)
    else if off % 0x80 = 4 then some (BitVec.ofNat 32 (x.pc % 65536))
    else none
  else if 0x600 ≤ off ∧ off < 0x800 then winView p st ((off - 0x600) / 0x40) (off % 0x40)
  else none

/-- CLST (R159). -/
def clstView (p : Pkg) (st : StoreId) (off : Nat) : Option Word :=
  if off = 0x080 then
    some (BitVec.ofNat 32 (bitsOf 16 (fun w => (winOf p st w).state != .closed) * 2 ^ 16 + (if (storeOf p st).filling.isSome then 1 else 0)))
  else if off = 0x0A0 ∨ off = 0x0A4 then some (half (asleepView p st) (off - 0x0A0))
  else if off = 0x0A8 ∨ off = 0x0AC then some (half (pendView p st) (off - 0x0A8))
  else if 0x400 ≤ off ∧ off < 0x800 then winView p st ((off - 0x400) / 0x40) (off % 0x40)
  else none

/-- BOB (R212). -/
def bobView (p : Pkg) (b : BobId) (off : Nat) : Option Word :=
  let x := bobOf p b
  if off = 0x080 then
    some (BitVec.ofNat 32 (bitsOf 16 (fun q => !(x.queueDescs q).isEmpty) * 2 ^ 16 + (x.descs.filter (fun d => d.active)).length * 128
      + x.fifo.length))
  else if 0x090 ≤ off ∧ off < 0x0A0 then
    some (BitVec.ofNat 32 (((List.range 4).map (fun k =>
      min 255 ((x.queueDescs ((off - 0x090) / 4 * 4 + k)).filter (fun d => !d.active)).length * 256 ^ k)).sum))
  else if off = 0x0A0 then
    some (match x.fifo with | (q, st, _) :: _ => BitVec.ofNat 32 (2 ^ 31 + q * 2 ^ 16 + st.toNat) | [] => 0)
  else if off = 0x0A4 then some (match x.fifo with | (_, _, t) :: _ => t | [] => 0)
  else if off = 0x300 then some (match b with | .gateway k => landFull p k | _ => 0)
  else none

/-- DRT (R63, R65, R311). -/
def drtView (p : Pkg) (d : Fin 4) (off : Nat) : Option Word :=
  let f := bits (getReg p (.drt d) 0x120) 11 0
  let e := rtEntry p d (BitVec.ofNat 16 (bits (getReg p (.drt d) 0x140) 15 0))
  match off with
  | 0x080 => some (BitVec.ofNat 32 (bitsOf 8 (fun k => (portsOf d).any (fun n => portIdx n == k && (portOfPkg p n).moved)) * 256
      + bitsOf 8 (fun k => (portsOf d).any (fun n => portIdx n == k && usable p n 1))))
  | 0x090 => some (getReg p (.drt 0) 0x090)
  | 0x094 => some (getReg p (.drt 0) 0x094)
  | 0x108 => some (match (router p d).armed with | some (r, m) => BitVec.ofNat 32 (r * 256 + m) | none => 0)
  | 0x10C => some (router p d).swapDone
  | 0x124 => some (flowData0 p d f)
  | 0x128 => some (flowData1 p d f)
  | 0x12C => some (~~~(flowData0 p d f))
  | 0x130 => some (~~~(flowData1 p d f))
  | 0x144 => some e
  | 0x148 => some (~~~e)
  | _ => none

/-- PRK (R62, R72). -/
def prkView (p : Pkg) (n : Fin 32) (off : Nat) : Option Word :=
  let x := portOfPkg p n
  if off = 0x080 then
    some (BitVec.ofNat 32 ((if x.revoked then 2 ^ 31 else 0) + (if x.sealed (standbyCopy p n) then 2 ^ 30 else 0) + x.active % 2 * 2 ^ 29
      + (if isSitre1 p n then 2 ^ 28 else 0) + x.standbyRes % 4096 * 4096 + x.activeRes % 4096))
  else none

def LinkState.code : LinkState → Nat
  | .down => 0 | .align => 1 | .negotiate => 2 | .up => 3 | .retrain => 4

/-- LNK (R292). -/
def lnkView (p : Pkg) (n : Fin 32) (off : Nat) : Option Word :=
  let x := portOfPkg p n
  match off with
  | 0x080 => some (BitVec.ofNat 32 (x.lstate.code * 2 ^ 28 + x.version % 4 * 2 ^ 26 + popcount 16 x.txMap.toNat * 2 ^ 21
      + popcount 16 x.rxMap.toNat % 32 * 2 ^ 16 + min 65535 x.retry.length))
  | 0x098 => some (match x.lastPeer with
      | some e => BitVec.ofNat 32 (e.chip.toNat * 2 ^ 16 + e.port % 32 * 2 ^ 11 + (if e.assigned then 2 ^ 10 else 0))
      | none => 0)
  | 0x09C => some (BitVec.ofNat 32 (x.rxMap.toNat * 65536 + x.txMap.toNat))
  | _ =>
    if 0x0A0 ≤ off ∧ off < 0x0B0 then
      let c := (off - 0x0A0) / 4
      some (BitVec.ofNat 32 (min 65535 (nth x.credits.held c 0) * 65536 + min 65535 (x.occupancy c)))
    else none

/-- CMN (R334): registers of instance 4 read the hub's values in every page. -/
def cmnView (p : Pkg) (g : Page) (off : Nat) : Option Word :=
  if off = 0x080 then
    some (BitVec.ofNat 32 ((if p.quarantined then 2 ^ 31 else 0) + (if 1024 ≤ p.fences.length then 2 ^ 30 else 0)
      + min 1024 p.fences.length * 2 ^ 10 + ((List.range 64).filter (fun i => bit (entryVal p g 0 i) 31)).length))
  else if off = 0x090 ∨ off = 0x094 then some (getReg p hubCmn off)
  else if off = 0x204 then some (tableView p g)
  else if off = 0x208 then some (~~~(tableView p g))
  else if 0x300 ≤ off ∧ off < 0x380 then
    (match (List.finRange 32).find? (fun n => n.val == (off - 0x300) / 4) with
      | some n =>
        let chip := match (portOfPkg p n).lastPeer with | some e => e.chip.toNat | none => 0
        some (BitVec.ofNat 32 (chip * 65536 + min 255 (bellPort p n).hbSilent))
      | none => none)
  else none

/-- LEDG (R335). -/
def ledgView (p : Pkg) (d : Fin 4) (off : Nat) : Option Word :=
  let l := ledgerOf p d
  let count (m : Map (Chip × Nat) (List LedgerEntry)) : Nat := (m.map (fun kv => kv.2.length)).sum
  if off = 0x080 then some (BitVec.ofNat 32 (count l.twin * 2 ^ 16 + (if l.frozen then 2 ^ 12 else 0) + count l.own)) else none

/-- WELL (R355). -/
def wellView (p : Pkg) (d : Fin 4) (off : Nat) : Option Word :=
  let w := wellOf p d
  if off = 0x080 then
    some (BitVec.ofNat 32 (freeGranules p d * 2 ^ 16 + min 255 w.insts.length * 256 + (if w.insts.any (fun x => x.passThru) then 1 else 0)))
  else if off = 0x204 then some (tableView p (.well d))
  else if off = 0x208 then some (~~~(tableView p (.well d)))
  else none

/-- MEMC (R216, R229, R233). -/
def memcView (p : Pkg) (n : Fin 12) (off : Nat) : Option Word :=
  match off with
  | 0x080 => some (memcStatus p n)
  | 0x090 => some (getReg p (.memc 0) 0x090)
  | 0x094 => some (getReg p (.memc 0) 0x094)
  | 0x0A8 => some (repairLogView p n).1
  | 0x0AC => some (repairLogView p n).2
  | 0x204 => some (tableView p (.memc n))
  | 0x208 => some (~~~(tableView p (.memc n)))
  | _ => none

/-- SEL (R272). -/
def selView (p : Pkg) (e : Fin 16) (off : Nat) : Option Word :=
  match off with
  | 0x080 => some (selStatus p e)
  | 0x09C => some (laserView p e)
  | 0x0A0 => some (portStateView p (portOf2 e 0))
  | 0x0A4 => some (portLanesView p (portOf2 e 0))
  | 0x0A8 => some (portStateView p (portOf2 e 1))
  | 0x0AC => some (portLanesView p (portOf2 e 1))
  | 0x204 => some (tableView p (.sel e))
  | _ =>
    if 0x100 ≤ off ∧ off < 0x200 then some (laneStatusView p e ⟨(off - 0x100) / 4 % 64, Nat.mod_lt _ (by decide)⟩) else none

/-- What hart the debug module has selected (R488): hartsel of dmcontrol. -/
def hartSel (p : Pkg) : Nat := bits (Map.getD p.dbg.dmi 0x10 0) 25 16

/-- The debug module's registers (R488; the register layout of RISC-V debug 0.13.2): dmstatus and hartinfo are served, the rest is as
stored. -/
def dmiView (p : Pkg) (a : Nat) : Word :=
  if a = 0x11 then
    let h := hartSel p
    let halted := p.dbg.halted.contains h
    BitVec.ofNat 32 (2 + 128 + (if 4 ≤ h then 3 * 2 ^ 14 else if halted then 3 * 2 ^ 8 else 3 * 2 ^ 10)
      + (if (Map.getD p.dbg.dmi (0x180 + h) 0) == 1 then 3 * 2 ^ 16 else 0))
  else if a = 0x16 then BitVec.ofNat 32 (bits (Map.getD p.dbg.dmi 0x16 0) 10 8 * 256 + 1)
  else if a = 0x38 then (Map.getD p.dbg.dmi 0x38 0x00040000 &&& 0x001FF000#32) ||| 0x20000604#32
  else Map.getD p.dbg.dmi a 0

/-- DBG (R488, R496). -/
def dbgView (p : Pkg) (off : Nat) : Option Word :=
  match off with
  | 0x080 => some (dbgStatus p)
  | 0x098 => some (seqStatus p)
  | 0x114 => some (mrgStatus p)
  | _ =>
    if 0x400 ≤ off ∧ off < 0x600 then some (dmiView p ((off - 0x400) / 4))
    else if 0x800 ≤ off ∧ off < 0x900 then some (mrgEdge p ((off - 0x800) / 4))
    else none

/-- THIM (R459, R466): WCTL reads the window's state. -/
def thimView (p : Pkg) (g : Fin 2) (off : Nat) : Option Word :=
  if off = 0x080 then some (thimStatus p g)
  else if 0x200 ≤ off ∧ off < 0x600 ∧ off % 0x20 < 8 then
    let v := (getReg p (.thim g) (off / 0x20 * 0x20) &&& 0xF8000000#32) + BitVec.ofNat 32 (Map.getD (thimOf p g).wins ((off - 0x200) / 0x20) 0 * 4)
    some (if off % 0x20 = 0 then v else ~~~v)
  else none

/-- The link of a STCH page. -/
def stitchOfPage (g : Page) : Option StitchId := if g.type = 0x0C then stitchNo g.inst else none

/-- The register words that hardware serves; none for a word that reads as stored. -/
def hwView (p : Pkg) (g : Page) (off : Nat) : Option Word :=
  match g.type with
  | 0x02 =>
    (match off with
      | 0x080 => some (secStatus p)
      | 0x084 => some (keysView p)
      | 0x088 => some (BitVec.ofNat 32 p.boot.counter)
      | 0x08C => some (BitVec.ofNat 32 p.boot.scope)
      | 0x090 => some (lo32 p.boot.unlockEnd)
      | 0x094 => some (hi32 p.boot.unlockEnd)
      | _ => none)
  | 0x03 => if off = 0x080 then some (reeveStatus p) else none
  | 0x04 =>
    if off = 0x080 then some (hrthStatus p)
    else if off = 0x0A8 then some (BitVec.ofNat 32 (p.boot.count * 65536 + p.boot.cause)) else none
  | 0x05 => if off = 0x080 then some (pwrStatus p) else none
  | 0x06 =>
    if h : g.inst < 5 then
      (if off = 0x080 then some (thrmStatus p ⟨g.inst, h⟩)
      else if 0x100 ≤ off ∧ off < 0x180 then some (sensorView p ⟨g.inst, h⟩ ((off - 0x100) / 4)) else none)
    else none
  | 0x07 =>
    if off = 0x080 then some (lo32 p.bell)
    else if off = 0x084 then some (hi32 p.bell)
    else if off = 0x088 then some (bellStatus p)
    else if 0x200 ≤ off ∧ off < 0x300 then
      (match portNo ((off - 0x200) / 8) with
        | some n => some (if off % 8 = 0 then dlyReg p n else ofsReg p n)
        | none => none)
    else none
  | 0x09 => dbgView p off
  | 0x0B => (match siteOfPage g with | some n => thimView p n off | none => none)
  | 0x0C => (match stitchOfPage g with | some l => if off = 0x080 then some (stitchStatus p l) else none | none => none)
  | 0x10 | 0x11 | 0x12 | 0x13 => (match coreOfPage g with | some c => coreView p c off | none => none)
  | 0x14 => (match clstOfPage g with | some (d, c) => clstView p (.cluster d c) off | none => none)
  | 0x15 => (match bobOfPage g with | some b => bobView p b off | none => none)
  | 0x16 => (match stackOfPage g with | some n => memcView p n off | none => none)
  | 0x17 => (match millOfPage g with | some m => if off = 0x080 then some (millStatus p m) else none | none => none)
  | 0x18 => (match dieOfPage 0x18 g with | some d => wellView p d off | none => none)
  | 0x19 => (match dieOfPage 0x19 g with | some d => drtView p d off | none => none)
  | 0x1A => (match prkOfPage g with | some n => (if off = 0x104 then some (tableView p g) else prkView p n off) | none => none)
  | 0x1B => (match selOfPage g with | some e => selView p e off | none => none)
  | 0x1C => (match lnkOfPage g with | some n => lnkView p n off | none => none)
  | 0x1D => cmnView p g off
  | 0x1E => (match dieOfPage 0x1E g with | some d => ledgView p d off | none => none)
  | _ => none

/-- A register word as it reads, without the side effects of reading it: write-only registers, reserved offsets and reserved fields read
zero (R46); the complement of a paired register is served beside it. -/
def regView (p : Pkg) (g : Page) (off : Nat) : Word :=
  if off < 0x040 then commonView p g off
  else
    match findRow g off with
    | none => 0
    | some (r, _, _) =>
      if r.kind = .wo then 0
      else
        match hwView p g off with
        | some v => v
        | none => getReg p g off

end Sys2Proof.Machine
end

