-- ==== Sys2Proof/Machine/RegBus.lean ====
section
/-! DEFINITION. The register bus (R31–R46): tally snapshots, latches, paired staging and commits, 64-bit values, event registers, and what
each commit or write does. -/
namespace Sys2Proof.Machine
open Sys2Proof

/-! ## Reads (R38, R39, R206) -/

def setLatch (p : Pkg) (ag : Agent) (g : Page) (l : Latch) : Pkg := { p with rg := { p.rg with latches := Map.put p.rg.latches (ag, g) l } }
def dropLatch (p : Pkg) (ag : Agent) (g : Page) : Pkg := { p with rg := { p.rg with latches := Map.drop p.rg.latches (ag, g) } }

/-- A read of TALLY_IN's lo word (R38): the snapshot is taken. -/
def snapshotRead (p : Pkg) (ag : Agent) (g : Page) : Pkg × Word :=
  ({ p with rg := { p.rg with snaps := Map.put p.rg.snaps (ag, g) ⟨(block p g).tin, (block p g).tout⟩ } }, lo32 (block p g).tin)

/-- A tally word: the agent's snapshot's, or the live one (R38). -/
def tallyWord (p : Pkg) (ag : Agent) (g : Page) (off : Nat) : Word :=
  match Map.look p.rg.snaps (ag, g) with
  | some s =>
    (match off with
      | 0x02C => hi32 s.tin
      | 0x030 => lo32 s.tout
      | 0x034 => hi32 s.tout
      | 0x038 => lo32 (s.tin - s.tout)
      | _ => hi32 (s.tin - s.tout))
  | none => commonView p g off

/-- The 64-bit value that an offset is a word of, as its own offset and the word within it. -/
def wide64 (g : Page) (off : Nat) : Option (Nat × Nat) :=
  match findRow g off with
  | some (r, o, d) => if (r.kind = .ro64 ∨ r.kind = .cnt ∨ r.kind = .rwp64) ∧ d < 2 then some (o, d) else none
  | none => none

/-- The bobbin whose DONE register an offset is. -/
def doneOf (g : Page) (o : Nat) : Option BobId := if o = 0x0A0 then bobOfPage g else none

/-- A read of a lo half (R39): the agent's latch takes the hi half; one that it still held sets lost_latch. DONE_LO latches the entry at the
front of the FIFO (R206). -/
def readLo (p : Pkg) (ag : Agent) (g : Page) (o : Nat) : Pkg × Word :=
  let v := regView p g o
  let q := if (Map.look p.rg.latches (ag, g)).isSome then raise p g evLostLatch else p
  let q := setLatch q ag g ⟨o, regView p g (o + 4)⟩
  match doneOf g o with
  | some b => (setBob q b { bobOf q b with popHeld := !(bobOf q b).fifo.isEmpty }, v)
  | none => (q, v)

/-- A read of a hi half (R39): the latched half, which is released; or the live half. DONE_HI pops the latched entry, REPAIR_LOG's hi word
the oldest (R206, R229). -/
def readHi (p : Pkg) (ag : Agent) (g : Page) (o : Nat) : Pkg × Word :=
  let held := match Map.look p.rg.latches (ag, g) with | some l => if l.off = o then some l.hi else none | none => none
  let v := held.getD (regView p g (o + 4))
  let q := if held.isSome then dropLatch p ag g else p
  match doneOf g o, (if o = 0x0A8 then stackOfPage g else none) with
  | some b, _ =>
    let x := bobOf q b
    (if held.isSome && x.popHeld then setBob q b { x with fifo := x.fifo.drop 1, popHeld := false } else q, v)
  | none, some n => (setStack q n { stackOf q n with log := (stackOf q n).log.drop 1 }, v)
  | none, none => (q, v)

/-- Whether a word is the data window of a table that a read steps on (R60, R65, R295, R334). -/
def tableStep (g : Page) (off : Nat) : Option (Nat × Nat) :=
  match g.type, off with
  | 0x19, 0x128 => some (0x120, 12)
  | 0x19, 0x144 => some (0x140, 16)
  | 0x1A, 0x104 => some (0x100, 12)
  | 0x16, 0x204 | 0x18, 0x204 | 0x1B, 0x204 | 0x1D, 0x204 => some (tableAddr g)
  | _, _ => none

/-- A read of one word of a page that is not OFF, with its side effects. -/
def readWord (p : Pkg) (ag : Agent) (g : Page) (off : Nat) : Pkg × Word :=
  if off = 0x028 then snapshotRead p ag g
  else if 0x02C ≤ off ∧ off < 0x040 then (p, tallyWord p ag g off)
  else
    match wide64 g off with
    | some (o, 0) => readLo p ag g o
    | some (o, _) => readHi p ag g o
    | none =>
      let v := regView p g off
      match tableStep g off with
      | some (a, w) => (advance p g a w, v)
      | none => (p, v)

/-- A read whose word is put out. -/
def readOut (p : Pkg) (ag : Agent) (g : Page) (off : Nat) : Pkg :=
  let (q, v) := readWord p ag g off
  answer q ag v

/-- TALLY_SNAPSHOT_READ (R38). -/
def execTallySnapshotRead (agent : Agent) (page : Page) (s : State) : Host.Outcome State Fault Refusal :=
  act s (fun p => regGate p agent page 0x028 (fun q => readOut q agent page 0x028))

/-- LATCH_LO_READ (R39): a read of the lo half of the 64-bit value at an offset. -/
def execLatchLoRead (agent : Agent) (page : Page) (off : Nat) (s : State) : Host.Outcome State Fault Refusal :=
  act s (fun p => regGate p agent page off (fun q => readOut q agent page off))

/-- LATCH_HI_READ (R39): a read of the hi half of the 64-bit value at an offset. -/
def execLatchHiRead (agent : Agent) (page : Page) (off : Nat) (s : State) : Host.Outcome State Fault Refusal :=
  act s (fun p => regGate p agent page (off + 4) (fun q => readOut q agent page (off + 4)))

/-- DONE_HI_READ (R206). -/
def execDoneHiRead (agent : Agent) (bob : BobId) (s : State) : Host.Outcome State Fault Refusal :=
  act s (fun p => regGate p agent (.bob bob) 0x0A4 (fun q => readOut q agent (.bob bob) 0x0A4))

/-! ## Events (R36, R37) -/

/-- A write to EVT_STATUS: bits written 1 clear, but for those that arise in the same cycle; EVT_FIRST clears when no bit is left; a 1 in
the reserved bits [15:7] sets rsvd_write (R46). -/
def evtClear (p : Pkg) (g : Page) (v arising : Word) : Pkg :=
  let b := block p g
  let left := b.evt &&& ~~~v
  let q := setBlock p g { b with evt := left, first := if left = 0 then none else b.first, forced := b.forced &&& left }
  let q := if v &&& 0x0000FF80#32 = 0 then q else raise q g evRsvdWrite
  raiseAll q g (setBits 32 arising.toNat)

/-- EVT_STATUS_CLEAR (R37). -/
def execEvtStatusClear (agent : Agent) (page : Page) (value arising : Word) (s : State) : Host.Outcome State Fault Refusal :=
  act s (fun p => answerAfter p agent page value arising)
where
  answerAfter (p : Pkg) (ag : Agent) (g : Page) (v arising : Word) : Pkg := regGateW p ag g 0x018 (fun q => evtClear q g v arising)

/-- The event bits that a block implements (R36). -/
def evtMask (g : Page) : Word := BitVec.ofNat 32 ((2 ^ evtBits g.type - 1) &&& 0xFFFF007F)

/-- A write to EVT_FORCE (R37): the bits are set as if the events had occurred, and are marked forced in the records. -/
def evtForce (p : Pkg) (g : Page) (v : Word) : Pkg :=
  let m := v &&& evtMask g
  let q := if v &&& ~~~(evtMask g) = 0 then p else raise p g evRsvdWrite
  let q := raiseAll q g (setBits 32 m.toNat)
  setBlock q g { block q g with forced := (block q g).forced ||| m }

/-- EVT_FORCE_WRITE (R37). -/
def execEvtForceWrite (agent : Agent) (page : Page) (value : Word) (s : State) : Host.Outcome State Fault Refusal :=
  act s (fun p => regGateW p agent page 0x020 (fun q => evtForce q page value))

/-! ## Commits (R41, R44, R46) -/

/-- The values that the description of a margin register states (R496). -/
def marginRange (off : Nat) (v : Word) : Bool :=
  if off = 0x100 then
    (match bits v 31 30 with
      | 0 => (stackNo (bits v 29 22)).isSome
      | 1 => (portNo (bits v 29 22)).isSome
      | 2 => (stitchNo (bits v 29 22)).isSome
      | _ => false)
  else decide (bits v 23 20 ≤ 7) && decide (1 ≤ bits v 15 8) && decide (bits v 15 8 ≤ 32)

/-- A window's register (R145, R158): changed only while the window is CLOSED; in a core store the first line is below 16,384. -/
def winCommit (p : Pkg) (st : StoreId) (base off : Nat) (v mask : Word) : Pkg :=
  let w := (off - base) / 0x40
  let inRange : Bool := match st with | .core _ => off % 0x40 != 0 || decide (bits v 31 14 = 0 ∨ bits v 31 17 ≠ 0 ∧ bits v 16 14 = 0) | _ => true
  if (winOf p st w).state ≠ .closed then raise p st.page (evWinBusy st)
  else if !inRange then discardCommit p st.page
  else commitPair p st.page off v mask

/-- A commit of a CORE page's register (R130, R131, R144, R150, R158). -/
def coreCommit (p : Pkg) (c : CoreId) (off : Nat) (v mask : Word) : Pkg :=
  if off = 0x088 then ilvCommit p (.core c) v
  else if off = 0x090 then bankGateCommit p (.core c) (v.setWidth 64)
  else if off = 0x408 then (if 2 ≤ bits v 1 0 then discardCommit p (.core c) else commitPair p (.core c) off v mask)
  else if 0x600 ≤ off then winCommit p (.core c) 0x600 off v mask
  else if 0x100 ≤ off ∧ off < 0x300 then
    let x : CtxId := ⟨c, ⟨(off - 0x100) / 0x80 % 4, Nat.mod_lt _ (by decide)⟩⟩
    match (List.finRange 6).find? (fun k => (pairReg k).1 == off % 0x80) with
    | some k => baseBoundCommit p x k v
    | none => commitPair p (.core c) off v mask
  else commitPair p (.core c) off v mask

/-- A commit of a DRT page's register (R63, R293, R296, R306). -/
def drtCommit (p : Pkg) (d : Fin 4) (off : Nat) (v mask : Word) : Pkg :=
  match off with
  | 0x090 => if d = 0 then chipCommit p v else p
  | 0x098 => sliceCommit p d v
  | 0x0A0 => portEnCommit p d v
  | 0x100 => swapArm p d (bits v 31 8) (bits v 7 0)
  | _ => commitPair p (.drt d) off v mask

/-- The modules that a Stitch link has, as the defined bits of STCH_CFG (R465). -/
def stchMask (g : Page) : Word := match stitchOfPage g with | some l => BitVec.ofNat 32 (2 ^ linkModules l - 1) | none => 0

/-- A pair commits: the block acts on the value (R41). -/
def commitReg (p : Pkg) (g : Page) (off : Nat) (v mask : Word) : Pkg :=
  if off = 0x008 then commitCtrl p g v
  else
    match g.type with
    | 0x05 => if off = 0x090 then (pwrReq p v).1 else commitPair p g off v mask
    | 0x06 => thrmCfgCommit p g v
    | 0x07 => bellCommit (commitPair p g off v mask)
    | 0x09 => if 0x100 ≤ off ∧ !marginRange off v then discardCommit p g else commitPair p g off v mask
    | 0x0B =>
      if 0x200 ≤ off then (match siteOfPage g with | some n => thimWinCommit p n ((off - 0x200) / 0x20) (off % 0x20) v | none => p)
      else commitPair p g off v mask
    | 0x0C => commitPair p g off v (stchMask g)
    | 0x10 | 0x11 | 0x12 | 0x13 => (match coreOfPage g with | some c => coreCommit p c off v mask | none => p)
    | 0x14 =>
      (match clstOfPage g with
        | some (d, c) => if off = 0x088 then ilvCommit p (.cluster d c) v else winCommit p (.cluster d c) 0x400 off v mask
        | none => p)
    | 0x15 => commitPair p g off (if g.inst < 0x80 then v else v ||| 0xFF00#32) mask
    | 0x16 =>
      (match stackOfPage g with
        | some n => if off = 0x088 then memcCfgCommit p n v else if n = 0 then mapCommit p v else p
        | none => p)
    | 0x17 => (match millOfPage g with | some m => millCfgCommit p m v | none => p)
    | 0x19 => (match dieOfPage 0x19 g with | some d => drtCommit p d off v mask | none => p)
    | 0x1A =>
      (match prkOfPage g with
        | some n =>
          let q := if v &&& ~~~mask = 0 then p else raise p g evRsvdWrite
          if bit v 0 then prkSeal q n else prkUnseal q n
        | none => p)
    | 0x1B => (match selOfPage g with | some e => selCfgCommit p e v | none => p)
    | 0x1D =>
      if off = 0x090 then
        (if g.inst ≠ 4 then p else if 1 ≤ bits v 7 4 ∧ bits v 7 4 ≤ 3 then discardCommit p g else commitPair p g off v mask)
      else commitPair p g off v mask
    | _ => commitPair p g off v mask

/-- A 64-bit RWP value commits (R40): BELL.EPOCH, a cluster store's BANK_GATE, a window's expiry. -/
def commit64 (p : Pkg) (g : Page) (off : Nat) (v : DWord) : Pkg :=
  match storeOfPage g with
  | some st =>
    let base := match st with | .core _ => 0x600 | .cluster _ _ => 0x400
    if off < base then bankGateCommit p st v
    else if (winOf p st ((off - base) / 0x40)).state ≠ .closed then raise p g (evWinBusy st)
    else storePair64 p g off v
  | none => if g = .bell then bellCommit (storePair64 p g off v) else storePair64 p g off v

/-- The staged value of a register while it is pending: fewer than 4,096 ticks old (R41). -/
def stagedOf (p : Pkg) (g : Page) (o : Nat) : Option Staged :=
  match Map.look p.rg.staged ⟨g, o⟩ with
  | some x => if p.count < x.at_ + 4096 then some x else none
  | none => none
def setStaged (p : Pkg) (g : Page) (o : Nat) (x : Staged) : Pkg := { p with rg := { p.rg with staged := Map.put p.rg.staged ⟨g, o⟩ x } }
def dropStaged (p : Pkg) (g : Page) (o : Nat) : Pkg := { p with rg := { p.rg with staged := Map.drop p.rg.staged ⟨g, o⟩ } }

/-- A staging write of word d of a register (R40, R41): a value that was pending is discarded with pair_err, unless it is the same agent's
and this word of a 64-bit value is new. The 4,096 ticks run from the last word staged (log entry 33). -/
def stage (p : Pkg) (ag : Agent) (g : Page) (o d : Nat) (v : Word) : Pkg :=
  match stagedOf p g o with
  | some x =>
    if x.agent = ag ∧ (Map.look x.words d).isNone then setStaged p g o ⟨ag, Map.put x.words d v, p.count⟩
    else setStaged (raise p g evPairErr) g o ⟨ag, [(d, v)], p.count⟩
  | none =>
    let q := if (Map.look p.rg.staged ⟨g, o⟩).isSome then raise p g evPairErr else p
    setStaged q g o ⟨ag, [(d, v)], p.count⟩

/-- The write of a complement (R41): the pair commits when the same agent's pending value matches; else pair_err. -/
def commit (p : Pkg) (ag : Agent) (g : Page) (o : Nat) (c mask : Word) : Pkg :=
  let q := dropStaged p g o
  match stagedOf p g o with
  | some x => if x.agent = ag ∧ Map.look x.words 0 = some (~~~c) then commitReg q g o (~~~c) mask else raise q g evPairErr
  | none => raise q g evPairErr

/-- The write of the hi complement of a 64-bit value (R40). -/
def commitWide (p : Pkg) (ag : Agent) (g : Page) (o : Nat) (c : Word) : Pkg :=
  let q := dropStaged p g o
  match stagedOf p g o with
  | some x =>
    match Map.look x.words 0, Map.look x.words 1, Map.look x.words 2 with
    | some lo, some hi, some cl => if x.agent = ag ∧ cl = ~~~lo ∧ c = ~~~hi then commit64 q g o (join64 lo hi) else raise q g evPairErr
    | _, _, _ => raise q g evPairErr
  | none => raise q g evPairErr

/-- PAIRED_PENDING_EXPIRY (R41): at the 4,096th tick a pending value is discarded. -/
def pendingExpiry (p : Pkg) (g : Page) (o : Nat) : Pkg :=
  match Map.look p.rg.staged ⟨g, o⟩ with
  | some x => if x.at_ + 4096 ≤ p.count then raise (dropStaged p g o) g evPairErr else p
  | none => p

def execPairedPendingExpiry (page : Page) (off : Nat) (s : State) : Host.Outcome State Fault Refusal :=
  act s (fun p => pendingExpiry p page off)

/-! ## Writes that act (R10) -/

/-- A command register's reserved bits, written non-zero, set rsvd_write (R46). -/
def rsvdOf (p : Pkg) (g : Page) (v mask : Word) : Pkg := if v &&& ~~~mask = 0 then p else raise p g evRsvdWrite

/-- CTX_CMD (R131). -/
def ctxCmd (p : Pkg) (c : CtxId) (v : Nat) : Pkg :=
  match v with
  | 1 => ctxStart p c
  | 2 => ctxStop p c
  | 3 => ctxClear p c
  | _ => raise p (.core c.core) evCtxBusy

/-- SEQ_CMD (R489). -/
def seqWrite (p : Pkg) (v : Nat) : Pkg :=
  match v with
  | 1 => seqCmd p (fun x => if x.halted then x else { x with halted := true, bp := none, stepping := false })
  | 2 => seqCmd p (fun x => { x with halted := false, bp := none, stepping := false, skipBp := x.bp.isSome })
  | 3 => seqCmd p (fun x => { x with halted := false, bp := none, stepping := true, skipBp := true })
  | _ => p

/-- MRG_CMD (R492, R494). -/
def mrgWrite (p : Pkg) (v : Word) : Pkg :=
  let q := if bit v 1 then stopMargin p Status.failedDisabled else p
  if bit v 0 then mrgGo q else q

/-- SEL_CMD (R260, R264, R268, R272). -/
def selWrite (p : Pkg) (e : Fin 16) (v : Word) : Pkg :=
  let q := if bit v 8 then selRelock p e ⟨bits v 21 16 % 64, Nat.mod_lt _ (by decide)⟩ else p
  let q := if bit v 2 then selRecal q e else q
  let q := if bit v 0 then selWake q (portOf2 e 0) else q
  if bit v 1 then selWake q (portOf2 e 1) else q

/-- SAMPLER_PASS (R334, R408): clear takes precedence over go. -/
def passWrite (p : Pkg) (v : Word) : Pkg :=
  let chip : Chip := BitVec.ofNat 16 v.toNat
  if bit v 30 then setPass p chip false else if bit v 31 then setPass p chip true else p

/-- A write to a write-only register. -/
def woWrite (p : Pkg) (g : Page) (off : Nat) (v : Word) : Pkg :=
  match g.type with
  | 0x09 => if off = 0x094 then seqWrite p (bits v 1 0) else mrgWrite p v
  | 0x10 | 0x11 | 0x12 | 0x13 =>
    (match coreOfPage g with
      | some c => ctxCmd p ⟨c, ⟨(off - 0x100) / 0x80 % 4, Nat.mod_lt _ (by decide)⟩⟩ (bits v 1 0)
      | none => p)
  | 0x15 => (match bobOfPage g with | some b => if bit v 31 then postGo p b (bits v 3 0) else p | none => p)
  | 0x1B => (match selOfPage g with | some e => selWrite p e v | none => p)
  | 0x1C => (match lnkOfPage g with | some n => if bit v 0 then lnkRetrain p n else p | none => p)
  | 0x1D => if g.inst ≠ 4 then p else if off = 0x098 then fenceReqWrite p v else passWrite p v
  | 0x1E =>
    (match dieOfPage 0x1E g with
      | some d => if bit v 31 then lqGo p d ⟨bits v 1 0 % 4, Nat.mod_lt _ (by decide)⟩ else p
      | none => p)
  | _ => p

/-- A write to WIN_CTL (R145, R148, R158): the command opens, taking the owner written with it, or closes. -/
def winCtlWrite (p : Pkg) (st : StoreId) (off : Nat) (v : Word) : Pkg :=
  let base := match st with | .core _ => 0x600 | .cluster _ _ => 0x400
  let w := (off - base) / 0x40
  match bits v 1 0 with
  | 1 => winOpen p st w ⟨bits v 9 8 % 4, Nat.mod_lt _ (by decide)⟩ (bits v 19 16)
  | 2 => winClose p st w
  | _ => raise p st.page (evWinBusy st)

/-- The doorbell bits that an agent writes as 1 (R462): a writer's are set, a reader's cleared. -/
def doorbellWrite (p : Pkg) (ag : Agent) (g : Fin 2) (v : Word) : Pkg :=
  (setBits 16 v.toNat).foldl (fun q b => if slotWriter ag g b then doorbellSet q ag g b else doorbellClear q ag g b) p

/-- A write to a plain register; the complement words of the tables commit their entries, and a mailbox slot is written by its writer
while its bit is clear (R462). -/
def rwWrite (p : Pkg) (ag : Agent) (g : Page) (off : Nat) (v mask : Word) : Pkg :=
  let plain := rsvdOf (setReg p g off (v &&& mask)) g v mask
  match g.type, off with
  | 0x19, 0x130 => (match dieOfPage 0x19 g with | some d => flowCommit p d v | none => p)
  | 0x19, 0x148 => (match dieOfPage 0x19 g with | some d => rtDataCommit p d v | none => p)
  | 0x19, 0x124 | 0x19, 0x128 | 0x19, 0x12C | 0x19, 0x144 => setReg p g off v
  | 0x1A, 0x104 => (match prkOfPage g with | some n => prkTblWrite p n v | none => p)
  | 0x16, 0x208 => (match stackOfPage g with | some n => memcTblWrite p n v | none => p)
  | 0x18, 0x208 => (match dieOfPage 0x18 g with | some d => wellTblWrite p d v | none => p)
  | 0x1B, 0x204 => (match selOfPage g with | some e => selTblWrite p e v | none => p)
  | 0x1D, 0x208 => if h : g.inst < 5 then cmnTblWrite p ⟨g.inst, h⟩ v else p
  | 0x0B, _ =>
    (match siteOfPage g with
      | some n =>
        let slot := (off - 0xC00) / 64
        if slotWriter ag n slot && inService p g && !bit (getReg p g 0x098) slot then setReg p g off v else p
      | none => p)
  | _, _ => plain

/-! ## The debug module (R488) -/

/-- The Reeve cores that resume: the watchdog counts afresh from zero when the last one does. A core set to single step halts again. -/
def resumeHart (p : Pkg) (h : Nat) : Pkg :=
  let steps := bit (Map.getD p.dbg.dmi (0x100 + h) 0) 2
  let left := if steps then p.dbg.halted else p.dbg.halted.filter (· != h)
  { p with
    dbg := { p.dbg with halted := left, dmi := Map.put p.dbg.dmi (0x180 + h) 1 }
    rv := { p.rv with wdogAt := if !p.dbg.halted.isEmpty && left.isEmpty then p.count else p.rv.wdogAt } }

/-- dmcontrol: haltreq and resumereq act on the selected hart, one of the four Reeve cores; dmactive = 0 resets the module. -/
def dmControl (p : Pkg) (v : Word) : Pkg :=
  let h := bits v 25 16
  if !bit v 0 then
    let q := p.dbg.halted.foldl (fun q k => resumeHart { q with dbg := { q.dbg with dmi := Map.drop q.dbg.dmi (0x100 + k) } } k) p
    { q with dbg := { q.dbg with dmi := [] } }
  else
    let q := { p with dbg := { p.dbg with dmi := Map.put p.dbg.dmi 0x10 (v &&& 0x03FF0001#32) } }
    if 4 ≤ h then q
    else if bit v 31 then
      { q with dbg := { q.dbg with halted := if q.dbg.halted.contains h then q.dbg.halted else h :: q.dbg.halted
                                   dmi := Map.drop q.dbg.dmi (0x180 + h) } }
    else if bit v 30 then (if q.dbg.halted.contains h then resumeHart q h else { q with dbg := { q.dbg with dmi := Map.put q.dbg.dmi (0x180 + h) 1 } })
    else q

/-- Where the debug module keeps a core's tselect, and tdata1 and tdata2 of the trigger that it selects (R488). -/
def trigCsr (p : Pkg) (h k : Nat) : Nat :=
  if k = 0 then 0x200 + h else 0x300 + 0x10 * h + 2 * (Map.getD p.dbg.dmi (0x200 + h) 0).toNat + k

/-- What the three registers hold: tselect one of four triggers, tdata1 the type mcontrol alone (R488). -/
def trigKept (k : Nat) (v : Word) : Word :=
  if k = 0 then v &&& 3 else if k = 1 then v &&& 0x07FFFFFF#32 ||| 0x20000000#32 else v

/-- An abstract command reaches a register of the selected core while it is halted: a write to dcsr and to the registers of its four triggers is
kept, a read of any other register gives a free value, since the manual does not describe the cores' registers. -/
def dmCommand (p : Pkg) (v : Word) : Pkg :=
  let h := hartSel p
  let fail (c : Nat) : Pkg := { p with dbg := { p.dbg with dmi := Map.put p.dbg.dmi 0x16 (BitVec.ofNat 32 (c * 256)) } }
  if bits (Map.getD p.dbg.dmi 0x16 0) 10 8 ≠ 0 then p
  else if bits v 31 24 ≠ 0 then fail 2
  else if !p.dbg.halted.contains h then fail 4
  else if !bit v 17 then p
  else if bits v 15 0 = 0x07B0 then
    if bit v 16 then { p with dbg := { p.dbg with dmi := Map.put p.dbg.dmi (0x100 + h) (Map.getD p.dbg.dmi 0x04 0) } }
    else { p with dbg := { p.dbg with dmi := Map.put p.dbg.dmi 0x04 (Map.getD p.dbg.dmi (0x100 + h) 0) } }
  else if 0x07A0 ≤ bits v 15 0 ∧ bits v 15 0 ≤ 0x07A2 then
    let k := bits v 15 0 - 0x07A0
    let at_ := trigCsr p h k
    if bit v 16 then { p with dbg := { p.dbg with dmi := Map.put p.dbg.dmi at_ (trigKept k (Map.getD p.dbg.dmi 0x04 0)) } }
    else { p with dbg := { p.dbg with dmi := Map.put p.dbg.dmi 0x04 (trigKept k (Map.getD p.dbg.dmi at_ 0)) } }
  else if bit v 16 then p
  else { p with free := p.free + 1, dbg := { p.dbg with dmi := Map.put p.dbg.dmi 0x04 (Config.freeWord p.free) } }

/-- A write to a debug module register other than the system bus data. -/
def dmiWrite (p : Pkg) (a : Nat) (v : Word) : Pkg :=
  match a with
  | 0x10 => dmControl p v
  | 0x11 => p
  | 0x16 => { p with dbg := { p.dbg with dmi := Map.put p.dbg.dmi 0x16 (Map.getD p.dbg.dmi 0x16 0 &&& ~~~(v &&& 0x700#32)) } }
  | 0x17 => dmCommand p v
  | 0x38 =>
    let old := Map.getD p.dbg.dmi 0x38 0x00040000
    { p with dbg := { p.dbg with dmi := Map.put p.dbg.dmi 0x38 ((v &&& 0x001F8000#32) ||| (old &&& ~~~v &&& 0x7000#32)) } }
  | _ => { p with dbg := { p.dbg with dmi := Map.put p.dbg.dmi a v } }

/-! ## A write of one word -/

/-- A register that one instance of its page type holds for all: the others read its value and ignore writes. MAP of the MEMC pages
(R216), CHIP of the DRT pages (R293), HB_CFG, FENCE_REQ and SAMPLER_PASS of the CMN pages (R334). -/
def mapCopy (g : Page) (o : Nat) : Bool :=
  (g.type == 0x16 && o == 0x090 && g.inst != 0) || (g.type == 0x19 && o == 0x090 && g.inst != 0)
    || (g.type == 0x1D && (o == 0x090 || o == 0x098 || o == 0x09C) && g.inst != 4)

/-- A word written to a page by an agent that may (R35–R46). -/
def writeWord (p : Pkg) (ag : Agent) (g : Page) (off : Nat) (v : Word) : Pkg :=
  match off with
  | 0x008 => stage p ag g 0x008 0 v
  | 0x00C => commit p ag g 0x008 v 0xFFFFFFFF#32
  | 0x018 => evtClear p g v 0
  | 0x01C => rsvdOf (setBlock p g { block p g with mask := v &&& 0xFFFF007F#32 }) g v 0xFFFF007F#32
  | 0x020 => evtForce p g v
  | _ =>
    if off < 0x080 then p
    else
      match findRow g off with
      | none => p
      | some (r, o, d) =>
        let mask : Word := BitVec.ofNat 32 r.mask
        match r.kind with
        | .ro | .ro64 | .cnt => p
        | .rwp => if mapCopy g o then p else if d = 0 then stage p ag g o 0 v else commit p ag g o v mask
        | .rwp64 => if d < 3 then stage p ag g o d v else commitWide p ag g o v
        | .wo => if mapCopy g o then p else rsvdOf (woWrite p g off v) g v mask
        | .w1c => (match bobOfPage g with | some (.gateway k) => landClear p k v | _ => p)
        | .w1 => (match siteOfPage g with | some n => rsvdOf (doorbellWrite p ag n (v &&& mask)) g v mask | none => p)
        | .ctl => (match storeOfPage g with | some st => rsvdOf (winCtlWrite p st off v) g v (match st with | .core _ => 0x0000F3F3#32 | .cluster _ _ => 0x000FF3F3#32) | none => p)
        | .rw => if g = .dbg ∧ 0x400 ≤ off then dmiWrite p ((off - 0x400) / 4) v else rwWrite p ag g off v mask

/-! ## The bus -/

/-- The outcome of a 4-byte read or write by an agent at a local offset: a register page, or memory under the checks of R32, and for a
guest's range of R460. -/
def busCheck (write : Bool) (p : Pkg) (ag : Agent) (a : Nat) : Pkg × Status :=
  if a % 4 ≠ 0 then (tellPageAt (countRefusal p (cmnOfOffset p a)) a, Status.refusedUnmapped)
  else
    match rangeOf a with
    | .page g off =>
      let st := regStatus write p ag g off
      (if st = Status.done then countDebug p ag else regRefuse (if st = Status.refusedLocked then p else countDebug p ag) g st, st)
    | _ =>
      if ag = .debug ∧ debugLocked p (some (if write then 4 else 3)) then (lockRefused p, Status.refusedLocked)
      else
        let q := countDebug p ag
        let (q, st) := checkAccess q ag a 4 write
        if st ≠ Status.done then (q, st)
        else if write ∧ writeBarred q a 4 then (noteRefusal q a Status.refusedOffline, Status.refusedOffline)
        else (q, guestGate q a 4 (if write then 29 else 30))

/-- A word written over the bus. -/
def busWrite (p : Pkg) (ag : Agent) (a : Nat) (v : Word) : Pkg × Status :=
  let (q, st) := busCheck true p ag a
  if st ≠ Status.done then (q, st)
  else
    match rangeOf a with
    | .page g off => (writeWord q ag g off v, st)
    | .guest g o => (passToGuest q g o (.write (leBytes 4 v.toNat)), st)
    | _ => (writeLocal (countDram q a 4 true) a (leBytes 4 v.toNat) noTag, st)

/-- A word read over the bus. -/
def busRead (p : Pkg) (ag : Agent) (a : Nat) : Pkg × Status × Word :=
  let (q, st) := busCheck false p ag a
  if st ≠ Status.done then (q, st, 0)
  else
    match rangeOf a with
    | .page g off =>
      if stateOf q g = .off then (q, st, commonView q g off)
      else
        let (r, v) := readWord q ag g off
        (r, st, v)
    | .guest g o =>
      let r := passToGuest q g o (.read 4)
      (r, st, BitVec.ofNat 32 (leNat (readLocal r a 4)))
    | _ =>
      (countDram q a 4 false, if localPoisoned q a 4 then Status.donePoisoned else st, BitVec.ofNat 32 (leNat (readLocal q a 4)))

/-- PAIRED_STAGE (R41): a write to a staging word of a paired register. -/
def execPairedStage (agent : Agent) (page : Page) (off : Nat) (value : Word) (s : State) : Host.Outcome State Fault Refusal :=
  act s (fun p => regGateW p agent page off (fun q => if stages page off then writeWord q agent page off value else q))
where
  stages (g : Page) (off : Nat) : Bool :=
    off == 0x008 || (match findRow g off with | some (r, _, d) => (r.kind == .rwp && d == 0) || (r.kind == .rwp64 && decide (d < 3)) | none => false)

/-- PAIRED_COMMIT (R41): the complement written to the register at an offset. -/
def execPairedCommit (agent : Agent) (page : Page) (off : Nat) (value : Word) (s : State) : Host.Outcome State Fault Refusal :=
  act s (fun p => regGateW p agent page (off + 4) (fun q => if paired page off then writeWord q agent page (off + 4) value else q))
where
  paired (g : Page) (off : Nat) : Bool :=
    off == 0x008 || (match findRow g off with | some (r, _, d) => r.kind == .rwp && d == 0 | none => false)

/-- WRITE64_HI_COMMIT (R40): the write that completes the 64-bit value at an offset, which for a paired one is the hi complement. -/
def execWrite64HiCommit (agent : Agent) (page : Page) (off : Nat) (value : Word) (s : State) : Host.Outcome State Fault Refusal :=
  act s (fun p => regGateW p agent page (off + 12) (fun q => if wide page off then writeWord q agent page (off + 12) value else q))
where
  wide (g : Page) (off : Nat) : Bool := match findRow g off with | some (r, _, d) => r.kind == .rwp64 && d == 0 | none => false

/-! ## Reference inputs (R56) -/

/-- REFERENCE_RESTORED (R56): the root's 10 MHz input is back within tolerance: tenm_ok sets, and disciplining to the external reference
resumes. -/
def refRestored (p : Pkg) : Pkg := setBell p (fun u => { u with tenmOk := true })

def execReferenceRestored (s : State) : Host.Outcome State Fault Refusal := act s refRestored

end Sys2Proof.Machine
end

