-- ==== Sys2Proof/Machine/DebugBus.lean ====
section
/-! DEFINITION. The serial debug port (R486, R487), the debug module's system bus access (R488), and the plain register write (R35). -/
namespace Sys2Proof.Machine
open Sys2Proof

/-! ## System bus access of the debug module (R488; the layout of RISC-V debug 0.13.2) -/

def dmi (p : Pkg) (a : Nat) : Word := Map.getD p.dbg.dmi a (if a = 0x38 then 0x00040000#32 else 0#32)
def setDmi (p : Pkg) (a : Nat) (v : Word) : Pkg := { p with dbg := { p.dbg with dmi := Map.put p.dbg.dmi a v } }

/-- The address of the system bus access: sbaddress1 and sbaddress0. -/
def sbAddr (p : Pkg) : Nat := (dmi p 0x3A).toNat * 2 ^ 32 + (dmi p 0x39).toNat

/-- The error code of an access that ended with a status: none, alignment, or a bad address. -/
def sbError (p : Pkg) (code : Nat) : Pkg := setDmi p 0x38 (dmi p 0x38 &&& 0xFFFF8FFF#32 ||| BitVec.ofNat 32 (code % 8 * 2 ^ 12))

/-- The address steps by four after an access, with sbautoincrement. -/
def sbStep (p : Pkg) : Pkg :=
  if bit (dmi p 0x38) 16 then
    let a := sbAddr p + 4
    setDmi (setDmi p 0x39 (BitVec.ofNat 32 a)) 0x3A (BitVec.ofNat 32 (a / 2 ^ 32))
  else p

/-- What keeps a system bus access from starting: an error not yet cleared, an access of another size, an address off alignment. -/
def sbBlocked (p : Pkg) : Option Nat :=
  if bits (dmi p 0x38) 14 12 ≠ 0 then some (bits (dmi p 0x38) 14 12)
  else if bits (dmi p 0x38) 19 17 ≠ 2 then some 4
  else if sbAddr p % 4 ≠ 0 then some 3
  else none

/-- A read over the system bus with Reeve's rights: the word goes to sbdata0. -/
def sbRead (p : Pkg) : Pkg :=
  match sbBlocked p with
  | some e => sbError p e
  | none =>
    let (q, st, v) := busRead p (.reeve 0) (sbAddr p)
    if Status.cls st = 0 then sbStep (setDmi q 0x3C v) else sbError q 2

/-- A write over the system bus with Reeve's rights: the word of sbdata0. -/
def sbWrite (p : Pkg) : Pkg :=
  match sbBlocked p with
  | some e => sbError p e
  | none =>
    let (q, st) := busWrite p (.reeve 0) (sbAddr p) (dmi p 0x3C)
    if Status.cls st = 0 then sbStep q else sbError q 2

/-- The access that a write of a debug module register starts: sbaddress0 with sbreadonaddr a read, sbdata0 a write. -/
def sbAfterWrite (p : Pkg) (g : Page) (off : Nat) : Pkg :=
  if g = .dbg ∧ off = 0x400 + 4 * 0x39 ∧ bit (dmi p 0x38) 20 = true then sbRead p
  else if g = .dbg ∧ off = 0x400 + 4 * 0x3C then sbWrite p
  else p

/-- The access that a read of sbdata0 starts, with sbreadondata. -/
def sbAfterRead (p : Pkg) (g : Page) (off : Nat) : Pkg :=
  if g = .dbg ∧ off = 0x400 + 4 * 0x3C ∧ bit (dmi p 0x38) 15 = true then sbRead p else p

/-- A word written by an agent to the local map, with what it starts in the debug module. -/
def agentWrite (p : Pkg) (ag : Agent) (a : Nat) (v : Word) : Pkg × Status :=
  let (q, st) := busWrite p ag a v
  match rangeOf a with
  | .page g off => (if st = Status.done then sbAfterWrite q g off else q, st)
  | _ => (q, st)

/-- A word read by an agent from the local map, with what it starts in the debug module. -/
def agentRead (p : Pkg) (ag : Agent) (a : Nat) : Pkg × Status × Word :=
  let (q, st, v) := busRead p ag a
  match rangeOf a with
  | .page g off => (if st = Status.done then sbAfterRead q g off else q, st, v)
  | _ => (q, st, v)

/-- REGISTER_WRITE (R35): a 32-bit aligned write is taken or refused; one of another width or alignment ends refused.unmapped. -/
def registerWrite (p : Pkg) (ag : Agent) (a width : Nat) (v : Word) : Pkg :=
  if width ≠ 4 then emit (tellPageAt (countRefusal p (cmnOfOffset p a)) a) (.access ag Status.refusedUnmapped 0)
  else
    let (q, st) := agentWrite p ag a v
    emit q (.access ag st 0)

def execRegisterWrite (agent : Agent) (addr width : Nat) (value : Word) (s : State) : Host.Outcome State Fault Refusal :=
  act s (fun p => registerWrite p agent addr width value)

/-- DMI_ACCESS (R488): a read or a write of a debug module register. -/
def dmiAccess (p : Pkg) (ag : Agent) (a : Fin 128) (write : Option Word) : Pkg :=
  let off := 0x400 + 4 * a.val
  match write with
  | some v => regGateW p ag .dbg off (fun q => sbAfterWrite (writeWord q ag .dbg off v) .dbg off)
  | none => regGate p ag .dbg off (fun q => sbAfterRead (readOut q ag .dbg off) .dbg off)

def execDmiAccess (agent : Agent) (addr : Fin 128) (write : Option Word) (s : State) : Host.Outcome State Fault Refusal :=
  act s (fun p => dmiAccess p agent addr write)

/-! ## The serial port (R486, R487) -/

/-- A number from bits, the most significant first. -/
def msbNat (bs : List Bool) : Nat := bs.foldl (fun n b => 2 * n + (if b then 1 else 0)) 0
/-- The n bits of a number, the most significant first. -/
def msbBits (n v : Nat) : List Bool := (List.range n).reverse.map (fun i => v.testBit i)

/-- The fields of a request (R486): op, addr, data and crc. -/
def reqOp (r : List Bool) : Nat := msbNat (r.take 4)
def reqAddr (r : List Bool) : Nat := msbNat ((r.drop 4).take 48)
def reqData (r : List Bool) : Word := BitVec.ofNat 32 (msbNat ((r.drop 52).take 32))

/-- Whether a request's last eight bits are the CRC-8 of the others. -/
def reqCrcOk (r : List Bool) : Bool := crc8 0x07 0 (r.take (r.length - 8)) == msbNat (r.drop (r.length - 8))

/-- Bits of a request after its start bit, by op: write32 alone carries data. -/
def reqBits (op : Nat) : Nat := if op = 3 then 92 else 60

/-- A response's bits over which its check sum goes: the status, then the data's bytes as one number, most significant first (R486). -/
def respCrc (st : Status) (data : List Byte) : Nat :=
  crc8 0x07 0 (msbBits 16 st.toNat ++ msbBits (8 * data.length) (leNat data))

/-- The data of a response: zero on any status other than done. -/
def respData (st : Status) (data : List Byte) : List Byte := if st = Status.done then data else List.replicate data.length 0

/-- A response sent. -/
def respond (p : Pkg) (st : Status) (data : List Byte) : Pkg :=
  emit p (.debug st (respData st data) (respCrc st (respData st data)))

/-- While HD is unpowered or in reset the port answers nothing. -/
def portSilent (p : Pkg) : Bool :=
  p.boot.stage == .held || hearthHolds p || (p.boot.stage == .hearth && !p.pins.good.contains .hub)

/-- A request of the row's op arrives whole while no access is under way: its CRC and op are checked, and the access is done. One that does
not complete in time leaves its answer to DEBUG_ACCESS_TIMEOUT. -/
def portRequest (p : Pkg) (r : List Bool) (mine : Nat → Bool) (done : Bool) (width : Nat) (k : Pkg → Pkg × Status × List Byte) : Pkg :=
  if portSilent p || p.dbg.pending.isSome || !mine (reqOp r) || r.length != reqBits (reqOp r) then p
  else if !reqCrcOk r then respond p Status.failedCrc (List.replicate width 0)
  else if !(1 ≤ reqOp r && reqOp r ≤ 4) then respond p Status.failedOpcode (List.replicate width 0)
  else
    let (q, st, data) := k p
    if done then respond q st data
    else { q with dbg := { q.dbg with pending := some ⟨Status.unknownNoAck, List.replicate width 0, q.count⟩ } }

/-- DEBUG_IDENT: FUSE.PART_ID, in every scope. A request with a reserved op is answered failed.opcode. -/
def execDebugIdent (request : List Bool) (s : State) : Host.Outcome State Fault Refusal :=
  act s (fun p => portRequest p request (fun o => !(2 ≤ o && o ≤ 4)) true 4 (fun q =>
    (countDebug q .debug, Status.done, leBytes 4 (getReg q .fuse 0x080).toNat)))

/-- DEBUG_READ32. -/
def execDebugRead32 (request : List Bool) (done : Bool) (s : State) : Host.Outcome State Fault Refusal :=
  act s (fun p => portRequest p request (fun o => o == 2) done 4 (fun q =>
    let (q, st, v) := agentRead q .debug (reqAddr request)
    (q, st, leBytes 4 v.toNat)))

/-- DEBUG_WRITE32. -/
def execDebugWrite32 (request : List Bool) (done : Bool) (s : State) : Host.Outcome State Fault Refusal :=
  act s (fun p => portRequest p request (fun o => o == 3) done 4 (fun q =>
    let (q, st) := agentWrite q .debug (reqAddr request) (reqData request)
    (q, st, List.replicate 4 0)))

/-- The 64 bytes of a line read over the port: memory alone, on a line's boundary. The contents of a guest's range are the guest's. -/
def portLine (p : Pkg) (a : Nat) : Pkg × Status × List Byte :=
  match rangeOf a with
  | .page g _ =>
    if debugLocked p (scopeBit g (a % 4096) false) then (lockRefused p, Status.refusedLocked, List.replicate 64 0)
    else (tellPage (countRefusal (countDebug p .debug) (cmnOfOffset p a)) g, Status.refusedUnmapped, List.replicate 64 0)
  | _ =>
    if debugLocked p (some 3) then (lockRefused p, Status.refusedLocked, List.replicate 64 0)
    else if a % 64 ≠ 0 then (countRefusal (countDebug p .debug) (cmnOfOffset p a), Status.refusedUnmapped, List.replicate 64 0)
    else
      let q := countDebug p .debug
      let (q, st) := checkAccess q .debug a 64
      let st := if st = Status.done then guestGate q a 64 30 else st
      if st ≠ Status.done then (q, st, List.replicate 64 0)
      else
        match rangeOf a with
        | .guest g o =>
          let r := passToGuest q g o (.read 64)
          (r, Status.done, readLocal r a 64)
        | _ => (countDram q a 64 false, if localPoisoned q a 64 then Status.donePoisoned else Status.done, readLocal q a 64)

/-- DEBUG_READ_LINE. -/
def execDebugReadLine (request : List Bool) (done : Bool) (s : State) : Host.Outcome State Fault Refusal :=
  act s (fun p => portRequest p request (fun o => o == 4) done 64 (fun q => portLine q (reqAddr request)))

/-- DEBUG_ACCESS_TIMEOUT: 100,000 ticks after the request's last bit the port answers unknown.no_ack. -/
def accessTimeout (p : Pkg) : Pkg :=
  match p.dbg.pending with
  | some x =>
    if x.at_ + 100000 ≤ p.count then respond { p with dbg := { p.dbg with pending := none } } x.status x.data else p
  | none => p

def execDebugAccessTimeout (s : State) : Host.Outcome State Fault Refusal := act s accessTimeout

/-- DEBUG_FRAMING_RESET: the response of an access under way is discarded. -/
def execDebugFramingReset (s : State) : Host.Outcome State Fault Refusal :=
  act s (fun p => { p with dbg := { p.dbg with pending := none } })

end Sys2Proof.Machine
end

