-- ==== Sys2Proof/Machine/Manifest.lean ====
section
/-! DEFINITION. The job manifest: its bytes (R358, R377, R404), the checks of R379, and how Caselm applies it (R380, R382). -/
namespace Sys2Proof.Machine
open Sys2Proof

/-! ## The bytes (R377) -/

/-- A directory entry. -/
structure Section where
  type : Nat
  phase : Nat
  place : Nat
  off : Nat
  len : Nat
  rest : Nat
  deriving DecidableEq, Repr

/-- Bytes of the staged manifest, which stands in Caselm's region (R368). -/
def manBytes (p : Pkg) (off n : Nat) : List Byte := readLocal p (caselmBase + off) n
/-- A little-endian field of it. -/
def manField (p : Pkg) (off n : Nat) : Nat := leNat (manBytes p off n)

/-- Directory entry i. -/
def sectionAt (p : Pkg) (i : Nat) : Section :=
  let b := manBytes p (128 + 16 * i) 16
  ⟨leField b 0 2, leField b 2 1, leField b 3 1, leField b 4 4, leField b 8 4, leField b 12 4⟩

/-- The directory: at most 64 entries. -/
def sectionsOf (p : Pkg) : List Section := (List.range (min 64 (manField p 2 2))).map (sectionAt p)

/-- The index of the first directory entry that meets a test; 0 with none. -/
def sectionIndex (l : List Section) (t : Section → Bool) : Nat := (l.findIdx? t).getD 0

/-- Whether a directory entry is well formed and lies within the total. -/
def sectionOk (total n : Nat) (x : Section) : Bool :=
  decide (1 ≤ x.type ∧ x.type ≤ 0x0E) && (decide (x.phase < 8) || x.phase == 0xFF) && x.rest == 0
    && x.off % 64 == 0 && decide (128 + 16 * n ≤ x.off) && decide (x.off + x.len ≤ total)

/-! ## The reshard table (R358) and the policies (R404) -/

/-- The entry that 32 bytes spell, and whether its form is the one that R358 gives. -/
def reshardOf (b : List Byte) : Reshard :=
  { src := BitVec.ofNat 16 (leField b 0 2), dst := BitVec.ofNat 16 (leField b 2 2), srcOff := leField b 4 6, dstOff := leField b 10 6
    len := leField b 16 4, flow := leField b 20 2 % 4096, die := ⟨leField b 22 1 % 4, Nat.mod_lt _ (by decide)⟩
    window := (leField b 23 1).testBit 0, twin := (leField b 23 1).testBit 1, tag := BitVec.ofNat 32 (leField b 24 4)
    post := none, tries := 0, status := none }
def reshardForm (b : List Byte) : Bool :=
  leField b 0 2 != leField b 2 2 && leField b 4 6 % 64 == 0 && leField b 10 6 % 64 == 0 && decide (64 ≤ leField b 16 4)
    && leField b 16 4 % 64 == 0 && decide (leField b 20 2 < 4096) && decide (leField b 22 1 < 4) && decide (leField b 23 1 < 4)
    && leField b 28 4 == 0

/-- The records of a size that a section holds. -/
def recordsOf (p : Pkg) (x : Section) (size : Nat) : List (List Byte) :=
  (List.range (x.len / size)).map (fun i => manBytes p (x.off + size * i) size)

/-- The reshard tables by phase. -/
def reshardsOf (p : Pkg) (l : List Section) : List (Nat × List Reshard) :=
  (l.filter (fun x => x.type == 0x0B)).map (fun x => (x.phase, (recordsOf p x 32).map reshardOf))

/-- The policies: key and value. -/
def policiesOf (p : Pkg) (l : List Section) : List (Nat × Nat) :=
  ((l.filter (fun x => x.type == 0x0D)).flatMap (fun x => recordsOf p x 16)).map (fun b => (leField b 0 4, leField b 4 8))

/-- The keys of R404 with their defaults. -/
def policyKeys : List (Nat × Nat) :=
  [(0x01, 2), (0x10, 64), (0x11, 65536), (0x12, 16), (0x13, 0xFF), (0x14, 1000), (0x20, 2 ^ 24)]

/-- A policy of the job in force, or its default. -/
def policyOf (p : Pkg) (key : Nat) : Nat :=
  let own : Option Nat := match p.rv.job with | some j => (j.policies.find? (fun e => e.1 == key)).map (fun e => e.2) | none => none
  own.getD (((policyKeys.find? (fun e => e.1 == key)).map (fun e => e.2)).getD 0)

/-- Whether two byte ranges meet. -/
def meets (a n b m : Nat) : Bool := decide (a < b + m) && decide (b < a + n)

/-- No destination range of a phase change meets a source range on the same chip. -/
def reshardApart (l : List Reshard) : Bool :=
  l.all (fun x => l.all (fun y => !(x.dst == y.src && meets x.dstOff x.len y.srcOff y.len)))

/-! ## Task placement (R382) -/

/-- The physical core of a logical one: the c-th enabled cluster, its j-th enabled core; and where R383 has moved it. -/
def placedAt (p : Pkg) (c : CoreId) : Option CoreId :=
  match (((List.finRange 10).filter (fun k => clusterEnabled p c.die k))[c.cluster.val]?) with
  | some k => (((List.finRange 9).map (fun j => (⟨c.die, k, j⟩ : CoreId))).filter (coreInService p))[c.core.val]?
  | none => none
def placeOf (p : Pkg) (c : CoreId) : Option CoreId :=
  match Map.look p.rv.moves c with
  | some x => some x
  | none => placedAt p c

/-- The physical store of a logical one. -/
def placeStore (p : Pkg) (st : StoreId) : StoreId :=
  match st with
  | .core c => .core ((placeOf p c).getD c)
  | .cluster d k => .cluster d ((((List.finRange 10).filter (fun i => clusterEnabled p d i))[k.val]?).getD k)

/-! ## The checks (R379) -/

/-- Whether n bytes at a local offset reach into Caselm's region. -/
def reachesCaselm (a n : Nat) : Bool := decide (caselmBase < a + n)

/-- Check 1: the header, the SHA-384, the directory. -/
def headerOk (p : Pkg) (total : Nat) : Bool :=
  let h := manBytes p 0 128
  let n := leField h 2 2
  decide (128 ≤ total) && leField h 4 4 == total && decide (1 ≤ n ∧ n ≤ 64) && decide (128 + 16 * n ≤ total)
    && decide (leField h 12 1 < 64) && decide (1 ≤ leField h 13 1 ∧ leField h 13 1 ≤ 8) && leField h 18 2 == 0 && zeroRange h 72 56
    && (h.drop 24).take 48 == sha384 (manBytes p 128 (total - 128))

/-- Check 3. -/
def namesOk (p : Pkg) : Bool :=
  manField p 16 2 != 0 && manField p 12 1 % 64 != 0 && manField p 8 4 != 0
    && (!chipAssigned p || BitVec.ofNat 16 (manField p 16 2) == ownChip p)

/-- Slots of a flow in a pricking. -/
def slotsIn (k : ManPricking) (flow : Nat) : Nat := (k.entries.filter (fun e => e.2 == 0x8000 + flow)).length

/-- R72 as far as one package shows it: a flow has the same slots on every port of its path, and on each such die a flow entry with the
same slots, or with 0 where no injector uses it. -/
def flowsBalance (m : Manifest) : Bool :=
  m.prickings.all (fun k => k.entries.all (fun e =>
    e.2 < 0x8000 || e.2 - 0x8000 < 2 ||
      (m.prickings.all (fun j => j.set != k.set || slotsIn j (e.2 - 0x8000) == 0 || slotsIn j (e.2 - 0x8000) == slotsIn k (e.2 - 0x8000))
        && m.flows.any (fun f => f.die == dieOfPort k.port && f.flow == e.2 - 0x8000 && bit f.data0 31
            && (bits f.data0 27 16 == 0 || bits f.data0 27 16 == slotsIn k f.flow)))))

/-- R296: every die's in-slice entries name the same chips. -/
def slicesAgree (m : Manifest) (tag : Nat) : Bool :=
  let on (d : Fin 4) : List Nat := (m.routes.filter (fun r => r.1 == d && bit r.2.2 31 && bits r.2.2 23 18 == tag)).map (fun r => r.2.1)
  (List.finRange 4).all (fun d => (List.finRange 4).all (fun e => (on d).all (fun c => (on e).contains c)))

/-- R312: the domain table names the own chip, in its 64 entries. -/
def domainOk (m : Manifest) (chip : Nat) : Bool :=
  m.domain.all (fun e => decide (e.1 < 64)) && m.domain.any (fun e => bit e.2 31 && bits e.2 15 0 == chip)

/-- R324, R400: at most 32 mirror entries, 16 of them of role 0. -/
def mirrorsOk (m : Manifest) (chip : Nat) : Bool :=
  decide (m.mirrors.length ≤ 32) && decide ((m.mirrors.filter (fun x => x.role == 0)).length ≤ 16)
    && m.mirrors.all (fun x => decide (x.role ≤ 1) && x.partner != BitVec.ofNat 16 chip && decide (x.flow < 4096))

/-- R336: the four dies' tables are the same in every phase. -/
def groupsAgree (m : Manifest) : Bool :=
  m.groups.all (fun g => (List.finRange 4).all (fun d =>
    m.groups.any (fun h => h.phase == g.phase && h.die == d && h.groups == g.groups && h.entries == g.entries && h.members == g.members)))

/-- R357: no flow number in two sets, no group index in two phases. -/
def setsApart (m : Manifest) : Bool :=
  m.flows.all (fun f => decide (2 ≤ f.flow) && decide (f.flow ≤ 0xFFE) && m.flows.all (fun g => f.flow != g.flow || f.set == g.set))
    && m.groups.all (fun g => m.groups.all (fun h => g.phase == h.phase || g.groups.all (fun i => !h.groups.contains i)))

/-- R356: routes, domain and mirror tables are the same in every phase. -/
def commonParts (l : List Section) : Bool := l.all (fun x => (x.type != 0x03 && x.type != 0x04) || x.phase == 0xFF)

/-- Check 5: the type of the section that breaks one of the rules that one package's manifest shows; what it cannot show, the operand says. -/
def rulesCheck (p : Pkg) (l : List Section) (m : Manifest) (ruleFails : Option Nat) : Option Nat :=
  let chip := manField p 16 2
  if !flowsBalance m then some 0x06
  else if !slicesAgree m (manField p 12 1) ∨ !commonParts l then some 0x03
  else if !domainOk m chip ∨ !mirrorsOk m chip then some 0x04
  else if !groupsAgree m then some 0x07
  else if !setsApart m then some 0x05
  else if (l.filter (fun x => x.type == 0x0B)).any (fun x => x.len % 32 != 0 || decide (2097120 < x.len) || !(recordsOf p x 32).all reshardForm
      || !reshardApart ((recordsOf p x 32).map reshardOf)) then some 0x0B
  else if (l.filter (fun x => x.type == 0x0D)).any (fun x => x.len % 16 != 0 || (recordsOf p x 16).any (fun b =>
      !(policyKeys.any (fun e => e.1 == leField b 0 4)) || leField b 12 4 != 0)) then some 0x0D
  else ruleFails

/-- Check 6: the type of the section that reaches into Caselm's region. -/
def regionCheck (p : Pkg) (l : List Section) (m : Manifest) : Option Nat :=
  let pair (t : ManTask) : Bool :=
    reachesCaselm (bits (nth t.pairs 2 0) 23 0 * 65536) (bits (nth t.pairs 3 0) 24 0 * 65536) && nth t.pairs 3 0 != 0
  if m.tasks.any pair then some 0x08
  else if (reshardsOf p l).any (fun e => e.2.any (fun r => (inDram r.srcOff && reachesCaselm r.srcOff r.len) || (inDram r.dstOff && reachesCaselm r.dstOff r.len))) then
    some 0x0B
  else if m.rings.any (fun r => reachesCaselm r.base (r.size * r.count) || reachesCaselm r.head 8) then some 0x0C
  else if m.lists.any (fun x => inDram x.2.1 && reachesCaselm x.2.1 x.2.2.length) then some 0x0A
  else none

/-- The checks in order: the failing check and its section, or none. -/
def manifestCheck (p : Pkg) (x : Staging) (m : Manifest) (ruleFails : Option Nat) : Option (Nat × Nat) :=
  let l := sectionsOf p
  let at_ (t : Nat) : Nat := sectionIndex l (fun y => y.type == t)
  if !x.whole ∨ !headerOk p x.total then some (1, 0)
  else if !l.all (sectionOk x.total l.length) then some (1, sectionIndex l (fun y => !sectionOk x.total l.length y))
  else if manField p 0 2 ≠ 2 ∨ x.version ≠ 2 ∨ (getReg p .reeve 0x084).toNat < manField p 20 4 then some (2, 0)
  else if !namesOk p then some (3, 0)
  else if m.tasks.any (fun t => (placeOf p t.core).isNone) then some (4, at_ 0x08)
  else
    match rulesCheck p l m ruleFails, regionCheck p l m with
    | some t, _ => some (5, at_ t)
    | none, some t => some (6, at_ t)
    | none, none => none

/-! ## Table writes as Caselm makes them -/

def rtWrite (p : Pkg) (d : Fin 4) (chip : Nat) (v : Word) : Pkg :=
  ifOn p (.drt d) (fun q => rtDataCommit (setReg (setReg q (.drt d) 0x140 (BitVec.ofNat 32 (chip % 65536))) (.drt d) 0x144 v) d (~~~v))
def flowWrite (p : Pkg) (d : Fin 4) (flow : Nat) (v0 v1 : Word) : Pkg :=
  ifOn p (.drt d) (fun q =>
    let g := Page.drt d
    flowCommit (setReg (setReg (setReg (setReg q g 0x120 (BitVec.ofNat 32 (flow % 4096))) g 0x124 v0) g 0x128 v1) g 0x12C (~~~v0)) d (~~~v1))
def cmnWrite (p : Pkg) (table idx : Nat) (v : Word) : Pkg :=
  (List.finRange 5).foldl (fun q i => ifOn q (.cmn i) (fun r =>
    cmnTblWrite (setReg (setReg r (.cmn i) 0x200 (BitVec.ofNat 32 (table % 4 * 2 ^ 29 + idx % 1024))) (.cmn i) 0x204 v) i (~~~v))) p
def wellWrite (p : Pkg) (d : Fin 4) (table idx : Nat) (v : Word) : Pkg :=
  ifOn p (.well d) (fun q =>
    wellTblWrite (setReg (setReg q (.well d) 0x200 (BitVec.ofNat 32 (table % 4 * 2 ^ 29 + idx % 4096))) (.well d) 0x204 v) d (~~~v))

/-- A pricking written whole into a port's standby copy, and sealed (R60, R62): every slot not listed is open. -/
def loadPricking (p : Pkg) (n : Fin 32) (es : List (Nat × Nat)) : Pkg :=
  ifOn p (.prk n) (fun q =>
    if swapArmedOn q n then raise q (.prk n) 17
    else
      let c := standbyCopy q n
      let q := { q with rg := { q.rg with tables := q.rg.tables.filter (fun (kv : (Page × Nat × Nat) × (Word × Word)) =>
        !(kv.1.1 == Page.prk n && kv.1.2.1 == c)) } }
      let q := setPort q n ((portOfPkg q n).setSealed c false)
      let q := (es.filter (fun e => e.1 != 0)).foldl (fun r e =>
        prkTblWrite (setReg r (.prk n) 0x100 (BitVec.ofNat 32 (e.1 % 4096))) n (BitVec.ofNat 32 (e.2 % 65536 + (65535 - e.2 % 65536) * 65536))) q
      prkSeal q n)

/-- The pricking of a set for a port: its entries, with none listed the bell slot and the sixteen control slots alone. -/
def bareEntries : List (Nat × Nat) := (List.range 16).map (fun j => (128 + 256 * j, 0x8001))
def prickingOf (m : Manifest) (set : Nat) (n : Fin 32) : List (Nat × Nat) :=
  match m.prickings.find? (fun k => k.set == set && k.port == n) with
  | some k => k.entries
  | none => bareEntries

/-- Every port's standby copy for a set. -/
def loadPrickings (p : Pkg) (m : Manifest) (set : Nat) : Pkg := (List.finRange 32).foldl (fun q n => loadPricking q n (prickingOf m set n)) p

/-- The flow entries of a set. -/
def loadFlows (p : Pkg) (m : Manifest) (set : Nat) : Pkg :=
  (m.flows.filter (fun f => f.set == set)).foldl (fun q f => flowWrite q f.die f.flow f.data0 f.data1) p

/-- The group tables of a phase, with member slots translated (R382). -/
def loadGroups (p : Pkg) (m : Manifest) (ph : Nat) : Pkg :=
  (m.groups.filter (fun g => g.phase == ph)).foldl (fun q g =>
    let q := g.entries.foldl (fun r e => wellWrite r g.die e.1 e.2.1 e.2.2) q
    g.members.foldl (fun r e =>
      match placeOf r e.2 with
      | some c => wellWrite r g.die 2 e.1 (BitVec.ofNat 32 (c.die.val * 256 + c.slot))
      | none => r) q) p

/-- Bytes that Caselm writes into a store or DRAM, after the checks of R32. -/
def reeveStore (p : Pkg) (a : Nat) (bs : List Byte) : Pkg × Status :=
  let (q, st) := checkAccess p (.reeve 0) a bs.length
  if st ≠ Status.done then (q, st)
  else if writeBarred q a bs.length then (q, Status.refusedOffline)
  else (writeLocal (countDram q a bs.length true) a bs noTag, Status.done)

/-- A task's context set up and left IDLE (R380 step 7): CTX_ENTRY, the pairs, the program. -/
def loadTask (p : Pkg) (t : ManTask) : Pkg :=
  match placeOf p t.core with
  | none => p
  | some c =>
    ifOn p (.core c) (fun q =>
      let x : CtxId := ⟨c, t.ctx⟩
      let q := if (ctxOf q x).state = .stopped then ctxClear q x else q
      let q := commitPair q (.core c) (ctxReg x 0x08) (t.entry &&& 0xFFFF#32) 0xFFFF#32
      let q := (List.finRange 6).foldl (fun r k => baseBoundCommit r x k (nth t.pairs k.val 0)) q
      t.program.foldl (fun r b => (reeveStore r ((StoreId.core c).base + b.1) b.2).1) q)
def loadTasks (p : Pkg) (m : Manifest) (ph : Nat) : Pkg := (m.tasks.filter (fun t => t.phase == ph)).foldl loadTask p

/-- A window of the manifest written and opened (R145). -/
def openWindow (p : Pkg) (x : ManWindow) : Pkg :=
  let st := placeStore p x.store
  ifOn p st.page (fun q =>
    let v (o : Nat) : Word := Map.getD x.regs o 0
    let b := winBlock st x.w.val
    let q := [0x00, 0x08, 0x10, 0x18, 0x30].foldl (fun r o => commitReg r st.page (b + o) (v o) (match findRow st.page (b + o) with
      | some (row, _, _) => BitVec.ofNat 32 row.mask
      | none => 0)) q
    winOpen (commit64 q st.page (b + 0x20) (join64 (v 0x20) (v 0x24))) st x.w.val x.owner x.ownerCore)
def openWindows (p : Pkg) (m : Manifest) (ph : Nat) : Pkg := (m.windows.filter (fun x => x.phase == ph)).foldl openWindow p

/-- The mill page lists of a phase, as DRAM images. -/
def loadLists (p : Pkg) (m : Manifest) (ph : Nat) : Pkg := (m.lists.filter (fun x => x.1 == ph)).foldl (fun q x => (reeveStore q x.2.1 x.2.2).1) p

/-- A swap armed on every port of every die for a round (R63). -/
def armAll (p : Pkg) (round : Nat) : Pkg := (List.finRange 4).foldl (fun q d => ifOn q (.drt d) (fun r => swapArm r d (round % 2 ^ 24) 0xFF)) p
/-- Whether every DRT page that is on has a swap armed for a round. -/
def armedAll (p : Pkg) (round : Nat) : Bool :=
  (List.finRange 4).all (fun d => stateOf p (.drt d) == .off || (match (router p d).armed with | some a => a.1 == round % 2 ^ 24 | none => false))
/-- Whether no swap is armed any more. -/
def swapsOver (p : Pkg) : Bool := (List.finRange 4).all (fun d => (router p d).armed.isNone)

/-! ## Ports (R307) -/

/-- Whether a port passes the check of R307 against the manifest's topology: the peer's chip number, port and job tag. -/
def topologyOk (p : Pkg) (m : Manifest) (n : Fin 32) : Bool :=
  let g := Page.drt (dieOfPort n)
  match m.topology.find? (fun t => t.1 == n), (portOfPkg p n).peer with
  | some (_, some (chip, port, job)), some e =>
    (portOfPkg p n).lstate == .up && e.chip == chip && e.port == port && bit (getReg p g (0x204 + 8 * portIdx n)) 31
      && getReg p g (0x200 + 8 * portIdx n) == job
  | _, _ => false

/-- A PORT_EN bit written by Caselm. -/
def setPortEn (p : Pkg) (n : Fin 32) (b : Bool) : Pkg :=
  ifOn p (.drt (dieOfPort n)) (fun q => portEnCommit q (dieOfPort n) (withBit (getReg q (.drt (dieOfPort n)) 0x0A0) (portIdx n) b))

/-- Ports are enabled as their peers pass the check; a fenced peer's is not (R328). -/
def enablePorts (p : Pkg) : Pkg :=
  match p.rv.job with
  | none => p
  | some j =>
    (List.finRange 32).foldl (fun q n =>
      if topologyOk q j.sec n && !bit (getReg q (.drt (dieOfPort n)) 0x0A0) (portIdx n)
          && !(match (portOfPkg q n).peer with | some e => fenced q e.chip | none => true) then setPortEn q n true else q) p

/-! ## Applying (R380) -/

/-- The register writes of a mirror entry (R324): its granules, its partner, its flow. -/
def mirrorWrite (p : Pkg) (i : Nat) (x : MirrorDef) : Pkg :=
  let q := cmnWrite p 1 (4 * i) (BitVec.ofNat 32 x.first)
  let q := cmnWrite q 1 (4 * i + 1) (BitVec.ofNat 32 x.granules)
  let q := cmnWrite q 1 (4 * i + 3) (BitVec.ofNat 32 (x.flow % 4096))
  cmnWrite q 1 (4 * i + 2) (BitVec.ofNat 32 (2 ^ 31 + x.partner.toNat))

/-- The bell's registers committed, and BELL disabled and enabled again when the root list differs from the one in force (R58). -/
def applyBell (p : Pkg) (b : Word × Word × Word) : Pkg :=
  let differs := p.bellU.inForce.root01 ≠ b.2.1 ∨ p.bellU.inForce.root23 ≠ b.2.2
  let q := commitReg p .bell 0x090 b.1 0x00FFF01F#32
  let q := commitReg q .bell 0x098 b.2.1 0xFFFFFFFF#32
  let q := commitReg q .bell 0x0A0 b.2.2 0xFFFFFFFF#32
  if differs ∧ enabled p .bell then
    commitCtrl (commitCtrl q .bell (getReg q .bell 0x008 &&& 0xFFFFFFFC#32)) .bell ((getReg q .bell 0x008 &&& 0xFFFFFFFC#32) ||| 1#32)
  else q

/-- Steps 1 to 9 of R380, before which Caselm sets repair_en of every stack controller (R228). -/
def applyManifest (p : Pkg) (j : InForce) : Pkg :=
  let m := j.sec
  let p := (List.finRange 12).foldl (fun r n => ifOn r (.memc n) (fun t => storePair t (.memc n) 0x088 (getReg t (.memc n) 0x088 ||| 1#32))) p
  let q := if chipAssigned p then p else ifOn p (.drt 0) (fun r => chipCommit r (BitVec.ofNat 32 (2 ^ 16 + manField p 16 2)))
  let q := (List.finRange 4).foldl (fun r d => ifOn r (.drt d) (fun t => commitPair t (.drt d) 0x0B0 j.tag 0xFFFFFFFF#32)) q
  let q := match m.bell with | some b => applyBell q b | none => q
  let q := m.routes.foldl (fun r e => rtWrite r e.1 e.2.1 e.2.2) q
  let q := (List.finRange 4).foldl (fun r d => ifOn r (.drt d) (fun t => sliceCommit t d (BitVec.ofNat 32 j.slice))) q
  let q := m.domain.foldl (fun r e => cmnWrite r 0 e.1 e.2) q
  let own := m.mirrors.filter (fun x => x.role == 0)
  let q := (own.zip (List.range own.length)).foldl (fun r e => mirrorWrite r e.2 e.1) q
  let q := loadPrickings (loadFlows (loadFlows q m 255) m 0) m 0
  let q := loadGroups q m 0
  let q := loadLists (loadTasks q m 0) m 0
  let q := openWindows q m 0
  m.rings.foldl (fun r x => (reeveStore r x.head (List.replicate 8 0)).1) q

/-- The records of ranges whose two ends share a failure domain (R400). -/
def recordColocated (p : Pkg) (m : Manifest) : Pkg :=
  (m.mirrors.filter (fun x => (x.own.zip x.theirs).any (fun e => e.1 == e.2))).foldl (fun q x =>
    record q none 0x0111 0 1 false [x.first, x.granules, x.partner.toNat]) p

end Sys2Proof.Machine
end

