-- ==== Sys2Proof/Machine/Serving.lean ====
section
/-! DEFINITION. Serving a job: manifest commands (R377–R381), requests and results (R375, R376), loads and reads, the steps of a job
(R385), fences and ledger queries. -/
namespace Sys2Proof.Machine
open Sys2Proof

/-! ## Results (R376) -/

/-- A result packet sent to the requester on the request's path. -/
def sendResult (p : Pkg) (r : ResultOut) : Pkg :=
  let own : Chip := if r.key.path = 0 then ownChip p else 0
  sendBytes p r.key (packetBytes false r.last 0x41 own r.key.chip r.key.id (jobField p 0x41) [r.ring, r.seq] r.status p.bell r.payload)

/-- A new result of a request: sent, and kept until it is acknowledged. -/
def newResult (p : Pkg) (q : Req) (last : Bool) (st : Status) (payload : List Byte) : Pkg :=
  let r : ResultOut := ⟨q.key, q.ring, q.seq, last, st, payload, p.count, 0⟩
  sendResult { p with rv := { p.rv with results := p.rv.results ++ [r] } } r

/-- Whether a request has been given its last result. -/
def lastGiven (p : Pkg) (q : Req) : Bool := p.rv.results.any (fun r => r.last && r.ring == q.ring && r.seq == q.seq)

/-- Every unfinished request gets its last result with a failure status and no payload (R376, R381, R385). -/
def failRequests (p : Pkg) (st : Status) : Pkg :=
  (p.rv.requests.filter (fun q => !lastGiven p q)).foldl (fun r q => newResult r q true st []) p

/-- A result leaves the books; with the last one its request is finished. -/
def closeResult (p : Pkg) (r : ResultOut) : Pkg :=
  let q := { p with rv := { p.rv with results := p.rv.results.erase r } }
  if r.last then
    { q with rv := { q.rv with finished := q.rv.finished + 1, requests := q.rv.requests.filter (fun (x : Req) => !(x.ring == r.ring && x.seq == r.seq)) } }
  else q

/-- RESULT_ACK (R376): the requester's acknowledgement, a reply of code 0x0041. A request of that code is answered failed.opcode: the
package alone sends it. -/
def resultAck (p : Pkg) (src : CmdSrc) : Pkg :=
  match takePacket p src with
  | some (pk, path, q) =>
    if !pk.hcrcOk || pk.code != 0x41 then p
    else if pk.flags % 2 = 0 then acceptPacket q pk path (fun r k _ => finish r k 0x41 Status.failedOpcode [] [])
    else
      match q.rv.results.find? (fun r => r.key.path == path && r.key.id == pk.id && r.ring == pk.arg0 && r.seq == pk.arg1) with
      | some r => closeResult q r
      | none => q
  | none => p

def execResultAck (src : CmdSrc) (s : State) : Host.Outcome State Fault Refusal := act s (fun p => resultAck p src)

/-- RESULT_RESEND (R376): the oldest result that has waited 1 ms is sent again, up to 8 times; then it ends unknown.no_ack, with a record
that names the ring and the request sequence. -/
def resultResend (p : Pkg) : Pkg :=
  match p.rv.results.find? (fun r => decide (r.at_ + 1000000 ≤ p.count)) with
  | none => p
  | some r =>
    if r.resends < 8 then
      let r2 := { r with at_ := p.count, resends := r.resends + 1 }
      sendResult { p with rv := { p.rv with results := p.rv.results.map (fun x => if x = r then r2 else x) } } r2
    else record (closeResult p r) none 0x0117 Status.unknownNoAck 2 false [r.ring, r.seq]

def execResultResend (s : State) : Host.Outcome State Fault Refusal := act s resultResend

/-! ## manifest_begin and manifest_data (R377) -/

/-- A payload landed in memory by its gateway bobbin (R209). -/
def landNow (p : Pkg) (pk : Packet) (a : Nat) (bs : List Byte) : Pkg × Status :=
  let b := BobId.gateway pk.gateway
  if !enabled p (.bob b) then (p, Status.refusedOffline)
  else
    let (q, st) := bobStore (tallyIn p (.bob b) 1) b a bs noTag
    (tallyOut q (.bob b) 1, st)

/-- MANIFEST_BEGIN. -/
def manifestBegin (p : Pkg) (src : CmdSrc) : Pkg :=
  serve p src 0x20 (fun q k pk =>
    if 2 ^ 26 < pk.arg0 then finish q k 0x20 Status.failedFormat [] []
    else finish { q with rv := { q.rv with staging := some ⟨pk.arg0, pk.arg1, [], []⟩ } } k 0x20 Status.done [] [])

def execManifestBegin (src : CmdSrc) (s : State) : Host.Outcome State Fault Refusal := act s (fun p => manifestBegin p src)

/-- MANIFEST_DATA: bytes staged in Caselm's region. -/
def manifestData (p : Pkg) (src : CmdSrc) : Pkg :=
  serve p src 0x21 (fun q k pk =>
    match q.rv.staging with
    | none => finish q k 0x21 Status.failedFormat [] []
    | some x =>
      if x.total < pk.arg0 + pk.payload.length then finish q k 0x21 Status.failedFormat [] []
      else
        let (r, st) := landNow q pk (caselmBase + pk.arg0) pk.payload
        if st ≠ Status.done then finish r k 0x21 st [] []
        else
          finish { r with rv := { r.rv with staging := some { x with written := x.written ++ [(pk.arg0, pk.payload.length)] } } } k 0x21 st [] [])

def execManifestData (src : CmdSrc) (s : State) : Host.Outcome State Fault Refusal := act s (fun p => manifestData p src)

/-! ## manifest_commit (R379, R380) -/

/-- The logical cores that a manifest names, with their places (R382). -/
def placement (p : Pkg) (m : Manifest) : Map CoreId CoreId :=
  let named := m.tasks.map (fun t => t.core) ++ m.groups.flatMap (fun g => g.members.map (fun e => e.2))
    ++ m.windows.filterMap (fun x => match x.store with | .core c => some c | .cluster _ _ => none)
  named.eraseDups.filterMap (fun c => (placedAt p c).map (fun x => (c, x)))

/-- What the staged manifest says, with the sections that the operand gives. -/
def inForceOf (p : Pkg) (m : Manifest) : InForce :=
  let l := sectionsOf p
  let named := manField p 14 2
  { sec := m, reshard := reshardsOf p l, policies := policiesOf p l, phases := manField p 13 1
    coordinator := BitVec.ofNat 16 (if named = 0 then (match m.bell with | some b => b.2.1.toNat | none => 0) else named)
    tag := BitVec.ofNat 32 (manField p 8 4), slice := manField p 12 1 % 64, digest := manBytes p 24 48 }

/-- The package is left without a manifest: slice tag 0, DRT.JOB 0. -/
def dropJob (p : Pkg) : Pkg :=
  let q := (List.finRange 4).foldl (fun r d => ifOn r (.drt d) (fun t => commitPair (sliceCommit t d 0) (.drt d) 0x0B0 0 0xFFFFFFFF#32)) p
  { q with
    serving := false
    rv := { q.rv with job := none, phase := 0, commitRound := none, withdrawAt := none, started := false, change := none, sampler := none } }

/-- MANIFEST_COMMIT: with a sound manifest its parts are applied and the swap to phase 0 is armed; the reply waits for the swap. -/
def manifestCommit (p : Pkg) (src : CmdSrc) (m : Manifest) (ruleFails : Option Nat) : Pkg :=
  serve p src 0x22 (fun q k pk =>
    if q.rv.job.isSome then finish q k 0x22 Status.refusedBusy [] []
    else
      let q := scopeWithdraw q
      match q.rv.staging with
      | none => finish q k 0x22 Status.failedManifest [1, 0] []
      | some x =>
        let q := { q with rv := { q.rv with moves := [] } }
        match manifestCheck q x m ruleFails with
        | some (c, s) => finish q k 0x22 Status.failedManifest [c, s] []
        | none =>
          let j := inForceOf q m
          let round := if pk.arg0 = 0 then roundNow q + 4 else pk.arg0
          let q := { q with
            serving := true
            rv := { q.rv with
              moves := placement q m, job := some j, phase := 0, commitRound := some round, started := false, epoch := 0, reruns := 0
              accepted := [], finished := 0, taken := [], requests := [], results := [], change := none } }
          let q := armAll (applyManifest q j) round
          if armedAll q round then keepRunning (recordColocated (enablePorts q) m) k pk
          else
            finish (dropJob q) k 0x22 Status.failedManifest [5, sectionIndex (sectionsOf q) (fun y => y.type == 0x06)] [])

def execManifestCommit (src : CmdSrc) (sections : Manifest) (ruleFails : Option Nat) (s : State) : Host.Outcome State Fault Refusal :=
  act s (fun p => manifestCommit p src sections ruleFails)

/-- Whether the swap armed for a round has taken place on every DRT page that is on. -/
def swapDone (p : Pkg) (round : Nat) : Bool :=
  (List.finRange 4).all (fun d => stateOf p (.drt d) == .off || (router p d).swapDone == BitVec.ofNat 32 (round % 2 ^ 24 * 256 + 0xFF))

/-- A commit whose swap has taken place is answered (R380); one whose round the bell has passed over is armed again (R57). -/
def commitWork (p : Pkg) : Pkg :=
  match p.rv.commitRound with
  | none => p
  | some r =>
    if swapsOver p && swapDone p r then
      endRuns (record { p with rv := { p.rv with commitRound := none } } none 0x0101 0 0 true [match p.rv.job with | some j => j.tag.toNat | none => 0])
        (fun x => x.code == 0x22) Status.done [] []
    else if swapsOver p && decide (r < roundNow p) then
      armAll { p with rv := { p.rv with commitRound := some (roundNow p + 4) } } (roundNow p + 4)
    else p

/-! ## The end of a sampler (R408, R409) -/

/-- The sampler that this package is the model of. -/
def modelOf (p : Pkg) : Option Sampler := match p.rv.sampler with | some x => if x.joins then none else some x | none => none

/-- The pass is cleared and the ports toward the candidate are disabled again (R408). -/
def clearPass (p : Pkg) (chip : Chip) : Pkg :=
  let q := setPass p chip false
  (portsTo q chip).foldl (fun r n => setPortEn r n false) q

/-- A sampler ends for a reason of R409: the reason, the epoch and the first differing byte are recorded; the model clears the pass; the
candidate reports to the job owner (R406), and keeps rejections 0x2 to 0x4. -/
def endSampler (p : Pkg) (reason first : Nat) : Pkg :=
  match p.rv.sampler with
  | none => p
  | some x =>
    let q := record { p with rv := { p.rv with sampler := none } } none 0x0118 0 (if reason = 8 then 0 else 1) true [reason, x.epoch, first]
    if x.joins then
      let q := { q with rv := { q.rv with rejections := if 2 ≤ reason ∧ reason ≤ 4 then q.rv.rejections ++ [q.count] else q.rv.rejections } }
      emit q (.packet 1 (packetBytes false false 0x76 0 0 (BitVec.ofNat 32 x.epoch) 0 [x.clean, reason, x.epoch] 0 q.bell []))
    else clearPass q x.candidate

/-! ## manifest_withdraw (R381) -/

/-- Every mill. -/
def allMills : List MillId := (List.finRange 12).flatMap (fun n => (List.finRange 8).map (fun i => ⟨n, i⟩))

/-- The pages whose drain a withdrawal waits for. -/
def drainedPages : List Page :=
  (List.finRange 4).flatMap (fun d => Page.well d :: (dieBobs d).map Page.bob) ++ allGateways.map Page.bob ++ allMills.map Page.mill

/-- The valid bits of a job's flow entries cleared: no item is admitted on them any more. -/
def stopFlows (p : Pkg) (fs : List ManFlow) : Pkg := fs.foldl (fun q f => flowWrite q f.die f.flow (f.data0 &&& 0x7FFFFFFF#32) f.data1) p

/-- Every context that is RUNNING or WAITING is stopped. -/
def stopContexts (p : Pkg) : Pkg :=
  (p.ctxs.filter (fun kv => kv.2.state == .running || kv.2.state == .waiting)).foldl (fun q kv => ctxStop q kv.1) p

/-- A page told to leave ENABLED by CTRL with run = 0b00. -/
def disablePage (p : Pkg) (g : Page) : Pkg :=
  if enabled p g then commitCtrl p g (getReg p g 0x008 &&& 0xFFFFFFFC#32) else p

/-- MANIFEST_WITHDRAW, steps 1 to 3; a phase change in progress ends failed.disabled (R366), and a sampler whose model withdraws ends with reason
0x6 (R409). -/
def manifestWithdraw (p : Pkg) (src : CmdSrc) : Pkg :=
  serve p src 0x23 (fun q k pk =>
    match q.rv.job with
    | none => finish q k 0x23 Status.refusedNoJob [] []
    | some j =>
      let q := endRuns q (fun x => x.code == 0x50 || x.code == 0x24) Status.failedDisabled [] []
      let q := if (modelOf q).isSome then endSampler q 6 0 else q
      let q := stopContexts (stopFlows q j.sec.flows)
      let q := (List.finRange 4).foldl (fun r d => ifOn r (.drt d) (fun t => swapArm t d 0 0)) q
      let q := armAll ((List.finRange 32).foldl (fun r n => loadPricking r n bareEntries) q) (roundNow q + 2)
      let q := drainedPages.foldl disablePage q
      keepRunning { q with rv := { q.rv with withdrawAt := some q.count, started := false, change := none, sampler := none } } k pk)

def execManifestWithdraw (src : CmdSrc) (s : State) : Host.Outcome State Fault Refusal := act s (fun p => manifestWithdraw p src)

/-- Steps 4 to 8 of R381, once the drains and the swap are over and the contexts stand: the reply counts the requests that failed. -/
def withdrawWork (p : Pkg) : Pkg :=
  match p.rv.withdrawAt with
  | none => p
  | some _ =>
    if drainedPages.all (fun g => stateOf p g != .draining) && swapsOver p
        && p.ctxs.all (fun kv => kv.2.state == .idle || kv.2.state == .stopped) then
      let n := (p.rv.requests.filter (fun r => !lastGiven p r)).length
      let q := failRequests p Status.failedDisabled
      let q := (q.wins.filter (fun kv => kv.2.state == .opened)).foldl (fun r kv => winClose r kv.1.1 kv.1.2) q
      let q := (q.ctxs.filter (fun kv => kv.2.state == .stopped)).foldl (fun r kv => ctxClear r kv.1) q
      let tag := match q.rv.job with | some j => j.tag.toNat | none => 0
      let q := endRuns q (fun x => x.code == 0x23) Status.done [n] []
      record (dropJob { q with ledgers := [], fences := [] }) none 0x0102 0 0 true [tag]
    else p

/-! ## start and the steps of a job (R385, R411) -/

/-- Whether a quarantine record for a job tag has no later admission record (R411). -/
def samplerHold (p : Pkg) (tag : Word) : Bool :=
  let l := ((p.nvRecords ++ p.nvPending).filter (fun r => ((r.type == 0x1D && r.code == 22) || r.code == 0x0115) && r.detail.headD 0 == tag.toNat)).getLast?
  match l with
  | some r => r.code == 22
  | none => false

/-- START: the tasks start at a named round, at least 4 rounds ahead. -/
def startJob (p : Pkg) (src : CmdSrc) : Pkg :=
  serve p src 0x24 (fun q k pk =>
    match q.rv.job with
    | none => finish q k 0x24 Status.refusedNoJob [] []
    | some j =>
      if samplerHold q j.tag then finish q k 0x24 Status.refusedSampler [] []
      else if pk.arg0 < roundNow q + 4 then finish q k 0x24 Status.failedFormat [] []
      else if q.rv.started ∨ q.rv.runs.any (fun x => x.code == 0x24) then finish q k 0x24 Status.refusedBusy [] []
      else keepRunning q k pk)

def execStartCmd (src : CmdSrc) (s : State) : Host.Outcome State Fault Refusal := act s (fun p => startJob p src)

/-- The contexts of the tasks of a phase, with the tasks. -/
def phaseTasks (p : Pkg) (j : InForce) (ph : Nat) : List (CtxId × ManTask) :=
  (j.sec.tasks.filter (fun t => t.phase == ph)).filterMap (fun t => (placeOf p t.core).map (fun c => (⟨c, t.ctx⟩, t)))

/-- Whether no context of the job's tasks runs: the step boundary. -/
def stepOver (p : Pkg) (j : InForce) : Bool :=
  (phaseTasks p j p.rv.phase).all (fun x => (ctxOf p x.1).state == .idle || (ctxOf p x.1).state == .stopped)

/-- Whether a well shows the step's epoch tainted (R353): the instructions it concerns have retired before, so that only the well tells. -/
def stepTainted (p : Pkg) : Bool :=
  (List.finRange 4).any (fun d => getReg p (.well d) 0x090 == BitVec.ofNat 32 p.rv.epoch && bit (getReg p (.well d) 0x094) 31)

/-- How the last step ended: the worst status with which a context stopped, a collective.diverged that one of its instructions retired, or
collective.tainted where a well shows the epoch so (R385; the roll-back itself: log entry 52). -/
def stepStatus (p : Pkg) (j : InForce) : Status :=
  Status.worst (if stepTainted p then Status.collectiveTainted else 0) <| (phaseTasks p j p.rv.phase).foldl (fun st x =>
    let c := ctxOf p x.1
    let stop := if c.state = .stopped then (match c.stop with | some i => i.status | none => 0) else 0
    Status.worst st (Status.worst stop (if Status.collectiveDiverged.toNat ≤ c.sticky.worst.toNat then c.sticky.worst else 0))) 0

/-- A step starts: the next epoch into every context's epoch word, then the contexts (R385). -/
def beginStep (p : Pkg) (j : InForce) : Pkg :=
  let e := (p.rv.epoch + 1) % 2 ^ 32
  (phaseTasks p j p.rv.phase).foldl (fun q x =>
    let q := if (ctxOf q x.1).state = .stopped then ctxClear q x.1 else q
    ctxStart (reeveStore q ((StoreId.core x.1.core).base + x.2.epochAt) (leBytes 4 e)).1 x.1) { p with rv := { p.rv with epoch := e } }

/-- The next step, or the last one again: a failed step is re-run up to rerun_limit times, each with a new epoch; when the limit is spent
its requests end with its status. -/
def nextStep (p : Pkg) (j : InForce) : Pkg :=
  let st := stepStatus p j
  if st = Status.done then beginStep { p with rv := { p.rv with reruns := 0 } } j
  else if p.rv.reruns < policyOf p 0x01 then beginStep { p with rv := { p.rv with reruns := p.rv.reruns + 1 } } j
  else beginStep (failRequests { p with rv := { p.rv with reruns := 0, failedSteps := p.rv.failedSteps + 1 } } st) j

/-- Whether a phase change lets a step start that ends by a round (R361): none that would still run at Rₐ − 2, none until the new phase
is in force. -/
def changeAllows (p : Pkg) (ends : Nat) : Bool :=
  match p.rv.change with
  | some c => c.stage == 0 && decide (ends + 2 ≤ c.ra)
  | none => true

/-- A packet of a sampler command sent to the candidate (R406): the model does not wait for its reply. -/
def samplerSend (p : Pkg) (x : Sampler) (code : Nat) (args : List Nat) (payload : List Byte) : Pkg :=
  let id : Word := BitVec.ofNat 32 x.nextSeq
  let q := sendBytes p ⟨0, x.candidate, id⟩ (packetBytes false false code (ownChip p) x.candidate id 0 args 0 p.bell payload)
  { q with rv := { q.rv with sampler := some { x with nextSeq := x.nextSeq + 1 } } }

/-- The model's state copy (R407): every DRAM range of its tasks' DRAM pairs, in packets of 2,048 bytes. -/
def copyState (p : Pkg) (j : InForce) : Pkg :=
  let ranges := (phaseTasks p j p.rv.phase).map (fun x => (pairBase p x.1 .dram, pairBound p x.1 .dram))
  (ranges.eraseDups.flatMap (fun r =>
    (List.range ((r.2 + 2047) / 2048)).map (fun i => (r.1 + 2048 * i, min 2048 (r.2 - 2048 * i))))).foldl (fun q u =>
    match modelOf q with
    | some x => samplerSend q x 0x72 [u.1, x.nextSeq] (readLocal q u.1 u.2)
    | none => q) p

end Sys2Proof.Machine
end

