-- ==== Sys2Proof/Machine/Phases.lean ====
section
/-! DEFINITION. Phase changes and reshards (R356–R366). -/
namespace Sys2Proof.Machine
open Sys2Proof

/-! ## Descriptors that Caselm posts (R195, R198) -/

/-- The bytes of a move of one contiguous range, in rows of equal length. -/
def descBytes (sspace dspace flow rows len src dst : Nat) (tag : Word) : List Byte :=
  let pitch := min 65535 (len / 64)
  leBytes 1 1 ++ leBytes 1 (sspace + dspace * 8) ++ leBytes 2 (flow % 4096) ++ leBytes 4 len ++ leBytes 8 src ++ leBytes 8 dst ++ leBytes 2 rows
    ++ leBytes 2 pitch ++ leBytes 2 pitch ++ leBytes 2 0 ++ leBytes 8 0 ++ leBytes 2 0 ++ leBytes 2 0 ++ leBytes 4 0 ++ leBytes 4 0
    ++ leBytes 4 tag.toNat ++ leBytes 8 0

/-- The tag of the next descriptor of Caselm. -/
def nextTag (p : Pkg) : Pkg × Word := ({ p with rv := { p.rv with nextTag := p.rv.nextTag + 1 } }, BitVec.ofNat 32 (0x10000000 + p.rv.nextTag))

/-- The outcome of a posting: accepted, refused for now, or refused with a status. -/
inductive Posting where
  | taken
  | later
  | no (st : Status)
  deriving DecidableEq, Repr

/-- A descriptor posted to a queue of a bobbin (R196). -/
def postMove (p : Pkg) (b : BobId) (queue : Nat) (bytes : List Byte) : Pkg × Posting :=
  match offer p b none queue bytes with
  | .yes d => (acceptDesc p b d, .taken)
  | .held => (p, .later)
  | .no st => if st = Status.refusedFull then (p, .later) else (endedAtOnce p b st, if st = Status.refusedBusy then .later else .no st)

/-- The completion of a descriptor of Caselm, taken out of its bobbin's FIFO (R206). -/
def reapTag (p : Pkg) (b : BobId) (tag : Word) : Option (Pkg × Status) :=
  let x := bobOf p b
  match x.fifo.find? (fun e => e.2.2 == tag) with
  | some e => some (setBob p b { x with fifo := x.fifo.erase e }, e.2.1)
  | none => none

/-! ## Entries (R358, R359) -/

/-- Whether this package carries out an entry: it is the source; or the source is fenced and this package holds the unexposed mirror of
the range (R366). -/
def mine (p : Pkg) (e : Reshard) : Bool :=
  e.src == ownChip p ||
    (fenced p e.src && !isExposed p e.srcOff
      && (match p.rv.job with
        | some j => j.sec.mirrors.any (fun m => m.role == 1 && m.partner == e.src && decide (m.first * 65536 ≤ e.srcOff)
            && decide (e.srcOff + e.len ≤ (m.first + m.granules) * 65536))
        | none => false))

/-- The enabled bobbins of a die's clusters. -/
def liveBobs (p : Pkg) (d : Fin 4) : List BobId := (dieBobs d).filter (fun b => enabled p (.bob b))

/-- An entry posted as one move on a flow, as the i-th of its die (R359). -/
def postEntry (p : Pkg) (e : Reshard) (flow i : Nat) : Pkg × Reshard :=
  let bs := liveBobs p e.die
  match bs[i % bs.length]? with
  | none => (p, { e with status := some Status.refusedOffline })
  | some b =>
    let (q, tag) := nextTag p
    match postMove q b (i / bs.length % 8) (descBytes 4 5 flow 1 e.len e.srcOff (e.dst.toNat * 2 ^ 48 + e.dstOff) tag) with
    | (r, .taken) => (r, { e with post := some (b, tag), status := none })
    | (r, .later) => ({ p with rg := r.rg }, e)
    | (r, .no st) => (r, { e with status := some st })

/-- Entries posted in table order; the count is of the entries of each die posted before. -/
def postEntries (t : Pkg → Reshard → Bool) (flowOf : Reshard → Nat) (mark : Reshard → Reshard) :
    List Reshard → Map (Fin 4) Nat → Pkg → Pkg × List Reshard
  | [], _, p => (p, [])
  | e :: r, n, p =>
    if t p e then
      let i := Map.getD n e.die 0
      let (q, e2) := postEntry p (mark e) (flowOf e) i
      let (q, r2) := postEntries t flowOf mark r (Map.put n e.die (i + 1)) q
      (q, (if e2.post.isNone && e2.status.isNone then e else e2) :: r2)
    else
      let (q, r2) := postEntries t flowOf mark r n p
      (q, e :: r2)

/-- The statuses of the posted entries that have ended. -/
def collectEntries : List Reshard → Pkg → Pkg × List Reshard
  | [], p => (p, [])
  | e :: r, p =>
    let (q, e2) : Pkg × Reshard :=
      match e.post, e.status with
      | some (b, t), none => (match reapTag p b t with | some (q, st) => (q, { e with status := some st }) | none => (p, e))
      | _, _ => (p, e)
    let (q, r2) := collectEntries r q
    (q, e2 :: r2)

/-- Whether a status lets the verdict pass (R361). -/
def entryGood (st : Status) : Bool := st == Status.done || st == Status.doneUnmirrored || st == Status.donePoisoned
/-- This package's entries that ended otherwise, and those that have not ended. -/
def badEntries (p : Pkg) (c : PhaseChange) : List Reshard :=
  c.entries.filter (fun e => mine p e && (match e.status with | some st => !entryGood st | none => false))
def openEntries (p : Pkg) (c : PhaseChange) : List Reshard := c.entries.filter (fun e => mine p e && e.status.isNone)

/-- The change in progress replaced. -/
def setChange (p : Pkg) (c : PhaseChange) : Pkg := { p with rv := { p.rv with change := some c } }

/-- A command that this package sends to another on the control flow (R361). -/
def sendCommand (p : Pkg) (chip : Chip) (code : Nat) (args : List Nat) (payload : List Byte) : Pkg :=
  let (q, id) := nextTag p
  sendBytes q ⟨0, chip, id⟩ (packetBytes false false code (ownChip q) chip id (jobField q code) args 0 q.bell payload)

/-- The chips of the slice (R296): those of the in-slice entries, with the own one. -/
def sliceChips (p : Pkg) : List Chip :=
  ownChip p :: ((p.rg.tables.filterMap (fun kv =>
    if kv.1.1 = Page.drt 0 ∧ kv.1.2.1 = 0 then some (BitVec.ofNat 16 kv.1.2.2) else none)).filter (fun c => inSlice p 0 c && c != ownChip p))

/-! ## The command (R360, R361) -/

/-- PHASE_CHANGE: accepted with both rounds far enough ahead and no change in progress; the reshard prickings are loaded, the flows of the
reshard and of the new phase committed, and the swap is armed. -/
def phaseChange (p : Pkg) (src : CmdSrc) : Pkg :=
  serve p src 0x50 (fun q k pk =>
    match q.rv.job with
    | none => finish q k 0x50 Status.refusedNoJob [] []
    | some j =>
      if q.rv.change.isSome then finish q k 0x50 Status.refusedBusy [] []
      else if pk.arg1 < roundNow q + 200 ∨ pk.arg2 < pk.arg1 + 200 then finish q k 0x50 Status.refusedPhaseLate [] []
      else if j.phases ≤ pk.arg0 then finish q k 0x50 Status.failedFormat [] []
      else
        let q := loadPrickings q j.sec (16 + pk.arg0)
        let q := armAll (loadFlows (loadFlows q j.sec (16 + pk.arg0)) j.sec pk.arg0) pk.arg1
        let es := match j.reshard.find? (fun t => t.1 == pk.arg0) with | some t => t.2 | none => []
        keepRunning (setChange q ⟨pk.arg0, pk.arg1, pk.arg2, 0, es, none, none, 0, [], 0, []⟩) k pk)

def execPhaseChange (src : CmdSrc) (s : State) : Host.Outcome State Fault Refusal := act s (fun p => phaseChange p src)

/-! ## Rₐ − 2: the old phase stops, the windows open (R359, R361, R362) -/

/-- A window for the entries into one store from one chip and die: writes only, that chip alone, the cluster bobbins of that die, a tally
of all their bytes, expiry at the commit round. The change keeps which window it is. -/
def openReshardWindow (p : Pkg) (c : PhaseChange) (e : Reshard) : Pkg × PhaseChange :=
  match rangeOf e.dstOff with
  | .store st _ =>
    let same := c.entries.filter (fun x => x.window && x.dst == e.dst && x.src == e.src && x.die == e.die
      && (match rangeOf x.dstOff with | .store s _ => s == st | _ => false))
    let lo := same.foldl (fun a x => min a x.dstOff) e.dstOff
    let hi := same.foldl (fun a x => max a (x.dstOff + x.len)) 0
    let w := (List.finRange 16).find? (fun i => decide (i.val < st.windows) && (winOf p st i.val).state == .closed)
    let owner : Nat := match st with
      | .core _ => 0
      | .cluster d k => (((List.finRange 9).find? (fun i => coreInService p ⟨d, k, i⟩)).map (fun (i : Fin 9) => i.val)).getD 0
    match w with
    | none => (p, c)
    | some i =>
      let b := winBlock st i.val
      (ifOn p st.page (fun q =>
        let q := commitPair q st.page b (BitVec.ofNat 32 ((lo - st.base) / 64)) 0x1FFFF#32
        let q := commitPair q st.page (b + 8) (BitVec.ofNat 32 (2 ^ 30 + (hi - lo) / 64)) 0xC003FFFF#32
        let q := commitPair q st.page (b + 0x10) (BitVec.ofNat 32 (e.src.toNat * 65537)) 0xFFFFFFFF#32
        let q := commitPair q st.page (b + 0x18) (BitVec.ofNat 32 (2 ^ (28 + e.die.val) + 2 ^ 26 + 0x3FF * 2 ^ 16)) 0xFFFF01FF#32
        let q := storePair64 q st.page (b + 0x20) (BitVec.ofNat 64 (c.rb * 32768))
        let q := commitPair q st.page (b + 0x30) (BitVec.ofNat 32 ((same.map (fun x => x.len)).sum)) 0xFFFFFFFF#32
        winOpen q st i.val 0 owner), { c with wins := c.wins ++ [(e.src, e.die, st, i.val)] })
  | _ => (p, c)

/-- One entry for each window that is needed. -/
def windowEntries (p : Pkg) (c : PhaseChange) : List Reshard :=
  let into := c.entries.filter (fun e => e.window && e.dst == ownChip p)
  let key (e : Reshard) : Chip × Fin 4 × Option StoreId := (e.src, e.die, match rangeOf e.dstOff with | .store s _ => some s | _ => none)
  into.foldl (fun l e => if l.any (fun x => key x == key e) then l else l ++ [e]) []

/-- PHASE_STOP_OLD: at Rₐ − 2 no old-phase flow admits and every context that is not IDLE stops; the steps of stopped contexts fail
failed.phase. Once no well is open the reshard windows open. -/
def phaseStopOld (p : Pkg) : Pkg :=
  match p.rv.change, p.rv.job with
  | some c, some j =>
    if roundNow p + 2 < c.ra then p
    else
      let q :=
        if c.stage ≠ 0 then p
        else
          let busy := !stepOver p j
          let q := stopContexts (stopFlows p (j.sec.flows.filter (fun f => f.set == p.rv.phase)))
          setChange (if busy then failRequests q Status.failedPhase else q) { c with stage := 1 }
      match q.rv.change with
      | some c2 =>
        if c2.stage = 1 ∧ (List.finRange 4).all (fun d => (wellOf q d).insts.isEmpty) = true then
          let r := (windowEntries q c2).foldl (fun r e => openReshardWindow r.1 r.2 e) (q, c2)
          setChange r.1 { r.2 with stage := 2 }
        else q
      | none => q
  | _, _ => p

def execPhaseStopOld (s : State) : Host.Outcome State Fault Refusal := act s phaseStopOld

/-! ## Rₐ: the entries are posted, the new phase is loaded (R359, R361) -/

/-- How many entries of each die have been posted: where the rotation over bobbins and queues goes on (R359). -/
def postedSoFar (l : List Reshard) : Map (Fin 4) Nat :=
  (List.finRange 4).map (fun d => (d, (l.filter (fun e => e.die == d && (e.post.isSome || e.status.isSome))).length))

/-- PHASE_RESHARD_POST: once the ports have swapped at Rₐ, the entries of this package that have not been posted are; and, once, the new
phase's prickings, groups, contexts and mill page lists are loaded and the swap is armed for Rᵦ. -/
def reshardPost (p : Pkg) : Pkg :=
  match p.rv.change, p.rv.job with
  | some c, some j =>
    if roundNow p < c.ra ∨ (c.stage ≠ 2 ∧ c.stage ≠ 3) ∨ (c.stage = 2 ∧ !swapsOver p) then p
    else
      let (q, es) := postEntries (fun r e => e.src == ownChip r && e.post.isNone && e.status.isNone) (fun e => e.flow) id c.entries (postedSoFar (c.entries.filter (fun e => e.src == ownChip p))) p
      let q := setChange q { c with entries := es, stage := 3 }
      if c.stage = 3 then q
      else
        let q := loadGroups (loadPrickings q j.sec c.phase) j.sec c.phase
        armAll (loadLists (loadTasks q j.sec c.phase) j.sec c.phase) c.rb
  | _, _ => p

def execPhaseReshardPost (s : State) : Host.Outcome State Fault Refusal := act s reshardPost

/-! ## Readiness and verdict (R361, R363) -/

/-- The tags and statuses of entries, eight bytes each. -/
def tagBytes (l : List Reshard) : List Byte :=
  (l.take 256).flatMap (fun e => leBytes 4 e.tag.toNat ++ leBytes 2 (match e.status with | some st => st.toNat | none => 0) ++ leBytes 2 0)

/-- A report reaches the coordinator: how many entries have ended, and whether every one was good. -/
def takeReport (p : Pkg) (chip : Chip) (ended : Nat) (good : Bool) : Pkg :=
  match p.rv.change with
  | some c => setChange p { c with reports := c.reports ++ [(chip, ended, good)] }
  | none => p

/-- The phase change ends and its command is answered (R364); a failure lists its entries with their statuses, in the reply and, as many as the
record's detail holds, in the event record. -/
def endChange (p : Pkg) (st : Status) : Pkg :=
  match p.rv.change with
  | none => p
  | some c =>
    let bad := badEntries p c
    let q := { p with rv := { p.rv with change := none } }
    let q := if Status.cls st = 0 then q
      else record { q with rv := { q.rv with started := false } } none 0x0119 st 2 true (c.phase :: (bad.take 3).flatMap (fun e => [e.tag.toNat, match e.status with | some t => t.toNat | none => 0]))
    endRuns q (fun x => x.code == 0x50) st [] (if Status.cls st = 0 then [] else tagBytes bad)

/-- A verdict reaches this package: the first one; or, after a fail, the second, by which the new phase starts two rounds later or stays
without a task. -/
def takeVerdict (p : Pkg) (pass : Bool) : Pkg :=
  match p.rv.change with
  | none => p
  | some c =>
    match c.verdict with
    | none => setChange p { c with verdict := some pass }
    | some true => p
    | some false => if pass then setChange p { c with second := some (roundNow p + 2) } else endChange p Status.failedReshard

/-- A verdict sent by the coordinator to every package of the slice, itself included. -/
def sendVerdict (p : Pkg) (pass : Bool) : Pkg :=
  let q := (sliceChips p).foldl (fun q c => if c = ownChip q then q else sendCommand q c 0x52 [if pass then 1 else 0] []) p
  let q := match q.rv.change with | some c => setChange q { c with judged := c.judged + 1 } | none => q
  takeVerdict q pass

/-- PHASE_READY: a readiness report at the coordinator. -/
def phaseReady (p : Pkg) (src : CmdSrc) : Pkg :=
  serve p src 0x51 (fun q k pk =>
    match q.rv.change, q.rv.job with
    | some _, some j =>
      if j.coordinator = ownChip q then finish (takeReport q k.chip pk.arg0 pk.payload.isEmpty) k 0x51 Status.done [] []
      else finish q k 0x51 Status.failedPhase [] []
    | _, _ => finish q k 0x51 Status.failedPhase [] [])

def execPhaseReady (src : CmdSrc) (s : State) : Host.Outcome State Fault Refusal := act s (fun p => phaseReady p src)

/-- PHASE_VERDICT. -/
def phaseVerdict (p : Pkg) (src : CmdSrc) : Pkg :=
  serve p src 0x52 (fun q k pk =>
    if q.rv.change.isSome then finish (takeVerdict q (pk.arg0 == 1)) k 0x52 Status.done [] [] else finish q k 0x52 Status.failedPhase [] [])

def execPhaseVerdict (src : CmdSrc) (s : State) : Host.Outcome State Fault Refusal := act s (fun p => phaseVerdict p src)

/-- PHASE_VERDICT_MISSING (R363): no verdict by slot 0 of Rᵦ − 4: the package enters quarantine. -/
def verdictMissing (p : Pkg) : Pkg :=
  match p.rv.change with
  | some c => if c.verdict.isNone ∧ c.rb ≤ roundNow p + 4 then endChange (quarantine p) Status.failedReshard else p
  | none => p

def execPhaseVerdictMissing (s : State) : Host.Outcome State Fault Refusal := act s verdictMissing

/-- PHASE_START_NEW (R361, R363, R364): at Rᵦ + 2 after a pass, or two rounds after a second verdict, the new phase's windows open and its
first step starts; the command is answered. -/
def phaseStartNew (p : Pkg) : Pkg :=
  match p.rv.change, p.rv.job with
  | some c, some j =>
    let due : Option Status :=
      if c.verdict = some true ∧ c.rb + 2 ≤ roundNow p then
        some (if c.entries.any (fun e => e.status == some Status.doneUnmirrored) then Status.doneUnmirrored else Status.done)
      else
        match c.second with
        | some r => if r ≤ roundNow p then some Status.doneRetried else none
        | none => none
    match due with
    | none => p
    | some st => if p.rv.phase = c.phase then endChange (beginStep (openWindows p j.sec c.phase) j) st else p
  | _, _ => p

def execPhaseStartNew (s : State) : Host.Outcome State Fault Refusal := act s phaseStartNew

/-- RESHARD_RETRY (R363): after a fail verdict, from Rᵦ + 2 on, the entries that did not end done are posted again on flow 0xFFF, at most
twice each. -/
def reshardRetry (p : Pkg) : Pkg :=
  match p.rv.change with
  | some c =>
    if c.verdict ≠ some false ∨ c.second.isSome = true ∨ roundNow p < c.rb + 2 then p
    else
      let (q, es) := postEntries (fun r e => mine r e && decide (e.tries < 2) && (match e.status with | some st => !entryGood st | none => e.post.isNone))
        (fun _ => 0xFFF) (fun e => { e with tries := e.tries + 1, post := none, status := none }) c.entries [] p
      setChange q { c with entries := es }
  | none => p

def execReshardRetry (s : State) : Host.Outcome State Fault Refusal := act s reshardRetry

/-! ## What Caselm does of itself during a change -/

/-- The entries into a window of this package that ended failed.expired, with that status (R366). -/
def expiredEntries (p : Pkg) (c : PhaseChange) : List Reshard :=
  (c.entries.filter (fun e => e.window && e.dst == ownChip p && (match rangeOf e.dstOff with
    | .store st _ => c.wins.any (fun w => w.1 == e.src && w.2.1 == e.die && w.2.2.1 == st && (winOf p st w.2.2.2).status == Status.failedExpired)
    | _ => false))).map (fun e => { e with status := some Status.failedExpired })

/-- The own report sent to the coordinator: the entries that ended, those that ended otherwise, and those whose window here expired. -/
def readyReport (p : Pkg) (j : InForce) (c : PhaseChange) : Pkg :=
  let bad := badEntries p c ++ expiredEntries p c
  let n := (c.entries.filter (fun e => mine p e && e.status.isSome)).length
  let q := setChange p { c with ready := c.ready + 1 }
  if j.coordinator = ownChip q then takeReport q j.coordinator n bad.isEmpty else sendCommand q j.coordinator 0x51 [n] (tagBytes bad)

/-- Readiness (R361): the first report when every entry of which this package is the source has ended; after a fail verdict a second one from
every package, when its retries are over, those for a fenced chip's ranges among them (R366; log entry 52). -/
def readyWork (p : Pkg) : Pkg :=
  match p.rv.change, p.rv.job with
  | some c, some j =>
    if c.stage ≠ 3 then p
    else if c.ready = 0 then (if (openEntries p c).any (fun e => e.src == ownChip p) then p else readyReport p j c)
    else if c.ready = 1 ∧ c.verdict = some false ∧ c.rb + 2 ≤ roundNow p ∧ (openEntries p c).isEmpty = true
        ∧ ((badEntries p c).all (fun e => decide (2 ≤ e.tries))) = true then readyReport p j c
    else p
  | _, _ => p

/-- The coordinator's verdicts: a pass when every package has reported every entry good, a fail otherwise and at Rᵦ − 8; after a fail, when
every package that is not fenced has reported again, a pass if each of them reports its entries good and together they make the whole table,
else a fail (log entry 52). -/
def judgeWork (p : Pkg) : Pkg :=
  match p.rv.change, p.rv.job with
  | some c, some j =>
    if j.coordinator ≠ ownChip p then p
    else
      let of (x : Chip) : List (Nat × Bool) := (c.reports.filter (fun r => r.1 == x)).map (fun r => r.2)
      let all := (sliceChips p).all (fun x => !(of x).isEmpty)
      if c.judged = 0 then
        (if all ∨ c.rb ≤ roundNow p + 8 then sendVerdict p (all && c.reports.all (fun r => r.2.2)) else p)
      else if c.judged = 1 ∧ c.verdict = some false then
        let live := (sliceChips p).filter (fun x => !fenced p x)
        let last (x : Chip) : Nat × Bool := (of x).getLastD (0, false)
        if live.all (fun x => decide (2 ≤ (of x).length)) then
          sendVerdict p (live.all (fun x => (last x).2) && decide (c.entries.length ≤ (live.map (fun x => (last x).1)).sum))
        else p
      else p
  | _, _ => p

/-- From the swap at Rᵦ the new phase is in force; a mirrored destination of this package awaits its mirror copy (R402). -/
def forceWork (p : Pkg) : Pkg :=
  match p.rv.change with
  | some c =>
    if c.rb ≤ roundNow p ∧ c.stage = 3 ∧ swapsOver p = true ∧ p.rv.phase ≠ c.phase then
      (c.entries.filter (fun e => e.twin && e.dst == ownChip p)).foldl (fun q e => addExposed q e.dstOff e.len) { p with rv := { p.rv with phase := c.phase } }
    else p
  | none => p

/-- All of it. -/
def phaseWork (p : Pkg) : Pkg :=
  match p.rv.change with
  | none => p
  | some c =>
    let (q, es) := collectEntries c.entries p
    judgeWork (readyWork (forceWork (setChange q { c with entries := es })))

end Sys2Proof.Machine
end

