-- ==== Sys2Proof/Machine/Sampling.lean ====
section
/-! DEFINITION. Sampler admission (R405–R411). -/
namespace Sys2Proof.Machine
open Sys2Proof

/-- Whether three rejections for reasons 0x2 to 0x4 fell within 24 h, oldest first: from then on no sampler begins here until the next maintenance
reset (R409). -/
def beginBarred (l : List Nat) : Bool := (l.zip (l.drop 2)).any (fun x => decide (x.2 < x.1 + dayTicks))

/-- What Caselm does of itself in a sampler: it ends for a model that is quarantined, and for a candidate that holds the model's fence (R409). -/
def samplerWork (p : Pkg) : Pkg :=
  match p.rv.sampler with
  | some x => if (if x.joins then fenced p x.model else p.quarantined) then endSampler p 6 0 else p
  | none => p

/-- The model opens the pass (R408): the fence entry's bit, and the ports toward the candidate that pass the check of R307. -/
def openPass (p : Pkg) (j : InForce) (chip : Chip) : Pkg :=
  ((portsTo p chip).filter (topologyOk p j.sec)).foldl (fun q n => setPortEn q n true) (setPass p chip true)

/-- SAMPLER_BEGIN. -/
def samplerBegin (p : Pkg) (src : CmdSrc) : Pkg :=
  serve p src 0x71 (fun q k pk =>
    let cand : Chip := BitVec.ofNat 16 pk.arg0
    let model : Chip := BitVec.ofNat 16 (pk.arg0 / 65536)
    let x (joins : Bool) : Sampler := ⟨joins, cand, model, pk.arg1, 0, [], 0, pk.arg1, false, 0⟩
    match q.rv.job with
    | none => finish q k 0x71 Status.refusedNoJob [] []
    | some j =>
      if q.rv.sampler.isSome then finish q k 0x71 Status.refusedBusy [] []
      else if ownChip q = cand then
        if beginBarred q.rv.rejections then finish q k 0x71 Status.refusedBusy [] []
        else finish { q with rv := { q.rv with sampler := some (x true) } } k 0x71 Status.done [] []
      else if ownChip q = model then
        let r := finish (openPass { q with rv := { q.rv with sampler := some (x false) } } j cand) k 0x71 Status.done [] []
        if (portsTo r cand).any (fun n => bit (getReg r (.drt (dieOfPort n)) 0x0A0) (portIdx n)) then r else endSampler r 6 0
      else finish q k 0x71 Status.failedFormat [] [])

def execSamplerBegin (src : CmdSrc) (s : State) : Host.Outcome State Fault Refusal := act s (fun p => samplerBegin p src)

/-- A sampler command at the candidate: its sequence must be the next one, else one is missing (R407, R409). -/
def atCandidate (p : Pkg) (k : CmdKey) (code seq : Nat) (f : Pkg → Sampler → Pkg) : Pkg :=
  match p.rv.sampler with
  | some x =>
    if !x.joins then finish p k code Status.failedFormat [] []
    else if seq ≠ x.nextSeq then finish (endSampler p 1 0) k code Status.done [] []
    else
      let y := { x with nextSeq := x.nextSeq + 1 }
      f { p with rv := { p.rv with sampler := some y } } y
  | none => finish p k code Status.failedFormat [] []

/-- Bytes landed for the sampler; a landing that is refused loses a sequence. -/
def samplerLand (p : Pkg) (k : CmdKey) (pk : Packet) (code a : Nat) (bs : List Byte) (f : Pkg → Pkg) : Pkg :=
  let (q, st) := landNow p pk a bs
  if st = Status.done then finish (f q) k code st [] [] else finish (endSampler q 1 0) k code st [] []

/-- SAMPLER_STATE: a piece of the model's state. -/
def samplerState (p : Pkg) (src : CmdSrc) : Pkg :=
  serve p src 0x72 (fun q k pk => atCandidate q k 0x72 pk.arg1 (fun r _ => samplerLand r k pk 0x72 pk.arg0 pk.payload id))

def execSamplerState (src : CmdSrc) (s : State) : Host.Outcome State Fault Refusal := act s (fun p => samplerState p src)

/-- The journal ring of the job (R404, R405). -/
def journalRing (p : Pkg) : Option RingDef :=
  match p.rv.job with
  | some j => j.sec.rings.find? (fun r => r.result && r.index == policyOf p 0x13)
  | none => none

/-- SAMPLER_RECORD: a piece of a step's journal into the candidate's own journal ring; more than sampler_lag steps held end the sampler. -/
def samplerRecord (p : Pkg) (src : CmdSrc) : Pkg :=
  serve p src 0x73 (fun q k pk => atCandidate q k 0x73 pk.arg1 (fun r x =>
    match journalRing r with
    | none => finish (endSampler r 1 0) k 0x73 Status.failedFormat [] []
    | some g =>
      let head := leNat (readLocal r g.head 8)
      samplerLand r k pk 0x73 (g.base + (if g.count = 0 then 0 else head % g.count) * g.size) (pk.payload.take g.size) (fun t =>
        let t := (reeveStore t g.head (leBytes 8 (head + 1))).1
        let l := if x.journal.contains pk.arg0 then x.journal else x.journal ++ [pk.arg0]
        let t := { t with rv := { t.rv with sampler := some { x with journal := l } } }
        if policyOf t 0x12 < l.length then endSampler t 5 0 else t)))

def execSamplerRecord (src : CmdSrc) (s : State) : Host.Outcome State Fault Refusal := act s (fun p => samplerRecord p src)

/-- The first position at which two byte strings differ. -/
def firstByteDiff : List Byte → List Byte → Nat
  | a :: r, b :: t => if a = b then firstByteDiff r t + 1 else 0
  | _, _ => 0

/-- The reason for which a step is not clean (R409), in the order of the table: a fatal stop or a block in FAULT, the digest, the spot
bytes. -/
def stepFails (p : Pkg) (theirs own : DWord) (spot ownSpot : List Byte) : Option Nat :=
  let fatal := match p.rv.job with | some j => stepStatus p j != Status.done | none => true
  if fatal || p.rg.blocks.any (fun kv => kv.2.state == .fault) then some 2
  else if theirs ≠ own then some 3
  else if spot ≠ ownSpot.take spot.length then some 4
  else none

/-- SAMPLER_DIGEST: the candidate judges the step; sampler_steps clean ones in a row end the sampler with reason 0x8. -/
def samplerDigest (p : Pkg) (src : CmdSrc) (own : DWord) (ownSpot : List Byte) : Pkg :=
  serve p src 0x74 (fun q k pk => atCandidate q k 0x74 pk.arg2 (fun r x =>
    let y := { x with epoch := pk.arg0, journal := x.journal.filter (fun e => e != pk.arg0) }
    let r := { r with rv := { r.rv with sampler := some y } }
    match stepFails r (BitVec.ofNat 64 pk.arg1) own pk.payload ownSpot with
    | some n => finish (endSampler r n (if n = 4 then firstByteDiff pk.payload ownSpot else 0)) k 0x74 Status.done [] []
    | none =>
      let r := { r with rv := { r.rv with sampler := some { y with clean := y.clean + 1 } } }
      finish (if policyOf r 0x10 ≤ y.clean + 1 then endSampler r 8 0 else r) k 0x74 Status.done [] []))

def execSamplerDigest (src : CmdSrc) (digest : DWord) (spot : List Byte) (s : State) : Host.Outcome State Fault Refusal :=
  act s (fun p => samplerDigest p src digest spot)

/-- SAMPLER_END: reason 0x7. -/
def samplerEnd (p : Pkg) (src : CmdSrc) : Pkg :=
  serve p src 0x75 (fun q k pk =>
    match q.rv.sampler with
    | some x =>
      if x.candidate = BitVec.ofNat 16 pk.arg0 then finish (endSampler q 7 0) k 0x75 Status.done [] []
      else finish q k 0x75 Status.failedFormat [] []
    | none => finish q k 0x75 Status.failedFormat [] [])

def execSamplerEnd (src : CmdSrc) (s : State) : Host.Outcome State Fault Refusal := act s (fun p => samplerEnd p src)

/-- SAMPLER_REPORT (R406, R407): the candidate's report after every 64 steps, over the management port. The code is the candidate's to
send; a packet of it that arrives is answered failed.opcode. -/
def samplerReport (p : Pkg) (src : Option CmdSrc) : Pkg :=
  match src with
  | some s => serve p s 0x76 (fun q k _ => finish q k 0x76 Status.failedOpcode [] [])
  | none =>
    match p.rv.sampler with
    | some x =>
      if x.joins ∧ x.reported + 64 ≤ x.clean then
        emit { p with rv := { p.rv with sampler := some { x with reported := x.clean } } }
          (.packet 1 (packetBytes false false 0x76 0 0 (BitVec.ofNat 32 x.epoch) 0 [x.clean, 0, x.epoch] 0 p.bell []))
      else p
    | none => p

def execSamplerReport (src : Option CmdSrc) (s : State) : Host.Outcome State Fault Refusal := act s (fun p => samplerReport p src)

/-! ## Promotion (R410) -/

/-- What the named round does: the candidate's fence entry is cleared; at the candidate the QUARANTINED blocks pass to DISABLED with cause
0x0A, and Caselm writes an admission record. -/
def admitNow (p : Pkg) (chip : Chip) : Pkg :=
  let q := { p with fences := p.fences.filter (fun (f : Fence) => f.chip != chip), rv := { p.rv with admission := none } }
  if chip ≠ ownChip q then q
  else
    let q := (q.rg.blocks.map (fun kv => kv.1)).foldl (fun r g => if stateOf r g = .quarantined then setState r g .disabled 0x0A else r) q
    record { q with quarantined := false } none 0x0115 0 0 true [(getReg q (.drt 0) 0x0B0).toNat, chip.toNat]

/-- An admission that names a round; one already past acts at once. -/
def takeAdmission (p : Pkg) (chip : Chip) (round : Nat) : Pkg :=
  if round ≤ roundNow p then admitNow p chip else { p with rv := { p.rv with admission := some ⟨chip, round⟩ } }

/-- SAMPLER_PROMOTE: the coordinator sends sampler_admit to every package of the slice for a round ahead. -/
def samplerPromote (p : Pkg) (src : CmdSrc) : Pkg :=
  serve p src 0x77 (fun q k pk =>
    match q.rv.job with
    | none => finish q k 0x77 Status.refusedNoJob [] []
    | some j =>
      if j.coordinator ≠ ownChip q then finish q k 0x77 Status.failedFormat [] []
      else
        let round := roundNow q + 8
        let q := (sliceChips q).foldl (fun r c => if c = ownChip r then r else sendCommand r c 0x78 [pk.arg0, round] []) q
        finish (takeAdmission q (BitVec.ofNat 16 pk.arg0) round) k 0x77 Status.done [] [])

def execSamplerPromote (src : CmdSrc) (s : State) : Host.Outcome State Fault Refusal := act s (fun p => samplerPromote p src)

/-- SAMPLER_ADMIT. -/
def samplerAdmit (p : Pkg) (src : CmdSrc) : Pkg :=
  serve p src 0x78 (fun q k pk => finish (takeAdmission q (BitVec.ofNat 16 pk.arg0) pk.arg1) k 0x78 Status.done [] [])

def execSamplerAdmit (src : CmdSrc) (s : State) : Host.Outcome State Fault Refusal := act s (fun p => samplerAdmit p src)

/-- SAMPLER_ADMIT_ROUND. -/
def admitRound (p : Pkg) : Pkg :=
  match p.rv.admission with
  | some a => if a.round ≤ roundNow p then admitNow p a.chip else p
  | none => p

def execSamplerAdmitRound (s : State) : Host.Outcome State Fault Refusal := act s admitRound

end Sys2Proof.Machine
end

