-- ==== Sys2Proof/Machine/Caselm.lean ====
section
/-! DEFINITION. What Caselm does for a job and of itself: loads, reads and requests (R374, R375), steps (R385), results (R376), its
watchdog (R367), telemetry and audits (R386, R399), the default policies (R384), task moves (R383), restores (R230) and re-mirrors (R402). -/
namespace Sys2Proof.Machine
open Sys2Proof

/-! ## Commands on job DRAM (R374, R375) -/

/-- LOAD: a payload into job DRAM. -/
def loadCommand (p : Pkg) (src : CmdSrc) : Pkg :=
  serve p src 0x30 (fun q k pk =>
    let n := pk.payload.length
    if pk.arg0 % 64 ≠ 0 ∨ n = 0 ∨ n % 64 ≠ 0 ∨ !inDram pk.arg0 then finish q k 0x30 Status.failedFormat [] []
    else if reachesCaselm pk.arg0 n then finish q k 0x30 Status.refusedPrivate [] []
    else
      let (r, st) := landNow q pk pk.arg0 pk.payload
      finish r k 0x30 st [] [])

def execLoadCmd (src : CmdSrc) (s : State) : Host.Outcome State Fault Refusal := act s (fun p => loadCommand p src)

/-- READ: bytes of job DRAM as payload; a poisoned line among them gives done.poisoned. -/
def readCommand (p : Pkg) (src : CmdSrc) : Pkg :=
  serve p src 0x31 (fun q k pk =>
    if pk.arg1 < 64 ∨ 2048 < pk.arg1 ∨ !inDram pk.arg0 then finish q k 0x31 Status.failedFormat [] []
    else if reachesCaselm pk.arg0 pk.arg1 then finish q k 0x31 Status.refusedPrivate [] []
    else
      let (r, st) := checkAccess q (.reeve 0) pk.arg0 pk.arg1
      if st ≠ Status.done then finish r k 0x31 st [] []
      else
        finish (countDram r pk.arg0 pk.arg1 false) k 0x31 (if localPoisoned r pk.arg0 pk.arg1 then Status.donePoisoned else Status.done) []
          (readLocal r pk.arg0 pk.arg1))

def execReadCmd (src : CmdSrc) (s : State) : Host.Outcome State Fault Refusal := act s (fun p => readCommand p src)

/-- A ring of the job. -/
def jobRing (p : Pkg) (result : Bool) (i : Nat) : Option RingDef :=
  match p.rv.job with
  | some j => j.sec.rings.find? (fun r => r.result == result && r.index == i)
  | none => none

/-- REQUEST: a payload into a free entry of a request ring; its head word is advanced once the landing has ended, and only then the reply
carries the request's sequence. -/
def requestCommand (p : Pkg) (src : CmdSrc) : Pkg :=
  serve p src 0x40 (fun q k pk =>
    match jobRing q false pk.arg0 with
    | none => finish q k 0x40 Status.failedFormat [] []
    | some g =>
      let n := Map.getD q.rv.accepted g.index 0
      if g.size < pk.payload.length then finish q k 0x40 Status.failedFormat [] []
      else if g.count ≤ (q.rv.requests.filter (fun r => r.ring == g.index)).length then finish q k 0x40 Status.refusedFull [] []
      else
        let (r, st) := landNow q pk (g.base + n % g.count * g.size) pk.payload
        if st ≠ Status.done then finish r k 0x40 st [] []
        else
          let r := (reeveStore r g.head (leBytes 8 (n + 1))).1
          finish { r with rv := { r.rv with
            accepted := Map.put r.rv.accepted g.index (n + 1), requests := r.rv.requests ++ [⟨k, g.index, n⟩] } } k 0x40 Status.done [n] [])

def execRequestCmd (src : CmdSrc) (s : State) : Host.Outcome State Fault Refusal := act s (fun p => requestCommand p src)

/-! ## Ledger queries, fences, maintenance (R374) -/

/-- The look-up of a key on the dies in turn, to the first that finds it. -/
def lqSearch (primary source : Nat) (sd : Fin 4) (seq : Word) : List (Fin 4) → Pkg → Pkg × Option (Fin 4)
  | [], p => (p, none)
  | d :: r, p =>
    let q := ifOn p (.ledg d) (fun q =>
      lqGo (setReg (setReg q (.ledg d) 0x200 (BitVec.ofNat 32 (primary * 65536 + source))) (.ledg d) 0x204 seq) d sd)
    if stateOf p (.ledg d) != .off && bit (getReg q (.ledg d) 0x20C) 30 then (q, some d) else lqSearch primary source sd seq r q

/-- LEDGER_QUERY. -/
def ledgerQuery (p : Pkg) (src : CmdSrc) : Pkg :=
  serve p src 0x60 (fun q k pk =>
    if h : pk.arg1 < 4 then
      let (r, f) := lqSearch (pk.arg0 % 65536) (pk.arg0 / 65536 % 65536) ⟨pk.arg1, h⟩ (BitVec.ofNat 32 pk.arg2) (List.finRange 4) q
      match f with
      | some d => finish r k 0x60 Status.done [1, (getReg64 r (.ledg d) 0x210).toNat, bits (getReg r (.ledg d) 0x20C) 15 0] []
      | none => finish r k 0x60 Status.done [0, 0, 0] []
    else finish q k 0x60 Status.failedFormat [] [])

def execLedgerQuery (src : CmdSrc) (s : State) : Host.Outcome State Fault Refusal := act s (fun p => ledgerQuery p src)

/-- FENCE: Caselm writes FENCE_REQ (R328). -/
def fenceCommand (p : Pkg) (src : CmdSrc) : Pkg :=
  serve p src 0x61 (fun q k pk =>
    finish (ifOn q hubCmn (fun r => fenceReqWrite r (BitVec.ofNat 32 (0x80000000 + pk.arg0 % 65536)))) k 0x61 Status.done [] [])

def execFenceCmd (src : CmdSrc) (s : State) : Host.Outcome State Fault Refusal := act s (fun p => fenceCommand p src)

/-- The spares that maintenance fuses in (R9, R129): in a cluster whose spare is not retired itself, the spare takes the place of the
first retired core. -/
def fuseSpares (p : Pkg) : Pkg :=
  p.retired.foldl (fun (q : Pkg) (c : CoreId) =>
    let spare : CoreId := ⟨c.die, c.cluster, spareOf q c.die c.cluster⟩
    if q.retired.contains spare then q else { q with spares := Map.put q.spares (c.die, c.cluster) c.core }) p

/-- MAINT_RESET: with no manifest in force the reply is sent, the spares are fused in and the package is reset. -/
def maintReset (p : Pkg) (src : CmdSrc) : Pkg :=
  serve p src 0x70 (fun q k _ =>
    if q.rv.job.isSome then finish q k 0x70 Status.refusedBusy [] []
    else packageReset (fuseSpares (finish q k 0x70 Status.done [] [])) 0x04)

def execMaintReset (src : CmdSrc) (s : State) : Host.Outcome State Fault Refusal := act s (fun p => maintReset p src)

/-! ## Steps (R385) -/

/-- STEP_START: at a round boundary, once no context of the job runs and no re-mirror copy of this boundary is outstanding, the next step
starts. The first one starts at the round that start names. Before the first epoch of a sampler its model sends the copy of its state;
the operand says whether the copy ends within sampler_pause (R407). -/
def stepStart (p : Pkg) (ends : Nat) (copied : Bool) : Pkg :=
  match p.rv.job with
  | none => p
  | some j =>
    if slotOf p.bell ≠ 0 ∨ manifestBusy p then p
    else if !p.rv.started then
      match p.rv.runs.find? (fun r => r.code == 0x24) with
      | none => p
      | some r =>
        if r.arg0 ≤ roundNow p then
          endRuns (beginStep { p with rv := { p.rv with started := true, mirrored := 0 } } j) (fun x => x.code == 0x24) Status.done [] []
        else p
    else if !stepOver p j || !changeAllows p ends || p.rv.posted.any (fun x => !x.restore) then p
    else
      let q := { p with rv := { p.rv with mirrored := 0 } }
      let q := match modelOf q with
        | some x =>
          if x.first = (q.rv.epoch + 1) % 2 ^ 32 && !x.copied then
            if copied then
              let r := copyState q j
              { r with rv := { r.rv with sampler := r.rv.sampler.map (fun y => { y with copied := true }) } }
            else endSampler q 6 0
          else q
        | none => q
      nextStep q j

def execStepStart (ends : Nat) (copied : Bool) (s : State) : Host.Outcome State Fault Refusal := act s (fun p => stepStart p ends copied)

/-! ## The results that tasks publish (R376, R405) -/

/-- The bytes of the result rings that the model sends for comparison (R407): at most a packet's payload of them, from the base of the
first result ring that is not the journal. -/
def spotBytes (p : Pkg) : List Byte :=
  match p.rv.job with
  | some j =>
    match j.sec.rings.find? (fun r => r.result && r.index != policyOf p 0x13) with
    | some g => readLocal p g.base (min (min 2048 (policyOf p 0x11)) (g.size * g.count))
    | none => []
  | none => []

/-- One entry of a result ring that its head word says has been published: a result to its requester, or of the journal a record, the
last of a step its digest, to the candidate of a sampler. -/
def takeResult (p : Pkg) (e : ResultEntry) : Pkg :=
  match jobRing p true e.ring with
  | none => p
  | some g =>
    let n := Map.getD p.rv.taken g.index 0
    if leNat (readLocal p g.head 8) ≤ n ∨ g.count = 0 then p
    else
      let a := g.base + n % g.count * g.size
      let payload := readLocal p a (min e.len g.size)
      let st := if localPoisoned p a (min e.len g.size) then Status.donePoisoned else Status.done
      let q := { p with rv := { p.rv with taken := Map.put p.rv.taken g.index (n + 1) } }
      if g.index = policyOf p 0x13 then
        match modelOf q with
        | some x =>
          if !x.copied then q
          else if e.last then samplerSend q x 0x74 [q.rv.epoch, leNat (payload.take 8), x.nextSeq] (spotBytes q)
          else samplerSend q x 0x73 [q.rv.epoch, x.nextSeq] payload
        | none => q
      else
        match q.rv.requests.find? (fun r => r.ring == e.reqRing && r.seq == e.reqSeq) with
        | some r => if lastGiven q r then q else newResult q r e.last st payload
        | none => q

/-- During boot, once the routers are up and DISABLED, Caselm commits the chip number that the configuration area holds (R293). -/
def chipWork (p : Pkg) : Pkg :=
  match p.boot.chip with
  | some c =>
    if !chipAssigned p && p.rv.job.isNone && (List.finRange 4).all (fun d => stateOf p (.drt d) == .disabled) then
      chipCommit p (BitVec.ofNat 32 (2 ^ 16 + c.toNat))
    else p
  | none => p

/-- The work Caselm has on its own, done each time it looks: the chip number, peers that pass their check, a commit, a
withdrawal, a phase change, a sampler. -/
def caselmWork (p : Pkg) : Pkg := samplerWork (phaseWork (withdrawWork (commitWork (enablePorts (chipWork p)))))

/-- Whether Caselm runs: taken over, and not in P3. -/
def caselmRuns (p : Pkg) : Bool := p.boot.stage == .caselm && !p.pw.p3

/-- RESULT_POLL: every 20 µs. The operand names the entries that the heads show to be new, as Caselm reads them. -/
def resultPoll (p : Pkg) (entries : List ResultEntry) : Pkg :=
  if caselmRuns p ∧ p.rv.pollAt + 20000 ≤ p.count then
    entries.foldl takeResult (caselmWork { p with rv := { p.rv with pollAt := p.count } })
  else p

def execResultPoll (entries : List ResultEntry) (s : State) : Host.Outcome State Fault Refusal := act s (fun p => resultPoll p entries)

/-- WATCHDOG_RESTART (R367): every 1 ms. -/
def watchdogRestart (p : Pkg) : Pkg :=
  if caselmRuns p ∧ p.rv.wdogAt + 1000000 ≤ p.count then caselmWork { p with rv := { p.rv with wdogAt := p.count } } else p

def execWatchdogRestart (s : State) : Host.Outcome State Fault Refusal := act s watchdogRestart

/-! ## Telemetry and audits (R386, R399) -/

/-- The ticks of a list that are younger than 24 hours. -/
def recent (p : Pkg) (l : List Nat) : List Nat := l.filter (fun t => decide (p.count < t + dayTicks))

/-- A block told to stay DISABLED once its drain is over: CTRL.run = 0b00 without a commit of its own. -/
def holdDisabled (p : Pkg) (g : Page) : Pkg := storePair p g 0x008 (getReg p g 0x008 &&& 0xFFFFFFFC#32)

/-- An audit failure of a block (R399): its record, its drain with cause 0x08, after which the block enables itself again; the second one
within 24 h leaves it DISABLED. -/
def auditFail (p : Pkg) (f : Page × Nat × Nat × Nat) : Pkg :=
  let old := recent p (Map.getD p.rv.audits f.1 [])
  let q := record p (some f.1) 0x0110 0 3 (!old.isEmpty) [f.2.1, f.2.2.1, f.2.2.2]
  let q := { q with rv := { q.rv with audits := Map.put q.rv.audits f.1 (old ++ [q.count]) } }
  let q := if old.isEmpty then q else emit (holdDisabled q f.1) (.report 0x0110 [f.2.1, f.2.2.1, f.2.2.2])
  if enabled q f.1 then startDrain q f.1 0x08 else q

/-- The mirrored ranges whose two ends share a failure domain (R400). -/
def colocated (p : Pkg) : List MirrorDef :=
  match p.rv.job with
  | some j => j.sec.mirrors.filter (fun x => (x.own.zip x.theirs).any (fun e => e.1 == e.2))
  | none => []

/-- The figures of R387 by group and instance, in the table's order; a package power that the board alone measures is open (log entry 21). -/
def teleFigures (p : Pkg) : Map (Nat × Nat) (List Nat) :=
  let c (g : Page) (o : Nat) : Nat := (getReg64 p g o).toNat
  let off : Int := match p.bellU.parent with | some n => (bellPort p n).ofs | none => 0
  let mask (d : Fin 4) (k : Fin 10) : Nat := ((List.finRange 9).map (fun x => if coreInService p ⟨d, k, x⟩ then 2 ^ x.val else 0)).sum
  let map (d : Fin 4) : List Nat := (p.rv.moves.filter (fun kv => kv.1.die == d)).map (fun kv => kv.1.slot * 2 ^ 32 + kv.2.die.val * 256 + kv.2.slot)
  [((0, 0), [(reeveStatus p).toNat, (match p.rv.job with | some j => j.tag.toNat | none => 0), p.rv.phase, p.rv.epoch, p.boots.toNat,
      (match p.bellU.state with | .unjoined => 0 | .joining => 1 | .locked => 2 | .holdover => 3 | .unaligned => 4), (BitVec.ofInt 64 off).toNat])]
  ++ (List.finRange 4).map (fun d => ((1, d.val), (List.finRange 10).map (mask d)
      ++ (if d.val = 0 then [((List.finRange 12).map (fun n => if enabled p (.memc n) && !(stackOf p n).tripped then 2 ^ n.val else 0)).sum, mapGib p] else []) ++ map d))
  ++ (List.finRange 12).map (fun n => ((1, 16 + n.val),
      [((List.finRange 8).map (fun m => if enabled p (.mill ⟨n, m⟩) then 2 ^ m.val else 0)).sum,
       ((List.range (reliefCount p n)).filter (fun k => !bit (entryVal p (.memc n) 1 k) 31 && !bit (entryVal p (.memc n) 1 k) 30)).length]))
  ++ (List.finRange 4).map (fun d => ((2, d.val),
      [(match Map.look p.pw.sensors ⟨d.val, by omega⟩ with | some x => (BitVec.ofInt 64 x.tmax).toNat | none => 0), dutyOf p d, bits (getReg p .fuse (0x0A0 + 4 * d.val)) 7 0]
        ++ (if d.val = 0 then [(Config.freeWord p.free).toNat] else [])))
  ++ (List.finRange 12).map (fun n => ((2, 16 + n.val), [(stackOf p n).temp]))
  ++ (List.finRange 12).map (fun n => ((3, n.val), [c (.memc n) 0x100, c (.memc n) 0x108, c (.memc n) 0x128]
      ++ (if n.val = 0 then [(p.rv.exposed.map (fun e => e.2 * 65536)).sum, (colocated p).length] ++ (colocated p).map (fun x => x.first) else [])))
  ++ (List.finRange 32).map (fun n =>
      let dly := match (bellPort p n).dly with | some t => t / 16 | none => 0
      ((4, n.val), [(regView p (.sel (seOfPort n)) (0x0A0 + 8 * portHalf n)).toNat, (regView p (.lnk n) 0x080).toNat,
        16 - popcount 16 (portOfPkg p n).txMap.toNat, 16 - popcount 16 (portOfPkg p n).rxMap.toNat, if (portOfPkg p n).revoked then 1 else 0, if dly < 60 then 1 else if dly ≤ 120 then 2 else 3]))
  ++ (List.finRange 32).map (fun n => ((5, n.val), [c (.prk n) 0x110, c (.lnk n) 0x170]
      ++ (if n.val = 0 then [((List.finRange 4).map (fun d => c (.drt d) 0x188 + c (.drt d) 0x190)).sum] else [])))
  ++ [((6, 0), [((List.range 5).map (fun k => c ⟨0x1D, k⟩ 0x120)).sum,
        ((List.range 5).map (fun k => c ⟨0x1D, k⟩ 0x128 + c ⟨0x1D, k⟩ 0x130)).sum, p.fences.length, if p.quarantined then 1 else 0])]
  ++ (List.finRange 4).map (fun d => ((7, d.val), [c (.well d) 0x120, c (.well d) 0x128, c (.well d) 0x130, c (.well d) 0x138,
        (p.records.filter (fun r => r.type == 0x18 && r.inst == d.val && r.code == 20)).length]))
  ++ [((8, 0), [(p.rv.accepted.map (fun kv => kv.2)).sum, p.rv.finished, p.rv.requests.length, p.rv.results.length, p.rv.reruns, p.rv.failedSteps]),
    ((9, 0), [(getReg p .reeve 0x090).toNat, c .reeve 0x128, c .reeve 0x130])]

/-- TELEMETRY_SNAPSHOT: every 10 ms, at a round boundary. The operand is the balances found not to hold: block, quantity and both
sides. -/
def telemetrySnapshot (p : Pkg) (failed : List (Page × Nat × Nat × Nat)) : Pkg :=
  if caselmRuns p ∧ p.rv.snapAt + 10000000 ≤ p.count ∧ slotOf p.bell = 0 then
    failed.foldl auditFail { p with free := p.free + 1, rv := { p.rv with snapshot := p.bell, snapAt := p.count, figures := teleFigures p } }
  else p

def execTelemetrySnapshot (failed : List (Page × Nat × Nat × Nat)) (s : State) : Host.Outcome State Fault Refusal :=
  act s (fun p => telemetrySnapshot p failed)

/-! ## The default policies (R129, R156, R247, R384) -/

/-- A core is retired: told to disable, out of placement, recorded. -/
def retireCore (p : Pkg) (c : CoreId) (st : Status) : Pkg :=
  if p.retired.contains c then p
  else
    let q := commitCtrl p (.core c) (getReg p (.core c) 0x008 &&& 0xFFFFFFFC#32)
    emit (record { q with retired := q.retired ++ [c], rv := { q.rv with retest := q.rv.retest.erase c } } (some (.core c)) 0x0116 st 2 true [c.slot])
      (.report 0x0116 [c.die.val, c.slot])

/-- An event that Caselm has handled leaves EVT_STATUS and its alerts. -/
def handled (p : Pkg) (g : Page) (i : Nat) : Pkg :=
  let b := block p g
  let q := setBlock p g { b with evt := withBit b.evt i false }
  { q with rg := { q.rg with alerts := q.rg.alerts.filter (fun (a : Page × Nat) => a != (g, i)) } }

/-- Whether a block's last test is 24 h old and the job leaves a point for the next (R129, R249, R384). -/
def retestDue (p : Pkg) (g : Page) : Bool :=
  enabled p g && decide ((block p g).since + dayTicks ≤ p.count) && (match p.rv.job with | some j => stepOver p j | none => true)

/-- A core's residue mismatch or self-test (R129): a mismatch drains and retests the core; a test passed after one is a transient, the
third of which within 24 h retires the core; a core in FAULT is retired. -/
def corePolicy (p : Pkg) (c : CoreId) : Pkg :=
  let g := Page.core c
  if stateOf p g = .fault then handled (retireCore p c Status.failedEngine) g 17
  else if stateOf p g ≠ .enabled then p
  else if p.rv.retest.contains c then
    let l := recent p (Map.getD p.rv.faults c []) ++ [p.count]
    let q := record { p with rv := { p.rv with retest := p.rv.retest.erase c, faults := Map.put p.rv.faults c l } } (some g) 16 0 1 false [l.length]
    if 3 ≤ l.length then retireCore q c Status.failedEngine else q
  else if bit (block p g).evt 16 then startDrain (handled { p with rv := { p.rv with retest := p.rv.retest ++ [c] } } g 16) g 0x08
  else if retestDue p g then startDrain p g 0x08
  else p

/-- The errors that a bank showed within 24 hours, uncorrectable or correctable ones (R156). -/
def bankErrs (p : Pkg) (st : StoreId) (b : Nat) (double : Bool) : Nat :=
  ((storeOf p st).errs.filter (fun e => e.1 == b && e.2.1 == double && decide (p.count < e.2.2 + dayTicks))).length

/-- A store whose bank shows 2 uncorrectable or 16 correctable errors within 24 h (R156): a core fails; a cluster is withdrawn from
placement until maintenance. -/
def storePolicy (p : Pkg) (st : StoreId) : Pkg :=
  if (List.range st.banks).all (fun b => decide (bankErrs p st b true < 2) && decide (bankErrs p st b false < 16)) then p
  else
    match st with
    | .core c => retireCore p c 0
    | .cluster d k =>
      if p.rv.withdrawn.contains (d, k) then p
      else
        emit (record { p with rv := { p.rv with withdrawn := p.rv.withdrawn ++ [(d, k)] } } (some (.clst d k)) 0x0116 0 2 true [d.val, k.val])
          (.report 0x0116 [d.val, k.val])

/-- A mill's residue mismatch or self-test (R247): a mismatch drains and retests it; a mill in FAULT is retired. -/
def millPolicy (p : Pkg) (m : MillId) : Pkg :=
  let g := Page.mill m
  if stateOf p g = .fault then
    (if bits (getReg p g 0x008) 1 0 = 0 then p
     else record (commitCtrl (handled p g 18) g (getReg p g 0x008 &&& 0xFFFFFFFC#32)) (some g) 0x0116 Status.failedMill 2 true [m.stack.val, m.mill.val])
  else if enabled p g && bit (block p g).evt 17 then startDrain (handled p g 17) g 0x08
  else if retestDue p g then startDrain p g 0x08
  else p

/-- A repair log that has overflowed: Caselm reads the full tables and records them (R229). -/
def stackPolicy (p : Pkg) (n : Fin 12) : Pkg :=
  if bit (block p (.memc n)).evt 26 then handled (saveRepairs p n) (.memc n) 26 else p

/-- CASELM_FAULT_POLICY. -/
def faultPolicy (p : Pkg) (t : PolicyTrigger) : Pkg :=
  if !caselmRuns p then p
  else
    match t with
    | .core c => corePolicy p c
    | .store st => storePolicy p st
    | .mill m => millPolicy p m
    | .stack n => stackPolicy p n

def execCaselmFaultPolicy (trigger : PolicyTrigger) (s : State) : Host.Outcome State Fault Refusal := act s (fun p => faultPolicy p trigger)

/-! ## Task moves (R383) -/

/-- Whether a physical core may take tasks: in service, enabled, in a cluster not withdrawn. -/
def coreTakes (p : Pkg) (c : CoreId) : Bool :=
  coreInService p c && enabled p (.core c) && !p.rv.withdrawn.contains (c.die, c.cluster)

/-- The lowest free enabled core of the same cluster, failing that of the same die. -/
def freeCore (p : Pkg) (c : CoreId) : Option CoreId :=
  let free (x : CoreId) : Bool := coreTakes p x && !p.rv.moves.any (fun kv => kv.2 == x)
  match ((List.finRange 9).map (fun j => (⟨c.die, c.cluster, j⟩ : CoreId))).find? free with
  | some x => some x
  | none => (dieCores c.die).find? free

/-- TASK_REPLACE: at a step boundary the tasks of a logical core whose place has left service go to a free core; the member entries are
rewritten on every die. With none left the lack is reported. -/
def taskReplace (p : Pkg) (core : CoreId) : Pkg :=
  match p.rv.job, placeOf p core with
  | some j, some old =>
    if !caselmRuns p || coreTakes p old || !stepOver p j then p
    else
      match freeCore p old with
      | none => emit (record p none 0x0116 Status.failedCapacity 2 false [old.die.val, old.slot]) (.report 0x300F [old.die.val, old.slot])
      | some c =>
        let q := { p with rv := { p.rv with moves := Map.put p.rv.moves core c } }
        let q := (j.sec.groups.filter (fun g => g.phase == q.rv.phase)).foldl (fun r g =>
          (g.members.filter (fun e => e.2 == core)).foldl (fun r e => wellWrite r g.die 2 e.1 (BitVec.ofNat 32 (c.die.val * 256 + c.slot))) r) q
        let q := (j.sec.tasks.filter (fun t => t.core == core && t.phase == q.rv.phase)).foldl loadTask q
        let q := (j.sec.windows.filter (fun x => x.store == .core core && x.phase == q.rv.phase)).foldl openWindow q
        record q none 0x0112 0 1 false [core.die.val, core.slot, old.slot, c.slot]
  | _, _ => p

def execTaskReplace (core : CoreId) (s : State) : Host.Outcome State Fault Refusal := act s (fun p => taskReplace p core)

/-! ## Restores from the mirror (R230) -/

/-- The local offset of a stack offset: R215 the other way. -/
def localOffset (gib : Nat) (n : Fin 12) (s : Nat) : Nat :=
  if s < gib * 2 ^ 30 then (s / 4096 * 12 + n.val) * 4096 + s % 4096
  else
    let t := s - gib * 2 ^ 30
    12 * gib * 2 ^ 30 + n.val / 3 * (3 * (64 - gib) * 2 ^ 30) + (t / 4096 * 3 + n.val % 3) * 4096 + t % 4096

/-- Runs of adjacent lines. -/
def lineRuns : List Nat → List (Nat × Nat)
  | [] => []
  | a :: r =>
    match lineRuns r with
    | (b, n) :: t => if a + 64 = b then (a, n + 64) :: t else (a, 64) :: (b, n) :: t
    | [] => [(a, 64)]

/-- The mirror entry of a local range: its partner holds the other copy. -/
def mirrorFor (p : Pkg) (a : Nat) : Option MirrorDef :=
  match p.rv.job with
  | some j => j.sec.mirrors.find? (fun m => decide (m.first * 65536 ≤ a) && decide (a < (m.first + m.granules) * 65536))
  | none => none

/-- Whether ERR_LOG holds an uncorrectable error whose event Caselm has not yet handled. -/
def ueHeld (p : Pkg) (n : Fin 12) : Bool :=
  bit (getReg p (.memc n) 0x0A0) 31 && bit (getReg p (.memc n) 0x0A0) 30 && bit (block p (.memc n)).evt evUe

/-- The stack offsets that Caselm has to restore: all lines of the row of the oldest REPAIR_LOG entry, else the line of an uncorrectable error
in ERR_LOG whose event Caselm has not yet handled, else the next page of a stack whose rail was cut (R430). -/
def reportedLines (p : Pkg) (n : Fin 12) : List Nat :=
  match (stackOf p n).log with
  | e :: _ => (List.range 128).map (stackOffset (bits e.1 27 23) (bits e.1 22 19) (bits e.1 18 5))
  | [] =>
    let v := getReg p (.memc n) 0x0A0
    if ueHeld p n then [stackOffset (bits v 29 25) (bits v 24 21) (bits v 20 7) (bits v 6 0)]
    else
      match Map.look p.rv.restoring n with
      | some i => (List.range 64).map (fun j => i * 4096 + 64 * j)
      | none => []

/-- Whether a log speaks of lines at all. -/
def logHolds (p : Pkg) (n : Fin 12) : Bool := !(reportedLines p n).isEmpty

/-- The next page of a stack whose rail was cut; after the last of its 2²⁴ pages the stack is done with. -/
def nextPage (p : Pkg) (n : Fin 12) : Pkg :=
  let i := Map.getD p.rv.restoring n 0 + 1
  { p with rv := { p.rv with restoring := if i < 2 ^ 24 then Map.put p.rv.restoring n i else Map.drop p.rv.restoring n } }

/-- The entry is done with: popped, the tables recorded, and a retirement in the non-volatile record (R229); or the error's event handled; or the
page of a stack whose rail was cut. -/
def logDone (p : Pkg) (n : Fin 12) : Pkg :=
  let x := stackOf p n
  match x.log with
  | e :: r =>
    let q := saveRepairs (setStack p n { x with log := r }) n
    record q (some (.memc n)) (if bits e.1 30 28 ≥ 3 then 19 else 18) 0 1 (decide (3 ≤ bits e.1 30 28)) [e.1.toNat, e.2.toNat]
  | [] => if ueHeld p n then handled p (.memc n) evUe else nextPage p n

/-- A range reported lost to the job owner and kept as exposed (R230, R401). -/
def reportLost (p : Pkg) (u : Nat × Nat) : Pkg := emit (addExposed p u.1 u.2) (.report 0x0114 [u.1, u.2])

/-- A restore that has ended: the copy is compared with its source, and the result is logged. A mirror copy that is itself poisoned, or that does not
agree, leaves the range lost; a move that did not end done leaves it to be restored again (R230). -/
def restoreEnded (p : Pkg) (x : Posted) (st : Status) (agrees : Bool) : Pkg :=
  let q := record { p with rv := { p.rv with posted := p.rv.posted.erase x } } none 0x0114 st 1 false [x.off, x.len, if agrees then 1 else 0]
  if st = Status.done && agrees then q
  else if st = Status.done ∨ st = Status.donePoisoned then reportLost q (x.off, x.len)
  else q

/-- The first posted descriptor of a kind that has ended, with its status. -/
def reapFirst (p : Pkg) (restore : Bool) : Option (Pkg × Posted × Status) :=
  (p.rv.posted.filter (fun x => x.restore == restore)).findSome? (fun x => (reapTag p x.bob x.tag).map (fun r => (r.1, x, r.2)))

/-- CASELM_MIRROR_RESTORE: first a restore that has ended is compared and logged; else, of the lines that the oldest log entry of a stack
reports poisoned, the next run with an unexposed mirror is posted to a bobbin; with none left the others are reported lost and the entry
is done with. -/
def mirrorRestore (p : Pkg) (n : Fin 12) (b : BobId) (agrees : Bool) : Pkg :=
  if !caselmRuns p then p
  else
    match reapFirst p true with
    | some (q, x, st) => restoreEnded q x st agrees
    | none =>
      if !logHolds p n then p
      else
        let lines := (reportedLines p n).filter (fun s => poisoned p (n.val * 2 ^ 36 + s))
        let runs := lineRuns (lines.map (localOffset (mapGib p) n))
        let open_ := runs.filter (fun u => !p.rv.posted.any (fun x => x.restore && decide (x.off ≤ u.1) && decide (u.1 < x.off + x.len)))
        match open_.find? (fun u => (mirrorFor p u.1).isSome && !isExposed p u.1) with
        | some u =>
          match mirrorFor p u.1 with
          | some m =>
            let (q, tag) := nextTag p
            match postMove q b 0 (descBytes 5 4 m.flow 1 u.2 (m.partner.toNat * 2 ^ 48 + u.1) u.1 tag) with
            | (r, .taken) => { r with rv := { r.rv with posted := r.rv.posted ++ [⟨b, tag, u.1, u.2, m.partner, true⟩] } }
            | (r, .later) => { p with rg := r.rg }
            | (r, .no _) => r
          | none => p
        | none => if open_.length < runs.length then p else logDone (open_.foldl reportLost p) n

def execCaselmMirrorRestore (stack : Fin 12) (bob : BobId) (agrees : Bool) (s : State) : Host.Outcome State Fault Refusal :=
  act s (fun p => mirrorRestore p stack bob agrees)

/-! ## Re-mirroring (R402) -/

/-- Whether a partner is reachable from a die: not fenced, and a port usable under R299 routes to it. -/
def reachable (p : Pkg) (d : Fin 4) (chip : Chip) : Bool :=
  !fenced p chip && inSlice p d chip && usable p (choosePort p (rtEntry p d chip) 2).1 2

/-- An extent without a run of granules. -/
def extentLess (first n : Nat) (e : Nat × Nat) : List (Nat × Nat) :=
  (if e.1 < first then [(e.1, min e.2 (first - e.1))] else [])
    ++ (if first + n < e.1 + e.2 then [(max e.1 (first + n), e.1 + e.2 - max e.1 (first + n))] else [])

/-- A re-mirror copy has ended: its granules leave the exposure record when it ended done. -/
def remirrorEnded (p : Pkg) (x : Posted) (st : Status) : Pkg :=
  let rest := p.rv.posted.erase x
  if st = Status.done then
    { p with rv := { p.rv with posted := rest, exposed := p.rv.exposed.flatMap (extentLess (x.off / 65536) (x.len / 65536)) } }
  else { p with rv := { p.rv with posted := rest } }

/-- Whether every context is IDLE. -/
def contextsIdle (p : Pkg) : Bool := p.ctxs.all (fun kv => kv.2.state == .idle)

/-- REMIRROR_COPY: first a copy that has ended is taken; else, at a step boundary with every context IDLE, the next exposed extent whose
partner is reachable is copied there on the range's twin flow, up to what remains of the boundary's remirror_bytes. -/
def remirrorCopy (p : Pkg) (b : BobId) : Pkg :=
  if !caselmRuns p then p
  else
    match reapFirst p false with
    | some (q, x, st) => remirrorEnded q x st
    | none =>
      match p.rv.job with
      | none => p
      | some j =>
        let left := (policyOf p 0x20 - p.rv.mirrored) / 65536
        let free (e : Nat × Nat) : Bool :=
          !p.rv.posted.any (fun x => !x.restore && decide (x.off / 65536 < e.1 + e.2) && decide (e.1 < (x.off + x.len) / 65536))
            && (match mirrorFor p (e.1 * 65536) with | some m => reachable p b.die m.partner | none => false)
        if !stepOver p j || !contextsIdle p || left = 0 then p
        else
          match p.rv.exposed.find? free with
          | none => p
          | some e =>
            match mirrorFor p (e.1 * 65536) with
            | none => p
            | some m =>
              let n := min (min (min e.2 left) (m.first + m.granules - e.1)) 65535
              let a := e.1 * 65536
              let (q, tag) := nextTag p
              match postMove q b 0 (descBytes 4 5 m.flow n 65536 a (m.partner.toNat * 2 ^ 48 + a) tag) with
              | (r, .taken) =>
                { r with rv := { r.rv with posted := r.rv.posted ++ [⟨b, tag, a, n * 65536, m.partner, false⟩], mirrored := r.rv.mirrored + n * 65536 } }
              | (r, _) => { p with rg := r.rg }

def execRemirrorCopy (bob : BobId) (s : State) : Host.Outcome State Fault Refusal := act s (fun p => remirrorCopy p bob)

end Sys2Proof.Machine
end

