-- ==== Sys2Proof/Machine/LinkRx.lean ====
section
/-! DEFINITION. Frames as a port receives them (R284): the checks in order, the link sequence, and what becomes of the frame. -/
namespace Sys2Proof.Machine
open Sys2Proof

/-- A frame that fails check 1 or 2 (R284): counted and discarded; a frame under retry is answered with nak. -/
def failCheck1 (p : Pkg) (n : Fin 32) : Pkg := bump p (.lnk n) 0x120 1
def failCheck2 (p : Pkg) (n : Fin 32) : Pkg := raise (bump p (.lnk n) 0x128 1) (.lnk n) evCmpFail
/-- The port begins to discard: nak is sent until the expected sequence is accepted (R285). -/
def startNak (p : Pkg) (n : Fin 32) : Pkg := setPort p n { portOfPkg p n with discarding := true }

/-- A frame that fails check 4 (R284): MALFORMED, malformed, Caselm's record. -/
def failCheck4 (p : Pkg) (n : Fin 32) : Pkg :=
  record (raise (bump p (.lnk n) 0x148 1) (.lnk n) 24) (some (.lnk n)) 24 0 1 false []

/-- A bell, audit or training frame (R284): checks 1, 2 and 4, then its own reader. -/
def receiveLinkKind (p : Pkg) (n : Fin 32) (b : List Byte) (frac : Nat) : Pkg :=
  let pl := (b.drop 32).take (wireLen b)
  if wireKind b = 0 ∧ leField b (wireTrailer b) 2 = 0 ∧ wireCheck4 b then bellReceive p n pl frac
  else if wireKind b = 1 ∧ leField b (wireTrailer b) 2 = 0 ∧ wireCheck4 b then auditReceive p n pl
  else if wireKind b = 2 ∧ leField b (wireTrailer b) 2 = 0 ∧ wireCheck4 b then trainingReceive p n pl
  else failCheck4 p n

/-- The sequence that a port expects is accepted: acknowledged by the next link word (R284, R285). -/
def acceptSeq (p : Pkg) (n : Fin 32) : Pkg :=
  let x := portOfPkg p n
  setPort p n { x with rxSeq := (x.rxSeq + 1) % 65536, discarding := false }

/-- The units of a frame that is acknowledged and discarded were taken by its sender and are free again (R287, R288). -/
def freeAtOnce (p : Pkg) (n : Fin 32) (b : List Byte) : Pkg :=
  let x := portOfPkg p n
  let u := (wireLen b + 48 + 63) / 64
  setPort p n { x with credits := { x.credits with got := addAt x.credits.got (wireCls b) u, freed := addAt x.credits.freed (wireCls b) u } }

/-- A frame that passes every check: units, counts, and the die router's input; a link-local frame goes to the package itself
(R284, R287, R301). Behind a router that accepts no arriving frames, or behind frames that wait so, it waits in the receive buffer (R310). -/
def acceptFrame (p : Pkg) (n : Fin 32) (b : List Byte) : Pkg :=
  let f := frameOf p.bell b
  let x := portOfPkg p n
  let q := bump (bump p (.lnk n) 0x108 1) (.lnk n) 0x118 b.length
  let cr := { x.credits with got := addAt x.credits.got f.cls (unitsOf f) }
  if !carries p (.drt (dieOfPort n)) ∨ !x.rxWait.isEmpty then
    setPort q n { x with credits := cr, rxbuf := x.rxbuf ++ [f], rxWait := x.rxWait ++ [f] }
  else if f.kind = 3 ∧ ctlLocal f.off then
    let q := setPort q n { x with credits := { cr with freed := addAt cr.freed f.cls (unitsOf f) } }
    { q with inbox := q.inbox ++ [⟨dieOfPort n, f, some n, q.count, none⟩] }
  else
    let q := setPort q n { x with credits := cr, rxbuf := x.rxbuf ++ [f] }
    let d := dieOfPort n
    tallyIn (setRouter q d { router q d with inq := (router q d).inq ++ [⟨f, some n⟩] }) (.drt d) 1

/-- A frame of a kind under retry (R284): checks 1 to 4 in order. -/
def receiveRetried (p : Pkg) (n : Fin 32) (b : List Byte) : Pkg :=
  let x := portOfPkg p n
  if !wireCheck2 b then startNak (failCheck2 p n) n
  else
    let ahead := (wireLseq b + 65536 - x.rxSeq) % 65536
    if ahead ≠ 0 then (if ahead < 32768 then startNak p n else p)
    else
      let q := acceptSeq p n
      if wireCheck4 b then acceptFrame q n b else failCheck4 (freeAtOnce q n b) n

/-- FRAME_RECEIVE (R284): the kind decides the path. A link that is DOWN or in ALIGN receives none; only training frames count
before UP and in RETRAIN. -/
def frameReceive (p : Pkg) (n : Fin 32) (b : List Byte) (uncorr : Bool) (frac : Nat) : Pkg :=
  let x := portOfPkg p n
  let early := x.training
  if !(x.lstate == .up || early) then p
  else if early && wireKind b != 2 then p
  else
    let version := if wireKind b ≤ 2 then 2 else x.version
    if uncorr || !wireCheck1 version b then (if wireKind b ≤ 2 then failCheck1 p n else startNak (failCheck1 p n) n)
    else if wireKind b ≤ 2 then (if !wireCheck2 b then failCheck2 p n else receiveLinkKind p n b frac)
    else receiveRetried p n b

def execFrameReceive (port : Fin 32) (bytes : List Byte) (uncorrectable : Bool) (frac : BitVec 4) (s : State) :
    Host.Outcome State Fault Refusal := act s (fun p => frameReceive p port bytes uncorrectable frac.toNat)

end Sys2Proof.Machine
end

