-- ==== Sys2Proof/Machine/Task.lean ====
section
/-! DEFINITION. Task control, scalar, wait, commons, bobbin and window instructions (R172–R180, R190, R192–R194). -/
namespace Sys2Proof.Machine
open Sys2Proof

/-! ## Task control and scalar instructions (R175, R176) -/

/-- Whether no opcode of R175–R194 has this code: it retires failed.opcode (R162). -/
def undefinedOp (w : BitVec 128) : Bool := (usedBits w).isNone

/-- NOP: the instruction nop; an undefined opcode issues here too and retires failed.opcode (R162). -/
def execNop (c : CtxId) (s : State) : Host.Outcome State Fault Refusal :=
  act s (fun p => runRow (fun w => opRow 0x00 w || undefinedOp w) (fun q i => retireNow q i Status.done id) p c)

/-- END: the context becomes IDLE as the instruction retires; a retirement never stops it. -/
def execEndInstr (c : CtxId) (s : State) : Host.Outcome State Fault Refusal :=
  act s (fun p => runRow (opRow 0x01) (fun q i => goIdle (retireNow q i Status.done id) i.ctx) p c)

def execPolicy (c : CtxId) (s : State) : Host.Outcome State Fault Refusal :=
  act s (fun p => runRow (opRow 0x02) (fun q i => retireNow q i Status.done (fun x => { x with policy := bits i.word 28 24 })) p c)

/-- The branch conditions. -/
def branchTaken (cond : Nat) (a b : DWord) : Bool :=
  match cond with
  | 0 => true
  | 1 => a == b
  | 2 => a != b
  | 3 => a.slt b
  | 4 => !a.slt b
  | 5 => a.ult b
  | _ => !a.ult b

/-- A taken branch goes to its target, and the next issue comes 4 cycles later (R176); 4 cycles are 3 and a third ticks. -/
def runBr (q : Pkg) (i : Inst) : Pkg :=
  if bits i.word 26 24 = 7 then retireNow q i Status.failedFormat id
  else if branchTaken (bits i.word 26 24) i.a i.b then
    retireNow q i Status.done (fun x => { x with pc := bits i.word 79 64, brUntil := q.count + 4 })
  else retireNow q i Status.done id

def execBr (c : CtxId) (s : State) : Host.Outcome State Fault Refusal := act s (fun p => runRow (opRow 0x03) runBr p c)

/-- The operations of salu, on the second operand s[rB] + imm. -/
def aluOp (op : Nat) (a b : DWord) : DWord :=
  let sh := b.toNat % 64
  match op with
  | 0 => a + b
  | 1 => a - b
  | 2 => a &&& b
  | 3 => a ||| b
  | 4 => a ^^^ b
  | 5 => a <<< sh
  | 6 => a >>> sh
  | 7 => a.sshiftRight sh
  | 8 => a * b
  | 9 => if a.slt b then a else b
  | _ => if a.slt b then b else a

def runSalu (q : Pkg) (i : Inst) : Pkg :=
  if bits i.word 27 24 > 10 then retireNow q i Status.failedFormat id
  else retireNow q i Status.done (fun x => setSreg x (slotC i.word) (aluOp (bits i.word 27 24) i.a (i.b + imm64 i.word)))

def execSalu (c : CtxId) (s : State) : Host.Outcome State Fault Refusal := act s (fun p => runRow (opRow 0x04) runSalu p c)

def execLi (c : CtxId) (s : State) : Host.Outcome State Fault Refusal :=
  act s (fun p => runRow (opRow 0x05)
    (fun q i => retireNow q i Status.done (fun x => setSreg x (slotC i.word) (imm64 i.word))) p c)

/-- The relative offset of sld, sst and wait.word: s[rA] + imm, modulo 2⁶⁴. -/
def relOff (i : Inst) : Nat := (i.a + imm64 i.word).toNat

/-- sld: what the read finds of ECC errors is the operand (R155); a poisoned line gives all ones and failed.poison. -/
def runSld (found : List EccFinding) (q : Pkg) (i : Inst) : Pkg :=
  let x := relOff i
  if x % 8 ≠ 0 then retireNow q i Status.failedFormat id
  else
    match storeCheck q i.ctx .core x 8 with
    | .error st => retireNow (countStore q i.ctx false st) i st id
    | .ok a =>
      let st := ctxStore i.ctx false
      let q := (found.filter (fun f => f.off / 64 == (a - st.base) / 64)).foldl (eccFound st) q
      retireNow q i (if localPoisoned q a 8 then Status.failedPoison else Status.done)
        (fun y => setSreg y (slotC i.word) (BitVec.ofNat 64 (leNat (readLocal q a 8))))

def execSld (c : CtxId) (found : List EccFinding) (s : State) : Host.Outcome State Fault Refusal :=
  act s (fun p => runRow (opRow 0x06) (runSld found) p c)

def runSst (q : Pkg) (i : Inst) : Pkg :=
  let x := relOff i
  if x % 8 ≠ 0 then retireNow q i Status.failedFormat id
  else
    match storeCheck q i.ctx .core x 8 with
    | .error st => retireNow (countStore q i.ctx false st) i st id
    | .ok a => retireNow (writeLocal q a (leBytes 8 i.b.toNat) noTag) i Status.done id

def execSst (c : CtxId) (s : State) : Host.Outcome State Fault Refusal := act s (fun p => runRow (opRow 0x07) runSst p c)

/-- A latch as tstat reads it (R175). -/
def Latched.word (l : Latched) : DWord := BitVec.ofNat 64 (l.bad * 2 ^ 32 + l.worst.toNat)

/-- tstat reads a latch and clears it; its own retirement then counts in the latches as any other (R172). -/
def runTstat (q : Pkg) (i : Inst) : Pkg :=
  let t := bits i.word 27 24
  if t > 8 then retireNow q i Status.failedFormat id
  else if t = 8 then
    retireNow q i Status.done (fun x => { setSreg x (slotC i.word) x.sticky.word with sticky := ⟨0, 0⟩ })
  else
    retireNow q i Status.done (fun x =>
      { setSreg x (slotC i.word) (Map.getD x.latches t ⟨0, 0⟩).word with latches := Map.put x.latches t ⟨0, 0⟩ })

def execTstat (c : CtxId) (s : State) : Host.Outcome State Fault Refusal := act s (fun p => runRow (opRow 0x08) runTstat p c)

def execRdbell (c : CtxId) (s : State) : Host.Outcome State Fault Refusal :=
  act s (fun p => runRow (opRow 0x09) (fun q i => retireNow q i Status.done (fun x => setSreg x (slotC i.word) q.bell)) p c)

/-- rdid's value (R175). -/
def idWord (p : Pkg) (c : CtxId) : DWord :=
  BitVec.ofNat 64 ((ownChip p).toNat * 2 ^ 48 + c.core.die.val * 2 ^ 40 + c.core.cluster.val * 2 ^ 32
    + c.core.core.val * 2 ^ 24 + c.ctx.val * 2 ^ 16)

def execRdid (c : CtxId) (s : State) : Host.Outcome State Fault Refusal :=
  act s (fun p => runRow (opRow 0x0A)
    (fun q i => retireNow q i Status.done (fun x => setSreg x (slotC i.word) (idWord q i.ctx))) p c)

/-! ## Waits (R177–R179) -/

/-- A wait that is not over at issue: the context is WAITING. -/
def beginWait (q : Pkg) (i : Inst) (w : WaitFor) : Pkg :=
  setCtx (updInst q i.id (fun n => { n with started := true })) i.ctx { ctxOf q i.ctx with state := .waiting, wait := some w }

/-- The target of wait.bell: s[rA] + imm modulo 2⁶⁴, raised to a round boundary when rnd is set. -/
def bellTarget (i : Inst) : DWord :=
  let t := i.a + imm64 i.word
  if bit i.word 24 then BitVec.ofNat 64 ((t.toNat + 32767) / 32768 * 32768) else t

def runWaitBell (q : Pkg) (i : Inst) : Pkg :=
  let t := bellTarget i
  if t = q.bell then retireNow q i Status.done id
  else if t.toNat < q.bell.toNat then retireNow q i Status.donePast id
  else beginWait q i (.bell t)

def execWaitBell (c : CtxId) (s : State) : Host.Outcome State Fault Refusal := act s (fun p => runRow (opRow 0x10) runWaitBell p c)

/-- WAIT_BELL_REACHED (R177). -/
def waitBellReached (p : Pkg) (c : CtxId) : Pkg :=
  match (ctxOf p c).wait with
  | some (.bell t) => if t.toNat ≤ p.bell.toNat then endWait p c Status.done else p
  | _ => p

def execWaitBellReached (c : CtxId) (s : State) : Host.Outcome State Fault Refusal := act s (fun p => waitBellReached p c)

/-- The window that a window instruction names; none for a window that the store does not have. -/
def winOfInst (i : Inst) : Option (StoreId × Nat) :=
  let st := ctxStore i.ctx (bit i.word 24)
  if bits i.word 28 25 < st.windows then some (st, bits i.word 28 25) else none

def runWaitWin (q : Pkg) (i : Inst) : Pkg :=
  match winOfInst i with
  | none => retireNow q i Status.failedFormat id
  | some (st, w) =>
    let x := winOf q st w
    if x.owner ≠ some i.ctx then retireNow q i Status.refusedOwner id
    else if x.state = .closed then retireNow q i x.status id
    else beginWait q i (.win st w)

def execWaitWin (c : CtxId) (s : State) : Host.Outcome State Fault Refusal := act s (fun p => runRow (opRow 0x11) runWaitWin p c)

/-- The condition of wait.word on the word at a store offset: failed.poison on a poisoned line, done when it holds. -/
def wordTest (p : Pkg) (st : StoreId) (off cond : Nat) (v : DWord) : Option Status :=
  let a := st.base + off
  let x : DWord := BitVec.ofNat 64 (leNat (readLocal p a 8))
  if localPoisoned p a 8 then some Status.failedPoison
  else if (match cond with | 0 => !x.ult v | 1 => x == v | _ => x != v) then some Status.done
  else none

/-- wait.word on a word that its check lets through: over at once, past its deadline, or a wait. -/
def waitWordAt (q : Pkg) (i : Inst) (st : StoreId) (off : Nat) : Pkg :=
  match wordTest q st off (bits i.word 25 24) i.b with
  | some r => retireNow q i r id
  | none =>
    if i.d ≠ 0 ∧ i.d.toNat ≤ q.bell.toNat then retireNow q i Status.failedTimeout id
    else beginWait q i (.word st off (bits i.word 25 24) i.b i.d)

def runWaitWord (q : Pkg) (i : Inst) : Pkg :=
  if bits i.word 25 24 = 3 then retireNow q i Status.failedFormat id
  else
    match storeCheck q i.ctx .core (relOff i) 8 with
    | .error st => retireNow (countStore q i.ctx false st) i st id
    | .ok a => waitWordAt q i (ctxStore i.ctx false) (a - (ctxStore i.ctx false).base)

def execWaitWord (c : CtxId) (s : State) : Host.Outcome State Fault Refusal := act s (fun p => runRow (opRow 0x12) runWaitWord p c)

/-- WAIT_WORD_RECHECK (R179): a write to the line has the comparison run again. -/
def waitWordRecheck (p : Pkg) (c : CtxId) : Pkg :=
  match (ctxOf p c).wait with
  | some (.word st off cond v _) =>
    if rangeAsleep p st off 8 then p
    else match wordTest p st off cond v with
      | some r => endWait p c r
      | none => p
  | _ => p

def execWaitWordRecheck (c : CtxId) (s : State) : Host.Outcome State Fault Refusal := act s (fun p => waitWordRecheck p c)

/-- WAIT_WORD_DEADLINE (R179): failed.timeout, unless the condition falls due in the same cycle. -/
def waitWordDeadline (p : Pkg) (c : CtxId) : Pkg :=
  match (ctxOf p c).wait with
  | some (.word st off cond v dl) =>
    if dl = 0 ∨ p.bell.toNat < dl.toNat then p
    else endWait p c (if wordTest p st off cond v = some Status.done then Status.done else Status.failedTimeout)
  | _ => p

def execWaitWordDeadline (c : CtxId) (s : State) : Host.Outcome State Fault Refusal := act s (fun p => waitWordDeadline p c)

/-! ## Commons instructions (R190, R312) -/

/-- The request of a commons instruction, before its addresses. -/
def reqOf (p : Pkg) (i : Inst) (kind off dest : Nat) : CReq :=
  { id := i.id, seq := 0, inst := i.id, ctx := i.ctx, kind := kind, stage := .budget, chip := BitVec.ofNat 16 i.a.toNat
    off := off, len := if kind = 6 then 0 else bits i.word 87 76, flow := bits i.word 75 64
    dueReq := if slotD i.word = 0 then none else some i.d, flag := kind == 4 && bit i.word 24, handle := i.x
    opc := bits i.word 27 24, wide := kind == 6 && bit i.word 28, fetch := kind == 6 && bit i.word 29
    operand := i.x, compare := i.k, dest := dest, ledger := none, copies := 0, lateCopies := 0, live := 0
    firstAt := p.bell, deadline := 0, ticket := 0 }

/-- cld and cst: the length and handle, the commons pair, the range of the own store; then the request. -/
def runCldCst (kind : Nat) (q : Pkg) (i : Inst) : Pkg :=
  let len := bits i.word 87 76
  let h := handleOf i.x
  let no (q : Pkg) (st : Status) : Pkg := retireNow q i st id
  if len < 4 ∨ 2048 < len ∨ len % 4 ≠ 0 ∨ !h.plain then no q Status.failedFormat
  else
    match pairAddr q i.ctx .commons i.b.toNat len with
    | none => no q Status.refusedBound
    | some off =>
      match storeCheck q i.ctx h.pair (h.eplane * 64) len with
      | .error st => no (countStore (if st = Status.refusedAsleep then clstAccess q (ctxStore i.ctx h.cluster) else q) i.ctx h.cluster st) st
      | .ok a => startReq (updInst (clstAccess q (ctxStore i.ctx h.cluster)) i.id (fun n => { n with started := true })) (reqOf q i kind off a)

def execCld (c : CtxId) (s : State) : Host.Outcome State Fault Refusal := act s (fun p => runRow (opRow 0xB0) (runCldCst 5) p c)
def execCst (c : CtxId) (s : State) : Host.Outcome State Fault Refusal := act s (fun p => runRow (opRow 0xB1) (runCldCst 4) p c)

/-- catom; its request names the result register in place of a destination. -/
def runCatom (q : Pkg) (i : Inst) : Pkg :=
  let n := if bit i.word 28 then 8 else 4
  if bits i.word 27 24 > 9 ∨ i.b.toNat % n ≠ 0 then retireNow q i Status.failedFormat id
  else
    match pairAddr q i.ctx .commons i.b.toNat n with
    | none => retireNow q i Status.refusedBound id
    | some off => startReq (updInst q i.id (fun m => { m with started := true })) (reqOf q i 6 off (slotC i.word))

def execCatom (c : CtxId) (s : State) : Host.Outcome State Fault Refusal := act s (fun p => runRow (opRow 0xB2) runCatom p c)

/-! ## Bobbins and windows (R192–R194) -/

/-- bob.put: n descriptors from the core store offered to a queue; a full queue holds the rest (R192). -/
def runBobPut (q : Pkg) (i : Inst) : Pkg :=
  let h := handleOf i.a
  if !h.plain || h.cluster then retireNow q i Status.failedFormat id
  else
    putRun (putBob i) (putQueue i) i.id 33
      (updInst q i.id (fun n => { n with x := BitVec.ofNat 64 (bits i.word 68 64 + 1), k := 0 }))

def execBobPut (c : CtxId) (s : State) : Host.Outcome State Fault Refusal := act s (fun p => runRow (opRow 0xA0) runBobPut p c)

/-- Whether a reserved bit of a 32-byte window specification is set (R193). -/
def specBad (b : List Byte) : Bool :=
  leField b 0 4 / 2 ^ 17 != 0 || leField b 4 4 / 2 ^ 18 % 4096 != 0 || leField b 12 4 / 2 ^ 9 % 128 != 0 || leField b 28 4 != 0

/-- The registers of a window committed with their complements from a specification, and the window opened by its issuer. -/
def winConfigure (q : Pkg) (c : CtxId) (st : StoreId) (w first : Nat) (b : List Byte) : Pkg :=
  let g := st.page
  let o := winBlock st w
  let word (k : Nat) : Word := BitVec.ofNat 32 (leField b k 4)
  let q := storePair q g o (BitVec.ofNat 32 first)
  let q := storePair q g (o + 0x08) (word 4)
  let q := storePair q g (o + 0x10) (word 8)
  let q := storePair q g (o + 0x18) (word 12)
  let q := storePair64 q g (o + 0x20) (BitVec.ofNat 64 (leField b 16 8))
  let q := storePair q g (o + 0x30) (word 24)
  let q := setReg q g (o + 0x3C) (BitVec.ofNat 32 (c.ctx.val * 256 + (match st with | .core _ => 0 | .cluster _ _ => c.core.core.val * 65536)))
  setWin q st w { winOf q st w with state := .opened, owner := some c, recv := 0 }

/-- win.open: busy, then the bound, then reserved bits. -/
def runWinOpen (q : Pkg) (i : Inst) : Pkg :=
  let h := handleOf i.a
  let no (q : Pkg) (st : Status) : Pkg := retireNow q i st id
  match winOfInst i with
  | none => no q Status.failedFormat
  | some (st, w) =>
    if !h.plain || h.cluster then no q Status.failedFormat
    else if (winOf q st w).state ≠ .closed then no q Status.refusedBusy
    else
      match storeCheck q i.ctx .core (h.eplane * 64) 32 with
      | .error e => no (countStore q i.ctx false e) e
      | .ok a =>
        let b := readLocal q a 32
        let k : Pair := if bit i.word 24 then .cluster else .core
        let first := leField b 0 4
        let lines := leField b 4 4 % 2 ^ 18
        match pairAddr q i.ctx k (first * 64) (lines * 64) with
        | none => no q Status.refusedBound
        | some t =>
          if specBad b then no q Status.failedFormat
          else if st.size < t - st.base + lines * 64 then no (countRange q i.ctx Status.refusedUnmapped) Status.refusedUnmapped
          else retireNow (winConfigure q i.ctx st w ((t - st.base) / 64) b) i Status.done id

def execWinOpenInstr (c : CtxId) (s : State) : Host.Outcome State Fault Refusal := act s (fun p => runRow (opRow 0xA1) runWinOpen p c)

/-- win.close: the owner's close of an OPEN window, or a wait for a CLOSING one (R194). -/
def runWinClose (q : Pkg) (i : Inst) : Pkg :=
  match winOfInst i with
  | none => retireNow q i Status.failedFormat id
  | some (st, w) =>
    let x := winOf q st w
    if x.owner ≠ some i.ctx then retireNow q i Status.refusedOwner id
    else if x.state = .closed then retireNow q i Status.refusedBusy id
    else closeWin (updInst q i.id (fun n => { n with started := true })) st w Status.doneClosed

def execWinCloseInstr (c : CtxId) (s : State) : Host.Outcome State Fault Refusal := act s (fun p => runRow (opRow 0xA2) runWinClose p c)

end Sys2Proof.Machine
end

