-- ==== Sys2Proof/Machine/Dispatch.lean ====
section
/-! DEFINITION. The arms: one per constructor of Instr, each one direct call of the meaning, or a rejection by name. -/
namespace Sys2Proof.Machine
open Sys2Proof

def exec (i : Instr) (s : State) : Host.Outcome State Fault Refusal :=
  match i with
  | .registerWrite agent addr width value => Sys2Proof.Machine.execRegisterWrite agent addr width value s
  | .pairedStage agent page off value => Sys2Proof.Machine.execPairedStage agent page off value s
  | .pairedCommit agent page off value => Sys2Proof.Machine.execPairedCommit agent page off value s
  | .pairedPendingExpiry page off => Sys2Proof.Machine.execPairedPendingExpiry page off s
  | .write64HiCommit agent page off value => Sys2Proof.Machine.execWrite64HiCommit agent page off value s
  | .tallySnapshotRead agent page => Sys2Proof.Machine.execTallySnapshotRead agent page s
  | .latchLoRead agent page off => Sys2Proof.Machine.execLatchLoRead agent page off s
  | .latchHiRead agent page off => Sys2Proof.Machine.execLatchHiRead agent page off s
  | .evtStatusClear agent page value arising => Sys2Proof.Machine.execEvtStatusClear agent page value arising s
  | .evtForceWrite agent page value => Sys2Proof.Machine.execEvtForceWrite agent page value s
  | .ctrlEnable agent page blockCtrl timeout => Sys2Proof.Machine.execCtrlEnable agent page blockCtrl timeout s
  | .ctrlDisable agent page blockCtrl timeout => Sys2Proof.Machine.execCtrlDisable agent page blockCtrl timeout s
  | .selfCheckDone page pass => Sys2Proof.Machine.execSelfCheckDone page pass s
  | .drainTimeout page => Sys2Proof.Machine.execDrainTimeout page s
  | .drainComplete page => Sys2Proof.Machine.execDrainComplete page s
  | .roundBoundary => Sys2Proof.Machine.execRoundBoundary s
  | .bellFrameReceive port payload frac => Sys2Proof.Machine.execBellFrameReceive port payload frac s
  | .roundJudgement => Sys2Proof.Machine.execRoundJudgement s
  | .ppsEdge tenmOk => Sys2Proof.Machine.execPpsEdge tenmOk s
  | .refLost pps tenm => Sys2Proof.Machine.execRefLost pps tenm s
  | .prkTblDataWrite port value => Sys2Proof.Machine.execPrkTblDataWrite port value s
  | .prkSeal port => Sys2Proof.Machine.execPrkSeal port s
  | .prkUnseal port => Sys2Proof.Machine.execPrkUnseal port s
  | .prkSwapArm die round mask => Sys2Proof.Machine.execPrkSwapArm die round mask s
  | .prkSwapCancel die round => Sys2Proof.Machine.execPrkSwapCancel die round s
  | .prickingSwap die => Sys2Proof.Machine.execPrickingSwap die s
  | .flowDataCommit die value => Sys2Proof.Machine.execFlowDataCommit die value s
  | .flowData1Read agent die => Sys2Proof.Machine.execFlowData1Read agent die s
  | .tableDataReadInc agent page => Sys2Proof.Machine.execTableDataReadInc agent page s
  | .budgetWaitRecheck die => Sys2Proof.Machine.execBudgetWaitRecheck die s
  | .lateReportReceive => Sys2Proof.Machine.execLateReportReceive s
  | .engineInstrStart core => Sys2Proof.Machine.execEngineInstrStart core s
  | .engineRowDrain core residue => Sys2Proof.Machine.execEngineRowDrain core residue s
  | .enginePassBoundary core => Sys2Proof.Machine.execEnginePassBoundary core s
  | .throttlePauseEnd core => Sys2Proof.Machine.execThrottlePauseEnd core s
  | .engineRetire core => Sys2Proof.Machine.execEngineRetire core s
  | .engineClockGate core => Sys2Proof.Machine.execEngineClockGate core s
  | .engineBistEnd core result => Sys2Proof.Machine.execEngineBistEnd core result s
  | .ctxStart c => Sys2Proof.Machine.execCtxStart c s
  | .ctxStop c => Sys2Proof.Machine.execCtxStop c s
  | .ctxClear c => Sys2Proof.Machine.execCtxClear c s
  | .ctxStopComplete c => Sys2Proof.Machine.execCtxStopComplete c s
  | .instrRetire c k => Sys2Proof.Machine.execInstrRetire c k s
  | .baseBoundCommit c pair value => Sys2Proof.Machine.execBaseBoundCommit c pair value s
  | .ilvCommit store value => Sys2Proof.Machine.execIlvCommit store value s
  | .ilvFillEnd store => Sys2Proof.Machine.execIlvFillEnd store s
  | .winOpen store w owner ownerCore => Sys2Proof.Machine.execWinOpen store w owner ownerCore s
  | .winClose store w => Sys2Proof.Machine.execWinClose store w s
  | .windowExpiry store w => Sys2Proof.Machine.execWindowExpiry store w s
  | .windowClosed store w => Sys2Proof.Machine.execWindowClosed store w s
  | .bankGateCommit store value => Sys2Proof.Machine.execBankGateCommit store value s
  | .bankSleep store bank => Sys2Proof.Machine.execBankSleep store bank s
  | .gateTimeout store bank => Sys2Proof.Machine.execGateTimeout store bank s
  | .bankWakeFillEnd store bank => Sys2Proof.Machine.execBankWakeFillEnd store bank s
  | .storePatrolRead store found => Sys2Proof.Machine.execStorePatrolRead store found s
  | .nop c => Sys2Proof.Machine.execNop c s
  | .endInstr c => Sys2Proof.Machine.execEndInstr c s
  | .policy c => Sys2Proof.Machine.execPolicy c s
  | .br c => Sys2Proof.Machine.execBr c s
  | .salu c => Sys2Proof.Machine.execSalu c s
  | .li c => Sys2Proof.Machine.execLi c s
  | .sld c found => Sys2Proof.Machine.execSld c found s
  | .sst c => Sys2Proof.Machine.execSst c s
  | .tstat c => Sys2Proof.Machine.execTstat c s
  | .rdbell c => Sys2Proof.Machine.execRdbell c s
  | .rdid c => Sys2Proof.Machine.execRdid c s
  | .waitBell c => Sys2Proof.Machine.execWaitBell c s
  | .waitBellReached c => Sys2Proof.Machine.execWaitBellReached c s
  | .waitWin c => Sys2Proof.Machine.execWaitWin c s
  | .waitWord c => Sys2Proof.Machine.execWaitWord c s
  | .waitWordRecheck c => Sys2Proof.Machine.execWaitWordRecheck c s
  | .waitWordDeadline c => Sys2Proof.Machine.execWaitWordDeadline c s
  | .mma c => Sys2Proof.Machine.execMma c s
  | .mmaSp c => Sys2Proof.Machine.execMmaSp c s
  | .mmaAr c => Sys2Proof.Machine.execMmaAr c s
  | .mmaRs c => Sys2Proof.Machine.execMmaRs c s
  | .agMma c => Sys2Proof.Machine.execAgMma c s
  | .dispMma c => Sys2Proof.Machine.execDispMma c s
  | .mmaComb c => Sys2Proof.Machine.execMmaComb c s
  | .conv c => Sys2Proof.Machine.execConv c s
  | .ew c => Sys2Proof.Machine.execEw c s
  | .cmp c => Sys2Proof.Machine.execCmp c s
  | .cmpAl c => Sys2Proof.Machine.execCmpAl c s
  | .vadd c => Sys2Proof.Machine.execVadd c s
  | .vsub c => Sys2Proof.Machine.execVsub c s
  | .vmul c => Sys2Proof.Machine.execVmul c s
  | .vfma c => Sys2Proof.Machine.execVfma c s
  | .vmin c => Sys2Proof.Machine.execVmin c s
  | .vmax c => Sys2Proof.Machine.execVmax c s
  | .vrcp c => Sys2Proof.Machine.execVrcp c s
  | .vrsqrt c => Sys2Proof.Machine.execVrsqrt c s
  | .vexp c => Sys2Proof.Machine.execVexp c s
  | .vsum c => Sys2Proof.Machine.execVsum c s
  | .vrmax c => Sys2Proof.Machine.execVrmax c s
  | .vrmin c => Sys2Proof.Machine.execVrmin c s
  | .vargmax c => Sys2Proof.Machine.execVargmax c s
  | .vcvt c => Sys2Proof.Machine.execVcvt c s
  | .vbcast c => Sys2Proof.Machine.execVbcast c s
  | .vmerge c => Sys2Proof.Machine.execVmerge c s
  | .mov c => Sys2Proof.Machine.execMov c s
  | .fill c => Sys2Proof.Machine.execFill c s
  | .cld c => Sys2Proof.Machine.execCld c s
  | .cst c => Sys2Proof.Machine.execCst c s
  | .catom c => Sys2Proof.Machine.execCatom c s
  | .mill c => Sys2Proof.Machine.execMill c s
  | .bobPut c => Sys2Proof.Machine.execBobPut c s
  | .winOpenInstr c => Sys2Proof.Machine.execWinOpenInstr c s
  | .winCloseInstr c => Sys2Proof.Machine.execWinCloseInstr c s
  | .postCmdGo agent bob queue => Sys2Proof.Machine.execPostCmdGo agent bob queue s
  | .descriptorStart bob => Sys2Proof.Machine.execDescriptorStart bob s
  | .moveFrameAckReceive die => Sys2Proof.Machine.execMoveFrameAckReceive die s
  | .ackDeadline bob seq => Sys2Proof.Machine.execAckDeadline bob seq s
  | .descriptorEnd bob queue => Sys2Proof.Machine.execDescriptorEnd bob queue s
  | .doneHiRead agent bob => Sys2Proof.Machine.execDoneHiRead agent bob s
  | .landFullClear gateway value => Sys2Proof.Machine.execLandFullClear gateway value s
  | .mapCommit value => Sys2Proof.Machine.execMapCommit value s
  | .lineRequest stack off data tagged mill found => Sys2Proof.Machine.execLineRequest stack off data tagged mill found s
  | .repairCopyEnd stack found readBackOk => Sys2Proof.Machine.execRepairCopyEnd stack found readBackOk s
  | .patrolScrub stack found => Sys2Proof.Machine.execPatrolScrub stack found s
  | .refreshInterval stack => Sys2Proof.Machine.execRefreshInterval stack s
  | .stackTempSample stack temps => Sys2Proof.Machine.execStackTempSample stack temps s
  | .compatDutyStep stack => Sys2Proof.Machine.execCompatDutyStep stack s
  | .repairLogPop agent stack => Sys2Proof.Machine.execRepairLogPop agent stack s
  | .memcTblWrite stack value => Sys2Proof.Machine.execMemcTblWrite stack value s
  | .millCommandArrive mill core => Sys2Proof.Machine.execMillCommandArrive mill core s
  | .millAttend mill found => Sys2Proof.Machine.execMillAttend mill found s
  | .millTest mill found => Sys2Proof.Machine.execMillTest mill found s
  | .millPageDone mill found residue => Sys2Proof.Machine.execMillPageDone mill found residue s
  | .millCommandEnd mill => Sys2Proof.Machine.execMillCommandEnd mill s
  | .selRelock se ring => Sys2Proof.Machine.execSelRelock se ring s
  | .selRecal se => Sys2Proof.Machine.execSelRecal se s
  | .selWake port => Sys2Proof.Machine.execSelWake port s
  | .heaterFfUpdate se sensor0 sensor1 badEntries => Sys2Proof.Machine.execHeaterFfUpdate se sensor0 sensor1 badEntries s
  | .lockLoopUpdate se ring trim => Sys2Proof.Machine.execLockLoopUpdate se ring trim s
  | .trimSaturation se ring => Sys2Proof.Machine.execTrimSaturation se ring s
  | .driftQueue se ring => Sys2Proof.Machine.execDriftQueue se ring s
  | .directedSweepEnd se ring found => Sys2Proof.Machine.execDirectedSweepEnd se ring found s
  | .sweepRetry se ring => Sys2Proof.Machine.execSweepRetry se ring s
  | .laneMarkerReceive port lane marker => Sys2Proof.Machine.execLaneMarkerReceive port lane marker s
  | .pilotWrongLock se ring pilot => Sys2Proof.Machine.execPilotWrongLock se ring pilot s
  | .markerMissing port lane => Sys2Proof.Machine.execMarkerMissing port lane s
  | .recalInterval se => Sys2Proof.Machine.execRecalInterval se s
  | .heldRecalEnd se ring centre => Sys2Proof.Machine.execHeldRecalEnd se ring centre s
  | .trackingRecalEnd se ring mean => Sys2Proof.Machine.execTrackingRecalEnd se ring mean s
  | .laserStatusWithdrawn se => Sys2Proof.Machine.execLaserStatusWithdrawn se s
  | .laserTapLow se tapPower => Sys2Proof.Machine.execLaserTapLow se tapPower s
  | .laserLineDark se lane => Sys2Proof.Machine.execLaserLineDark se lane s
  | .rxLightLoss port => Sys2Proof.Machine.execRxLightLoss port s
  | .wakeBurstSend port => Sys2Proof.Machine.execWakeBurstSend port s
  | .wakeBurstDetect port => Sys2Proof.Machine.execWakeBurstDetect port s
  | .steadyLightDetect port => Sys2Proof.Machine.execSteadyLightDetect port s
  | .wakingTimeout port => Sys2Proof.Machine.execWakingTimeout port s
  | .selTblWrite se value => Sys2Proof.Machine.execSelTblWrite se value s
  | .linkWordSend port => Sys2Proof.Machine.execLinkWordSend port s
  | .linkWordReceive port bytes => Sys2Proof.Machine.execLinkWordReceive port bytes s
  | .fecLimitExceeded port lane corrected uncorrectable => Sys2Proof.Machine.execFecLimitExceeded port lane corrected uncorrectable s
  | .alignComplete port => Sys2Proof.Machine.execAlignComplete port s
  | .alignTimeout port => Sys2Proof.Machine.execAlignTimeout port s
  | .trainingFrameSend port => Sys2Proof.Machine.execTrainingFrameSend port s
  | .trainingFrameReceive port payload => Sys2Proof.Machine.execTrainingFrameReceive port payload s
  | .negotiateTimeout port => Sys2Proof.Machine.execNegotiateTimeout port s
  | .lnkRetrain port => Sys2Proof.Machine.execLnkRetrain port s
  | .frameTransmit port => Sys2Proof.Machine.execFrameTransmit port s
  | .frameReceive port bytes uncorrectable frac => Sys2Proof.Machine.execFrameReceive port bytes uncorrectable frac s
  | .retryRestart port => Sys2Proof.Machine.execRetryRestart port s
  | .ackStall port => Sys2Proof.Machine.execAckStall port s
  | .retrainLimitExpiry port => Sys2Proof.Machine.execRetrainLimitExpiry port s
  | .auditFrameReceive port payload => Sys2Proof.Machine.execAuditFrameReceive port payload s
  | .txMapUpdate port => Sys2Proof.Machine.execTxMapUpdate port s
  | .chipCommit value => Sys2Proof.Machine.execChipCommit value s
  | .sliceCommit die tag => Sys2Proof.Machine.execSliceCommit die tag s
  | .portEnCommit die mask => Sys2Proof.Machine.execPortEnCommit die mask s
  | .rtDataCommit die value => Sys2Proof.Machine.execRtDataCommit die value s
  | .frameRoute die => Sys2Proof.Machine.execFrameRoute die s
  | .routeRevert port => Sys2Proof.Machine.execRouteRevert port s
  | .creditHoldDrop port => Sys2Proof.Machine.execCreditHoldDrop port s
  | .identityFrameSend port => Sys2Proof.Machine.execIdentityFrameSend port s
  | .identityFrameReceive port => Sys2Proof.Machine.execIdentityFrameReceive port s
  | .commonsWriteReceive die => Sys2Proof.Machine.execCommonsWriteReceive die s
  | .commonsReadReceive die => Sys2Proof.Machine.execCommonsReadReceive die s
  | .commonsAtomicReceive die => Sys2Proof.Machine.execCommonsAtomicReceive die s
  | .twinAtomicReceive die => Sys2Proof.Machine.execTwinAtomicReceive die s
  | .twinAckReceive die => Sys2Proof.Machine.execTwinAckReceive die s
  | .commonsResponseReceive die => Sys2Proof.Machine.execCommonsResponseReceive die s
  | .replyDeadline seq => Sys2Proof.Machine.execReplyDeadline seq s
  | .atomWindowRelease die chip => Sys2Proof.Machine.execAtomWindowRelease die chip s
  | .atomLimitExpiry id => Sys2Proof.Machine.execAtomLimitExpiry id s
  | .flagStoreRelease id => Sys2Proof.Machine.execFlagStoreRelease id s
  | .fenceNoticeReceive port => Sys2Proof.Machine.execFenceNoticeReceive port s
  | .fenceReannounce => Sys2Proof.Machine.execFenceReannounce s
  | .fenceReqWrite value => Sys2Proof.Machine.execFenceReqWrite value s
  | .samplerPassSet chip => Sys2Proof.Machine.execSamplerPassSet chip s
  | .samplerPassClear chip => Sys2Proof.Machine.execSamplerPassClear chip s
  | .lqCmdGo die sourceDie => Sys2Proof.Machine.execLqCmdGo die sourceDie s
  | .cmnTblWrite inst value => Sys2Proof.Machine.execCmnTblWrite inst value s
  | .grantReceive die => Sys2Proof.Machine.execGrantReceive die s
  | .chunkSend die chunk => Sys2Proof.Machine.execChunkSend die chunk s
  | .chunkDataReceive die => Sys2Proof.Machine.execChunkDataReceive die s
  | .chunkCloseReceive die => Sys2Proof.Machine.execChunkCloseReceive die s
  | .chunkCloseResponse die => Sys2Proof.Machine.execChunkCloseResponse die s
  | .chunkAckDeadline die seq => Sys2Proof.Machine.execChunkAckDeadline die seq s
  | .chunkFoldDone die chunk => Sys2Proof.Machine.execChunkFoldDone die chunk s
  | .stageDeadline die chunk => Sys2Proof.Machine.execStageDeadline die chunk s
  | .countReceive die => Sys2Proof.Machine.execCountReceive die s
  | .digestReceive die => Sys2Proof.Machine.execDigestReceive die s
  | .verdictReceive die => Sys2Proof.Machine.execVerdictReceive die s
  | .earlyRelease die => Sys2Proof.Machine.execEarlyRelease die s
  | .tallyDeadline die => Sys2Proof.Machine.execTallyDeadline die s
  | .wellTblWrite die value => Sys2Proof.Machine.execWellTblWrite die value s
  | .phaseChange src => Sys2Proof.Machine.execPhaseChange src s
  | .phaseStopOld => Sys2Proof.Machine.execPhaseStopOld s
  | .phaseReshardPost => Sys2Proof.Machine.execPhaseReshardPost s
  | .phaseReady src => Sys2Proof.Machine.execPhaseReady src s
  | .phaseVerdict src => Sys2Proof.Machine.execPhaseVerdict src s
  | .phaseVerdictMissing => Sys2Proof.Machine.execPhaseVerdictMissing s
  | .phaseStartNew => Sys2Proof.Machine.execPhaseStartNew s
  | .reshardRetry => Sys2Proof.Machine.execReshardRetry s
  | .identify src => Sys2Proof.Machine.execIdentify src s
  | .telemetry src => Sys2Proof.Machine.execTelemetry src s
  | .eventRead src => Sys2Proof.Machine.execEventRead src s
  | .powerCmd src => Sys2Proof.Machine.execPowerCmd src s
  | .imageBegin src => Sys2Proof.Machine.execImageBegin src s
  | .imageData src => Sys2Proof.Machine.execImageData src s
  | .imageCommit src checks failures => Sys2Proof.Machine.execImageCommit src checks failures s
  | .imageInfo src => Sys2Proof.Machine.execImageInfo src s
  | .attest src => Sys2Proof.Machine.execAttest src s
  | .attestRead src => Sys2Proof.Machine.execAttestRead src s
  | .debugChallenge src => Sys2Proof.Machine.execDebugChallenge src s
  | .unlockData src => Sys2Proof.Machine.execUnlockData src s
  | .unlockCommit src checks => Sys2Proof.Machine.execUnlockCommit src checks s
  | .certRead src => Sys2Proof.Machine.execCertRead src s
  | .manifestBegin src => Sys2Proof.Machine.execManifestBegin src s
  | .manifestData src => Sys2Proof.Machine.execManifestData src s
  | .manifestCommit src sections ruleFails => Sys2Proof.Machine.execManifestCommit src sections ruleFails s
  | .manifestWithdraw src => Sys2Proof.Machine.execManifestWithdraw src s
  | .startCmd src => Sys2Proof.Machine.execStartCmd src s
  | .loadCmd src => Sys2Proof.Machine.execLoadCmd src s
  | .readCmd src => Sys2Proof.Machine.execReadCmd src s
  | .requestCmd src => Sys2Proof.Machine.execRequestCmd src s
  | .resultAck src => Sys2Proof.Machine.execResultAck src s
  | .ledgerQuery src => Sys2Proof.Machine.execLedgerQuery src s
  | .fenceCmd src => Sys2Proof.Machine.execFenceCmd src s
  | .maintReset src => Sys2Proof.Machine.execMaintReset src s
  | .samplerBegin src => Sys2Proof.Machine.execSamplerBegin src s
  | .samplerState src => Sys2Proof.Machine.execSamplerState src s
  | .samplerRecord src => Sys2Proof.Machine.execSamplerRecord src s
  | .samplerDigest src digest spot => Sys2Proof.Machine.execSamplerDigest src digest spot s
  | .samplerEnd src => Sys2Proof.Machine.execSamplerEnd src s
  | .samplerReport src => Sys2Proof.Machine.execSamplerReport src s
  | .samplerPromote src => Sys2Proof.Machine.execSamplerPromote src s
  | .samplerAdmit src => Sys2Proof.Machine.execSamplerAdmit src s
  | .samplerAdmitRound => Sys2Proof.Machine.execSamplerAdmitRound s
  | .commandBadHeader src => Sys2Proof.Machine.execCommandBadHeader src s
  | .cmdFragmentTimeout => Sys2Proof.Machine.execCmdFragmentTimeout s
  | .replyCacheExpiry => Sys2Proof.Machine.execReplyCacheExpiry s
  | .watchdogRestart => Sys2Proof.Machine.execWatchdogRestart s
  | .watchdogExpiry => Sys2Proof.Machine.execWatchdogExpiry s
  | .resultPoll entries => Sys2Proof.Machine.execResultPoll entries s
  | .resultResend => Sys2Proof.Machine.execResultResend s
  | .telemetrySnapshot failed => Sys2Proof.Machine.execTelemetrySnapshot failed s
  | .nvRecordWrite ok retryOk => Sys2Proof.Machine.execNvRecordWrite ok retryOk s
  | .caselmFaultPolicy trigger => Sys2Proof.Machine.execCaselmFaultPolicy trigger s
  | .stepStart ends copied => Sys2Proof.Machine.execStepStart ends copied s
  | .taskReplace core => Sys2Proof.Machine.execTaskReplace core s
  | .caselmMirrorRestore stack bob agrees => Sys2Proof.Machine.execCaselmMirrorRestore stack bob agrees s
  | .remirrorCopy bob => Sys2Proof.Machine.execRemirrorCopy bob s
  | .pwrReqCommit value => Sys2Proof.Machine.execPwrReqCommit value s
  | .powerTransitionStart => Sys2Proof.Machine.execPowerTransitionStart s
  | .domainCut domain readBackOk => Sys2Proof.Machine.execDomainCut domain readBackOk s
  | .powerStateReached => Sys2Proof.Machine.execPowerStateReached s
  | .p1AutoEnter die => Sys2Proof.Machine.execP1AutoEnter die s
  | .wakeDetect source => Sys2Proof.Machine.execWakeDetect source s
  | .domainRestore domain slotOk => Sys2Proof.Machine.execDomainRestore domain slotOk s
  | .sensorSample inst readings => Sys2Proof.Machine.execSensorSample inst readings s
  | .tripComputeDie die => Sys2Proof.Machine.execTripComputeDie die s
  | .tripHub => Sys2Proof.Machine.execTripHub s
  | .tripStack stack => Sys2Proof.Machine.execTripStack stack s
  | .tripStackRailCut stack => Sys2Proof.Machine.execTripStackRailCut stack s
  | .tripSelvage se => Sys2Proof.Machine.execTripSelvage se s
  | .tripCooled inst slotOk => Sys2Proof.Machine.execTripCooled inst slotOk s
  | .stackTripClear stack => Sys2Proof.Machine.execStackTripClear stack s
  | .resetRelease mgmtSel addr memoryOk => Sys2Proof.Machine.execResetRelease mgmtSel addr memoryOk s
  | .recoveryRomStart checks readable octal => Sys2Proof.Machine.execRecoveryRomStart checks readable octal s
  | .caselmHandover reload bad => Sys2Proof.Machine.execCaselmHandover reload bad s
  | .aliasRsaReady => Sys2Proof.Machine.execAliasRsaReady s
  | .unlockExpiry => Sys2Proof.Machine.execUnlockExpiry s
  | .stitchMessageReceive link header => Sys2Proof.Machine.execStitchMessageReceive link header s
  | .moduleOut link m failedTraining replays => Sys2Proof.Machine.execModuleOut link m failedTraining replays s
  | .guestIdentityRecord site bytes => Sys2Proof.Machine.execGuestIdentityRecord site bytes s
  | .guestIdTimeout site => Sys2Proof.Machine.execGuestIdTimeout site s
  | .guestAccess site id off op => Sys2Proof.Machine.execGuestAccess site id off op s
  | .guestRateRelease site => Sys2Proof.Machine.execGuestRateRelease site s
  | .outboundGuestAccess agent site id off op answer => Sys2Proof.Machine.execOutboundGuestAccess agent site id off op answer s
  | .outboundReplyTimeout site id => Sys2Proof.Machine.execOutboundReplyTimeout site id s
  | .snoopTimeout site => Sys2Proof.Machine.execSnoopTimeout site s
  | .thimWinOpen site w => Sys2Proof.Machine.execThimWinOpen site w s
  | .thimWinClose site w => Sys2Proof.Machine.execThimWinClose site w s
  | .mbDoorbellSet agent site slot => Sys2Proof.Machine.execMbDoorbellSet agent site slot s
  | .mbDoorbellClear agent site slot => Sys2Proof.Machine.execMbDoorbellClear agent site slot s
  | .guestLinkDown site => Sys2Proof.Machine.execGuestLinkDown site s
  | .guestAlert site => Sys2Proof.Machine.execGuestAlert site s
  | .rstNAssert => Sys2Proof.Machine.execRstNAssert s
  | .powerGoodAccept domain slotOk => Sys2Proof.Machine.execPowerGoodAccept domain slotOk s
  | .railFault domain => Sys2Proof.Machine.execRailFault domain s
  | .powerGoodFall rail => Sys2Proof.Machine.execPowerGoodFall rail s
  | .railEnableStep => Sys2Proof.Machine.execRailEnableStep s
  | .railReraise domain => Sys2Proof.Machine.execRailReraise domain s
  | .refclkLoss => Sys2Proof.Machine.execRefclkLoss s
  | .debugIdent request => Sys2Proof.Machine.execDebugIdent request s
  | .debugRead32 request done => Sys2Proof.Machine.execDebugRead32 request done s
  | .debugWrite32 request done => Sys2Proof.Machine.execDebugWrite32 request done s
  | .debugReadLine request done => Sys2Proof.Machine.execDebugReadLine request done s
  | .debugAccessTimeout => Sys2Proof.Machine.execDebugAccessTimeout s
  | .debugFramingReset => Sys2Proof.Machine.execDebugFramingReset s
  | .dmiAccess agent addr write => Sys2Proof.Machine.execDmiAccess agent addr write s
  | .seqHalt agent => Sys2Proof.Machine.execSeqHalt agent s
  | .seqResume agent => Sys2Proof.Machine.execSeqResume agent s
  | .seqStep agent => Sys2Proof.Machine.execSeqStep agent s
  | .jtagIdcode => Sys2Proof.Machine.execJtagIdcode s
  | .jtagSamplePreload levels load => Sys2Proof.Machine.execJtagSamplePreload levels load s
  | .jtagExtest load => Sys2Proof.Machine.execJtagExtest load s
  | .jtagClamp => Sys2Proof.Machine.execJtagClamp s
  | .jtagHighz => Sys2Proof.Machine.execJtagHighz s
  | .jtagPrivate code => Sys2Proof.Machine.execJtagPrivate code s
  | .jtagBypass => Sys2Proof.Machine.execJtagBypass s
  | .mrgGo agent => Sys2Proof.Machine.execMrgGo agent s
  | .mrgAbort agent => Sys2Proof.Machine.execMrgAbort agent s
  | .marginPointDone failed wrongLock => Sys2Proof.Machine.execMarginPointDone failed wrongLock s
  | .marginRunEnd written => Sys2Proof.Machine.execMarginRunEnd written s
  | .referenceRestored => Sys2Proof.Machine.execReferenceRestored s
  | .laserStatusAsserted se tapPower => Sys2Proof.Machine.execLaserStatusAsserted se tapPower s
  | .moduleIn link m => Sys2Proof.Machine.execModuleIn link m s
  | .millClockGate mill => Sys2Proof.Machine.execMillClockGate mill s
  | .p2ExitStart => Sys2Proof.Machine.execP2ExitStart s

end Sys2Proof.Machine
end

