-- ==== Sys2Proof/Machine/Tick.lean ====
section
/-! DEFINITION. The passing of one tick, which is what a step does when no command waits (log entry 8). -/
namespace Sys2Proof.Machine
open Sys2Proof

/-- One tick of the local reference: the local count rises by one; bell time rises by one, and while a correction is
owed by at most one tick more or less in every 2,048 (R50, R54). -/
def tick (p : Pkg) : Pkg :=
  let u := p.bellU
  if u.slew ≠ 0 ∧ p.count + 1 ≥ u.lastSlew + 2048 then
    { p with
      count := p.count + 1
      bell := if u.slew > 0 then p.bell + 2 else p.bell
      bellU := { u with slew := if u.slew > 0 then u.slew - 1 else u.slew + 1, lastSlew := p.count + 1 } }
  else { p with count := p.count + 1, bell := p.bell + 1 }

end Sys2Proof.Machine
end

