-- ==== Sys2Proof/Safety.lean ====
section
/-! DEFINITION. What a safe run is, and the words in which statements say what a command does: that it completes, and which parts of
the package it leaves as they were. -/
namespace Sys2Proof.Machine
open Sys2Proof

/-- A step that answers a next state. -/
def Runs (s t : State) : Prop := step s = .next t

/-- A command completes: exec answers a next state in which the waiting commands are as they were and the package has a property. -/
def Completes (c : Instr) (s : State) (P : Pkg → Prop) : Prop := ∃ t, exec c s = .next t ∧ t.pending = s.pending ∧ P t.pkg

/-- The parts of the package: every field, and the register state by its own fields. -/
inductive Part where
  | bell | count | bellU | ports | routers | inbox | budget | mem
  | poison | ctxs | insts | stores | wins | engines | creqs | atomWins
  | ledgers | fences | quarantined | bobs | wells | spares | retired | nextSeq
  | nextId | records | nvPending | nvRecords | boots | serving | pw | stackUnits
  | mills | sels | selPorts | rv | boot | pins | stitches | thims
  | dbg | lost | out | free | blocks | regs | staged | latches
  | snaps | drains | undo | tables | alerts
  deriving DecidableEq, Repr

/-- A part is as it was. The pins FAULT_N and THERM_N are functions of the rest and no part of their own. -/
def Part.same (x : Part) (p q : Pkg) : Prop :=
  match x with
  | .bell => q.bell = p.bell
  | .count => q.count = p.count
  | .bellU => q.bellU = p.bellU
  | .ports => q.ports = p.ports
  | .routers => q.routers = p.routers
  | .inbox => q.inbox = p.inbox
  | .budget => q.budget = p.budget
  | .mem => q.mem = p.mem
  | .poison => q.poison = p.poison
  | .ctxs => q.ctxs = p.ctxs
  | .insts => q.insts = p.insts
  | .stores => q.stores = p.stores
  | .wins => q.wins = p.wins
  | .engines => q.engines = p.engines
  | .creqs => q.creqs = p.creqs
  | .atomWins => q.atomWins = p.atomWins
  | .ledgers => q.ledgers = p.ledgers
  | .fences => q.fences = p.fences
  | .quarantined => q.quarantined = p.quarantined
  | .bobs => q.bobs = p.bobs
  | .wells => q.wells = p.wells
  | .spares => q.spares = p.spares
  | .retired => q.retired = p.retired
  | .nextSeq => q.nextSeq = p.nextSeq
  | .nextId => q.nextId = p.nextId
  | .records => q.records = p.records
  | .nvPending => q.nvPending = p.nvPending
  | .nvRecords => q.nvRecords = p.nvRecords
  | .boots => q.boots = p.boots
  | .serving => q.serving = p.serving
  | .pw => q.pw = p.pw
  | .stackUnits => q.stackUnits = p.stackUnits
  | .mills => q.mills = p.mills
  | .sels => q.sels = p.sels
  | .selPorts => q.selPorts = p.selPorts
  | .rv => q.rv = p.rv
  | .boot => q.boot = p.boot
  | .pins => q.pins = { p.pins with fault := q.pins.fault, therm := q.pins.therm }
  | .stitches => q.stitches = p.stitches
  | .thims => q.thims = p.thims
  | .dbg => q.dbg = p.dbg
  | .lost => q.lost = p.lost
  | .out => q.out = p.out
  | .free => q.free = p.free
  | .blocks => q.rg.blocks = p.rg.blocks
  | .regs => q.rg.regs = p.rg.regs
  | .staged => q.rg.staged = p.rg.staged
  | .latches => q.rg.latches = p.rg.latches
  | .snaps => q.rg.snaps = p.rg.snaps
  | .drains => q.rg.drains = p.rg.drains
  | .undo => q.rg.undo = p.rg.undo
  | .tables => q.rg.tables = p.rg.tables
  | .alerts => q.rg.alerts = p.rg.alerts

/-- Every part but those listed is as it was: the frame of a command. -/
def keepsBut (l : List Part) (p q : Pkg) : Prop := ∀ x : Part, x ∉ l → x.same p q

/-- Every register word but those listed is as it was. -/
def regsBut (l : List (Page × Nat)) (p q : Pkg) : Prop := ∀ g off, (g, off) ∉ l → getReg q g off = getReg p g off

/-- The common registers of every page but those listed are as they were. -/
def blocksBut (l : List Page) (p q : Pkg) : Prop := ∀ g, g ∉ l → block q g = block p g

/-- An agent's access to a register that the checks of R31 to R33 let through, at a page that is not OFF (R45). -/
abbrev letThrough (write : Bool) (p : Pkg) (ag : Agent) (g : Page) (off : Nat) : Prop :=
  regStatus write p ag g off = Status.done ∧ stateOf p g ≠ .off

/-- The package has put out exactly these things more, in this order. -/
def puts (l : List Out) (p q : Pkg) : Prop := q.out = p.out ++ l

/-- An event of a page is set. -/
def hasEvent (q : Pkg) (g : Page) (i : Nat) : Prop := bit (block q g).evt i = true

/-- A page's state and the cause of its last change (R36). -/
def isIn (q : Pkg) (g : Page) (st : BlockState) (cause : Nat) : Prop := stateOf q g = st ∧ (block q g).cause = cause

/-- Every context but those listed is as it was. -/
def ctxsBut (l : List CtxId) (p q : Pkg) : Prop := ∀ c, c ∉ l → ctxOf q c = ctxOf p c

/-- Every byte of memory outside a set of addresses reads as before. -/
def memBut (hit : Nat → Prop) (p q : Pkg) : Prop := ∀ a, ¬hit a → memByte q a = memByte p a

/-- A 64-bit counter of a page has gained n. -/
def gains (n : Nat) (p q : Pkg) (g : Page) (off : Nat) : Prop := getReg64 q g off = getReg64 p g off + BitVec.ofNat 64 n

/-- An event is set at a page and nothing else of the package has changed: how a command that is turned away shows. -/
def onlyRaises (g : Page) (i : Nat) (p q : Pkg) : Prop := hasEvent q g i ∧ blocksBut [g] p q ∧ keepsBut [.blocks, .alerts] p q

/-- A word is the next instruction of a context and may issue, in an array cycle that is its turn (R133, R134, R162, R164, R168–R170, R489,
R490). -/
def mayRun (p : Pkg) (c : CtxId) (w : BitVec 128) : Prop :=
  (ctxOf p c).state = .running ∧ (ctxOf p c).halted = false ∧ (ctxOf p c).stepInst = none ∧ (ctxOf p c).brUntil ≤ p.count
  ∧ pairSound p c .core = true ∧ fetch p c (ctxOf p c).pc = .ok w ∧ mayIssue p c w = true
  ∧ ((ctxOf p c).skipBp = true ∨ breakpointsOk p = true ∧ breakpointAt p c (ctxOf p c).pc = none)
  ∧ (∀ k, k ∈ handlePairs (ctxOf p c) w → pairSound p c k = true) ∧ wordOk w = true ∧ mayTurn p c = true

/-- The register that counts a context's retirements, CTX_INSTR. -/
def instrCount (c : CtxId) : Nat := 0x148 + 0x80 * c.ctx.val

/-- What no instruction but one said to do so changes of its context as it issues: vector registers, halt policy, latches, token counts
and the record of its stores. -/
def ctxKept (x y : Ctx) : Prop :=
  y.v = x.v ∧ y.firstBad = x.firstBad ∧ y.stop = x.stop ∧ y.bp = x.bp ∧ y.skipBp = false

/-- An instruction has issued and retired done in one step: its item ended, the tallies and CTX_INSTR counted it, its token is back, its
context runs on with its latches as they were, and a stepped context halts. -/
def retiresDone (p q : Pkg) (c : CtxId) : Prop :=
  let x := ctxOf p c
  let y := ctxOf q c
  puts [.item (.core c.core) p.nextId Status.done] p q ∧ q.nextId = p.nextId + 1 ∧ q.insts = p.insts.filter (fun i => i.id != p.nextId)
  ∧ (block q (.core c.core)).tin = (block p (.core c.core)).tin + 1 ∧ (block q (.core c.core)).tout = (block p (.core c.core)).tout + 1
  ∧ gains 1 p q (.core c.core) (instrCount c) ∧ ctxsBut [c] p q ∧ ctxKept x y
  ∧ (∀ t, Map.getD y.toks t 0 = Map.getD x.toks t 0) ∧ y.halted = (x.halted || x.stepping) ∧ y.stepping = false ∧ y.stepInst = none

/-- The scalar registers after a write of one: s0 stays zero and every other register is as it was (R164). -/
def writesScalar (x y : Ctx) (r : Nat) (v : DWord) : Prop := ∀ n, sreg y n = if n = r ∧ n ≠ 0 then v else sreg x n

/-- An instruction has issued to a unit: listed with its word, its program counter and the registers it read, counted in TALLY_IN; its
context goes on at the next program counter with its token counted (R157, R164, R170). -/
def issuedTo (u : UnitKind) (p q : Pkg) (c : CtxId) (w : BitVec 128) (i : Inst) : Prop :=
  let x := ctxOf p c
  i ∈ q.insts ∧ i.id = p.nextId ∧ i.ctx = c ∧ i.pc = x.pc ∧ i.word = w ∧ i.unit = u
  ∧ i.a = sreg x (slotA w) ∧ i.b = sreg x (slotB w) ∧ i.c = sreg x (slotC w) ∧ i.d = sreg x (slotD w) ∧ i.x = sreg x (slotX w)
  ∧ q.nextId = p.nextId + 1 ∧ (∀ j, j.id ≠ p.nextId → (j ∈ q.insts ↔ j ∈ p.insts)) ∧ ctxsBut [c] p q
  ∧ (ctxOf q c).pc = (x.pc + 1) % 65536 ∧ (ctxOf q c).s = x.s ∧ (ctxOf q c).policy = x.policy ∧ (ctxOf q c).sticky = x.sticky
  ∧ (ctxOf q c).latches = x.latches ∧ (ctxOf q c).skipBp = false
  ∧ (∀ t, Map.getD (ctxOf q c).toks t 0 = Map.getD x.toks t 0 + if sigEn w = true ∧ sigTok w = t then 1 else 0)
  ∧ (block q (.core c.core)).tin = (block p (.core c.core)).tin + 1 ∧ (block q (.core c.core)).tout = (block p (.core c.core)).tout

/-- A fused instruction as it has issued and read its collective block (R182, R339). -/
def withBlock (p : Pkg) (c : CtxId) (w : BitVec 128) : Pkg × Inst :=
  let r := issueInst p c w
  let b := (handleOf r.2.k).flat 64
  (updInst (admitRanges r.1 c [b]) r.2.id (fun (n : Inst) => { n with blk := b.read r.1 c 0 }), { r.2 with blk := b.read r.1 c 0 })

/-- A fused instruction passes every check of R182, R339 and R340 before it joins its instance: the suffix, the group's entry and its block,
the compute part's form, the unit, the group's entries, the rank, the due time, and the ranges. -/
def fusedReady (p : Pkg) (c : CtxId) (w : BitVec 128) (g : Grp) (x : Mm) : Prop :=
  let r := issueInst p c w
  let b := (handleOf r.2.k).flat 64
  let q := (withBlock p c w).1
  let i := (withBlock p c w).2
  let d := c.core.die
  suffixOk r.2 = true ∧ grpOf r.1 d (bits w 85 78) = some g ∧ engineCheck r.1 c [b] [] [] = Status.done ∧ b.anyBad r.1 c = false
  ∧ mmOf i = some x ∧ (Job.mm x).ok = true ∧ fusedHandlesOk i = true ∧ fusedFormOk r.2 g = true ∧ enabled q (.well d) = true
  ∧ grpSound q d (bits w 85 78) = true ∧ (rankOf q d g c.core).isSome = true ∧ (4 ≤ collOf w → g.stages.length = 1)
  ∧ (bit w 67 = true → g.total ≤ 2 ^ 23) ∧ q.bell.toNat ≤ leField i.blk 0 8 + g.tally
  ∧ engineCheck q c ((Job.mm x).ins ++ (fusedRanges q i g).1) ((Job.mm x).outs ++ (fusedRanges q i g).2) (Job.mm x).accs = Status.done

/-- A vector instruction has issued and ended on its unit with a status; INSTR_RETIRE retires it (R187). -/
def endsAs (st : Status) (p q : Pkg) (c : CtxId) (w : BitVec 128) : Prop :=
  ∃ i, issuedTo .vector p q c w i ∧ i.started = true ∧ i.ended = some st

/-- Nothing outside a selvage engine and its two ports has changed, and within the package only the parts listed. -/
def ofEngine (e : Fin 16) (l : List Part) (p q : Pkg) : Prop :=
  (∀ d, d ≠ e → selOf q d = selOf p d) ∧ (∀ n, seOfPort n ≠ e → portOfPkg q n = portOfPkg p n ∧ selPort q n = selPort p n) ∧ keepsBut l p q

/-- Every ring of an engine but one, and but those that wait for recalibration, is as it was. -/
def ringsBut (e : Fin 16) (r : Fin 64) (p q : Pkg) : Prop := ∀ k, k ≠ r → (ringOf p e k).queued = false → ringOf q e k = ringOf p e k

/-- A ring has gone to HOLD and is swept at once from trim 0 (R260, R261), reported but for a DARK port (R267). -/
def goesToSweep (p q : Pkg) (e : Fin 16) (r : Fin 64) : Prop :=
  (ringOf q e r).state = .sweep ∧ (ringOf q e r).sweepAt = p.count ∧ (ringOf q e r).trim = 0
  ∧ ((portOfPkg p (ringPort e r)).optic ≠ .dark → hasEvent q (.sel e) evHold)
  ∧ (portOfPkg q (ringPort e r)).fecOut = (portOfPkg p (ringPort e r)).fecOut ∧ ringsBut e r p q

/-- A ring is LOCKED again at an offset, its trim 0 and its relocks counted, and its item ended done, the offset saved while Caselm runs (R261, R264). -/
def locksAt (p q : Pkg) (e : Fin 16) (r : Fin 64) (offset : Int) : Prop :=
  (ringOf q e r).state = .locked ∧ (ringOf q e r).trim = 0 ∧ (ringOf q e r).relocks = min 255 ((ringOf p e r).relocks + 1)
  ∧ entryVal q (.sel e) 2 r.val = (BitVec.ofInt 16 offset).setWidth 32
  ∧ (p.boot.stage = .caselm → p.pw.p3 = false → ((.sel e, 2, r.val), (BitVec.ofInt 16 offset).setWidth 32) ∈ q.boot.tables) ∧ puts [.item (.sel e) r.val Status.done] p q ∧ ringsBut e r p q

/-- A sweep or held recalibration of a ring has failed: HOLD, or RETIRED with its events at the third failure within 1 s (R261). -/
def failsSweep (p q : Pkg) (e : Fin 16) (r : Fin 64) : Prop :=
  let n := ((ringOf p e r).failures.filter (fun t => decide (p.count < t + 1000000000))).length
  puts [.item (.sel e) r.val Status.failedRelock] p q ∧ (n < 2 → (ringOf q e r).state = .hold ∧ (ringOf q e r).failedAt = some p.count)
  ∧ (2 ≤ n → (ringOf q e r).state = .retired
    ∧ ((portOfPkg p (ringPort e r)).optic ≠ .dark → hasEvent q (.sel e) evRetired ∧ hasEvent q (.sel e) evRelockFail)) ∧ ringsBut e r p q

/-- A recalibration pass of an engine has begun: every LOCKED ring waits for its turn or has begun it (R264). -/
def beginsPass (p q : Pkg) (e : Fin 16) : Prop :=
  (selOf q e).passAt = p.count ∧ (∀ r, (ringOf p e r).state = .locked → (ringOf q e r).queued = true ∨ (ringOf q e r).cal.isSome = true)
  ∧ (∀ r, (ringOf p e r).state ≠ .locked → (ringOf p e r).queued = false → ringOf q e r = ringOf p e r)
  ∧ ((selOf q e).pass = false → hasEvent q (.sel e) evRecalDone)

/-- A link is DOWN with nothing held, queued or buffered (R278, R286). -/
def linkIsDown (q : Pkg) (n : Fin 32) : Prop :=
  (portOfPkg q n).lstate = .down ∧ (portOfPkg q n).retry = [] ∧ (portOfPkg q n).queue = [] ∧ (portOfPkg q n).rxbuf = [] ∧ hasEvent q (.lnk n) 17

/-- A link has gone from UP to RETRAIN with its retry buffer kept (R278). -/
def linkRetrains (p q : Pkg) (n : Fin 32) : Prop :=
  (portOfPkg q n).lstate = .retrain ∧ (portOfPkg q n).retrainAt = some p.count ∧ (portOfPkg q n).aligning = true ∧ hasEvent q (.lnk n) 18
  ∧ gains 1 p q (.lnk n) 0x160

/-- The markers that a port sends now on the lanes of its LOCKED transmit rings (R274). -/
def markersOf (p : Pkg) (n : Fin 32) (restart : Bool) : List Out :=
  let x := portOfPkg p n
  ((List.range 16).filter (fun l => bit x.txRing l)).map (fun l => Out.marker n l (markerWord l x.txMap (x.markStart p.count) restart x.markCount))

/-- A link is UP at a version, with its event (R278). -/
def linkIsUp (q : Pkg) (n : Fin 32) (version : Nat) : Prop :=
  (portOfPkg q n).lstate = .up ∧ (portOfPkg q n).version = version ∧ (portOfPkg q n).retrainAt = none ∧ hasEvent q (.lnk n) 16

/-- Every port but one is as it was. -/
def portsBut (n : Fin 32) (p q : Pkg) : Prop := ∀ m, m ≠ n → portOfPkg q m = portOfPkg p m

/-- A port has sent a queued frame: its bytes are out under the next link sequence, it is held for retry, and its units and counts follow
(R285, R287, R291). -/
def sentFrame (p q : Pkg) (n : Fin 32) (f : Frame) : Prop :=
  let x := portOfPkg p n
  let y := portOfPkg q n
  puts [.frame n (frameBytes x.version x.txSeq f)] p q ∧ y.retry = x.retry ++ [⟨x.txSeq, f⟩] ∧ y.txSeq = (x.txSeq + 1) % 65536
  ∧ y.queue = dropFirst (fun e => e.frame == f) x.queue ∧ y.credits.held = subAt x.credits.held f.cls (unitsOf f)
  ∧ y.credits.sent = addAt x.credits.sent f.cls (unitsOf f) ∧ y.busyUntil = p.count + x.lineTicks (wireSize f) ∧ gains 1 p q (.lnk n) 0x100 ∧ gains (wireSize f) p q (.lnk n) 0x110
  ∧ (block q (.prk n)).tout = (block p (.prk n)).tout + 1 ∧ portsBut n p q ∧ keepsBut [.ports, .out, .regs, .blocks] p q

/-- A die has answered a frame (R315): the response is in its router's input, or lost where the router injects nothing (R310). -/
def answers (p q : Pkg) (d : Fin 4) (f : Frame) (st : Status) (payload : List Byte) (mask : Word) : Prop :=
  (router q d).inq = (router p d).inq ++ (if enabled p (.drt d) then [⟨respFrame p f st payload mask, none⟩] else [])

/-- A delivering die has told the injector of a job-flow frame that it arrived late (R69), where its router carries control traffic. -/
def tellsLate (p q : Pkg) (d : Fin 4) (f : Frame) : Prop :=
  carries p (.drt d) = true → ∃ r : RouterIn, (router q d).inq = (router p d).inq ++ [r] ∧ r.arrival = none ∧ r.frame.kind = 3 ∧ r.frame.off = 3
    ∧ r.frame.dst = f.src ∧ r.frame.payload = lateReportPayload f (lateCode Status.lateArrived) (ownChip p) 0 true d.val p.bell

/-- The first delivered frame that satisfies a test is taken from the inbox. -/
def takes (t : Delivered → Bool) (x : Delivered) (p q : Pkg) : Prop := p.inbox.find? t = some x ∧ q.inbox = dropFirst t p.inbox

/-- An access of n bytes at an offset lies in DRAM of this package that serves it (R32, R227). -/
def dramServes (p : Pkg) (off n : Nat) (write : Bool) : Prop :=
  rangeOf off = .dram ∧ sameRange off n = true ∧ rangeServes p off n = true ∧ pairOk p (.memc (dramPlace (mapGib p) off).1) 0x088 = true ∧ (write = true → writeBarred p off n = false ∧ guestHolds p off n = false)

/-- A commons request has ended and left the list, its instruction taking the status (R316). -/
def reqEnds (p q : Pkg) (r : CReq) (st : Status) : Prop :=
  q.creqs = p.creqs.filter (fun x => x.id != r.id)
  ∧ q.insts = p.insts.map (fun i => if i.id = r.inst then (if i.ended.isSome then i else { i with ended := some st }) else i)

/-- Memory and its poison are those of another package. -/
def memIs (q x : Pkg) : Prop := q.mem = x.mem ∧ q.poison = x.poison ∧ q.lost = x.lost

/-- The rows that serve a command packet of a code (R374, R406, R442), with the packet's source and the code. RESULT_ACK takes replies too and
is no such row. -/
def servesCode (i : Instr) : Option (CmdSrc × Nat) :=
  match i with
  | .identify c => some (c, 0x01)
  | .telemetry c => some (c, 0x02)
  | .eventRead c => some (c, 0x03)
  | .powerCmd c => some (c, 0x04)
  | .imageBegin c => some (c, 0x10)
  | .imageData c => some (c, 0x11)
  | .imageCommit c _ _ => some (c, 0x12)
  | .imageInfo c => some (c, 0x13)
  | .attest c => some (c, 0x14)
  | .attestRead c => some (c, 0x15)
  | .debugChallenge c => some (c, 0x16)
  | .unlockData c => some (c, 0x17)
  | .unlockCommit c _ => some (c, 0x18)
  | .certRead c => some (c, 0x19)
  | .manifestBegin c => some (c, 0x20)
  | .manifestData c => some (c, 0x21)
  | .manifestCommit c _ _ => some (c, 0x22)
  | .manifestWithdraw c => some (c, 0x23)
  | .startCmd c => some (c, 0x24)
  | .loadCmd c => some (c, 0x30)
  | .readCmd c => some (c, 0x31)
  | .requestCmd c => some (c, 0x40)
  | .phaseChange c => some (c, 0x50)
  | .phaseReady c => some (c, 0x51)
  | .phaseVerdict c => some (c, 0x52)
  | .ledgerQuery c => some (c, 0x60)
  | .fenceCmd c => some (c, 0x61)
  | .maintReset c => some (c, 0x70)
  | .samplerBegin c => some (c, 0x71)
  | .samplerState c => some (c, 0x72)
  | .samplerRecord c => some (c, 0x73)
  | .samplerDigest c _ _ => some (c, 0x74)
  | .samplerEnd c => some (c, 0x75)
  | .samplerReport (some c) => some (c, 0x76)
  | .samplerPromote c => some (c, 0x77)
  | .samplerAdmit c => some (c, 0x78)
  | _ => none

/-- The first packet of a source is a command of a code with a sound header (R369, R371). -/
def takesCmd (p : Pkg) (src : CmdSrc) (code : Nat) (pk : Packet) (path : Nat) : Prop :=
  (∃ q, takePacket p src = some (pk, path, q)) ∧ pk.hcrcOk = true ∧ pk.code = code ∧ pk.flags % 2 = 0

/-- The key of a packet in the reply cache (R372). -/
def keyOf (pk : Packet) (path : Nat) : CmdKey := ⟨path, pk.requester, pk.id⟩

/-- Whether a code changes state (R374, R406, R442). -/
def changesState (code : Nat) : Bool := match cmdForm code with | some f => f.changes | none => false

/-- A packet passes the checks of R371 before its command's own: it is sound and allowed, no replay, and there is room for it. -/
def passesChecks (p : Pkg) (pk : Packet) (path : Nat) : Prop :=
  packetCheck p pk path = Status.done ∧ cached p (keyOf pk path) = none ∧ p.rv.runs.length < 64 ∧ (changesState pk.code && manifestBusy p) = false

/-- A command of a code that Caselm runs, or the recovery ROM where it is one of its commands (R441). -/
def runsCmd (p : Pkg) (src : CmdSrc) (code : Nat) (pk : Packet) (path : Nat) : Prop :=
  takesCmd p src code pk path ∧ passesChecks p pk path ∧ (p.boot.stage = .recovery → recoveryRuns code pk.arg2 = true)

/-- The bytes of a command's reply (R369, R371). -/
def replyBytes (p : Pkg) (pk : Packet) (path : Nat) (st : Status) (args : List Nat) (payload : List Byte) : List Byte :=
  packetBytes true false pk.code pk.requester (if path = 0 then ownChip p else 0) pk.id (jobField p pk.code) args st p.bell payload

/-- The frames of a reply over the optical ports stand at the input of the router that carries it, or wait for one (R24, R370; log entry 35);
on the other paths no router takes anything. -/
def framesLeave (p q : Pkg) (pk : Packet) (path : Nat) (b : List Byte) : Prop :=
  let fs : List Frame := if path = 0 then packetFrames p (keyOf pk path) b else []
  (∀ d, (router q d).inq = (router p d).inq ++ (if replyDie p = some d then fs.map (fun f => (⟨f, none⟩ : RouterIn)) else []))
  ∧ q.rv.unsent = p.rv.unsent ++ (if replyDie p = none then fs else [])

/-- A command is accepted and ends, and its reply is sent on the path it came by (R370, R371). Items that end before it stand first. -/
def sendsReply (before : List Out) (p q : Pkg) (pk : Packet) (path : Nat) (st : Status) (b : List Byte) : Prop :=
  puts (before ++ [.item .reeve pk.code st] ++ (if path = 0 then [] else [.packet path b])) p q
  ∧ framesLeave p q pk path b
  ∧ (block q .reeve).tin = (block p .reeve).tin + 1 ∧ (block q .reeve).tout = (block p .reeve).tout + 1
  ∧ gains 1 p q .reeve 0x100 ∧ gains (if Status.cls st = 1 then 1 else 0) p q .reeve 0x108

/-- A command that ran is answered, and its reply is kept in the cache (R371, R372). -/
def answered (before : List Out) (p q : Pkg) (pk : Packet) (path : Nat) (st : Status) (args : List Nat) (payload : List Byte) : Prop :=
  let b := replyBytes p pk path st args payload
  sendsReply before p q pk path st b
  ∧ q.rv.cache = (p.rv.cache ++ [(⟨keyOf pk path, b, p.count⟩ : Cached)]).drop (p.rv.cache.length + 1 - 1024)

/-- What serving a packet touches beside what its command changes: the packet leaves where it stood, and the counts and the reply. -/
def cmdFrame (src : CmdSrc) (l : List Part) (p q : Pkg) : Prop :=
  keepsBut ([.inbox, .pw, .rv, .regs, .blocks, .out, .routers, .bobs, .ports] ++ l) p q
  ∧ ∀ pk path r, takePacket p src = some (pk, path, r) → q.inbox = r.inbox ∧ (Part.pw ∉ l → q.pw = r.pw)
    ∧ (Part.bobs ∉ l → q.bobs = r.bobs) ∧ (Part.ports ∉ l → q.ports = r.ports)

/-- Every register but Reeve's command counters, and every page's common registers but those that count a packet and those listed, are as before. -/
def cmdRegs (l : List Page) (p q : Pkg) : Prop :=
  regsBut [(.reeve, 0x100), (.reeve, 0x104), (.reeve, 0x108), (.reeve, 0x10C)] p q ∧ blocksBut ([.reeve, .mgmt] ++ (replyDie p).toList.map Page.drt ++ l) p q

/-- Beside that, Reeve's own state is as before but for the reply cache and a reply that waits for a router. -/
def cmdRest (l : List Page) (p q : Pkg) : Prop := q.rv = { p.rv with cache := q.rv.cache, unsent := q.rv.unsent } ∧ cmdRegs l p q

/-- A command has its reply on its path and in the cache, after whatever it put out itself (R370–R372). -/
def replies (p q : Pkg) (pk : Packet) (path : Nat) (st : Status) (args : List Nat) (payload : List Byte) : Prop :=
  let b := replyBytes p pk path st args payload
  (∃ before, puts (before ++ [.item .reeve pk.code st] ++ (if path = 0 then [] else [.packet path b])) p q)
  ∧ q.rv.cache = (p.rv.cache ++ [(⟨keyOf pk path, b, p.count⟩ : Cached)]).drop (p.rv.cache.length + 1 - 1024)

/-- A command that goes on running, as it is listed (R371). -/
def runOf (p : Pkg) (pk : Packet) (path : Nat) : CmdRun := ⟨keyOf pk path, pk.code, pk.arg0, pk.arg1, p.count⟩

/-- A payload may land at an address: the packet's gateway bobbin is ENABLED, the map is sound and the range serves a write (R32, R209, R216). -/
def mayLand (p : Pkg) (pk : Packet) (a : Nat) (bs : List Byte) : Prop :=
  let b := BobId.gateway pk.gateway
  (∀ g o, rangeOf a ≠ .guest g o) ∧ enabled p (.bob b) = true ∧ pairOk p (.memc 0) 0x090 = true ∧ (checkAccess p (.bobbin b) a bs.length).2 = Status.done ∧ writeBarred p a bs.length = false
    ∧ guestHolds p a bs.length = false

/-- A payload has landed, an item of the gateway bobbin, its bytes counted. -/
def landed (p q : Pkg) (pk : Packet) (a : Nat) (bs : List Byte) : Prop :=
  let b := BobId.gateway pk.gateway
  memIs q (writeLocal p a bs noTag) ∧ gains bs.length p q (.bob b) 0x108
  ∧ (block q (.bob b)).tin = (block p (.bob b)).tin + 1 ∧ (block q (.bob b)).tout = (block p (.bob b)).tout + 1

end Sys2Proof.Machine
end

