-- ==== Sys2Proof/Certificates/Slice0/Obligations.lean ====
section
/-! DEFINITION. The statements for the provers, in the order of the manual's chapters. -/
open Sys2Proof Sys2Proof.Machine

/-- For every command c and every state s with c at the front of its queue, the step is exec of c on s with the queue's rest. With no
command waiting, the step answers the state after one tick: the local count rises by one and no part of the package but the count, bell
time and the bell unit changes. The tick on an empty queue is the model's choice (log entry 8). -/
def Obligations.StepRunsTheCommandInFront : Prop :=
  (∀ (s : State) (c : Instr) (rest : List Instr), s.pending = c :: rest → step s = exec c { s with pending := rest })
  ∧ (∀ s : State, s.pending = [] → ∃ t, step s = .next t ∧ t.pending = [] ∧ t.pkg.count = s.pkg.count + 1
      ∧ keepsBut [.count, .bell, .bellU] s.pkg t.pkg)

/-- Right after reset no command waits, bell time is 0 and the bell unit UNJOINED; every page's block is DISABLED with cause 0x05, no event
set or masked and its tallies at 0; CTRL of every page reads 0x0000_3E80 and passes its complement check; every port's link is DOWN; every
task context is IDLE; every window is CLOSED; no swap is armed; no fence stands; the package is not quarantined; nothing has been put
out. -/
def Obligations.ResetLeavesThePackageDisabled : Prop :=
  State.reset.pending = [] ∧ State.reset.pkg.bell = 0 ∧ State.reset.pkg.bellU.state = .unjoined
  ∧ (∀ g : Page, isIn State.reset.pkg g .disabled 0x05 ∧ (block State.reset.pkg g).evt = 0 ∧ (block State.reset.pkg g).mask = 0
      ∧ (block State.reset.pkg g).tin = 0 ∧ (block State.reset.pkg g).tout = 0
      ∧ getReg State.reset.pkg g 0x008 = 0x00003E80#32 ∧ pairOk State.reset.pkg g 0x008 = true)
  ∧ (∀ n : Fin 32, (portOfPkg State.reset.pkg n).lstate = .down)
  ∧ (∀ c : CtxId, (ctxOf State.reset.pkg c).state = .idle)
  ∧ (∀ st w, (winOf State.reset.pkg st w).state = .closed)
  ∧ (∀ d : Fin 4, (router State.reset.pkg d).armed = none)
  ∧ State.reset.pkg.fences = [] ∧ State.reset.pkg.quarantined = false ∧ State.reset.pkg.out = []

/-- From every state whose memory lists its bytes at strictly rising addresses and lists no byte that reads as an unlisted one, whatever
command is in front of the queue, a step that answers a next state leaves memory in that form: equal memories stay equal data (the form
and what an unlisted byte reads as are the model's, log entry 2). -/
def Obligations.EveryStepKeepsMemoryCanonical : Prop :=
  ∀ s t : State, Memory.wf s.pkg.mem = true → step s = .next t → Memory.wf t.pkg.mem = true

/-- From every state in which each issued, unretired instruction has an order number below the next one to be given, every step that answers a next state
leaves it so: a newly issued instruction never takes the number of one that has not retired. It holds right after reset. The numbering is the model's
(log entry 10). -/
def Obligations.EveryStepKeepsIssueNumbersFresh : Prop :=
  (∀ s t : State, (∀ i, i ∈ s.pkg.insts → i.id < s.pkg.nextId) → Runs s t → ∀ i, i ∈ t.pkg.insts → i.id < t.pkg.nextId)
  ∧ ∀ i, i ∈ State.reset.pkg.insts → i.id < State.reset.pkg.nextId

/-- From every state in which FAULT_N and THERM_N are asserted exactly as R427, R475 and R441 say of the package's other parts (trips,
throttled dies, refresh steps, hot selvage engines, lost rails, the recovery ROM), every step that answers a next state leaves both pins so. -/
def Obligations.AlertPinsFollowThePackage : Prop :=
  ∀ s t : State, s.pkg.pins.fault = faultOut s.pkg → s.pkg.pins.therm = thermOut s.pkg → step s = .next t →
    t.pkg.pins.fault = faultOut t.pkg ∧ t.pkg.pins.therm = thermOut t.pkg

/-- At reset memory has its canonical form and FAULT_N and THERM_N are as the other parts make them: the two invariants that every step
keeps hold at reset. -/
def Obligations.ResetMeetsTheInvariants : Prop :=
  Memory.wf State.reset.pkg.mem = true ∧ State.reset.pkg.pins.fault = faultOut State.reset.pkg
    ∧ State.reset.pkg.pins.therm = thermOut State.reset.pkg

/-- For every command and state: exec answers a next state with the queue as it was, or the command is JTAG_PRIVATE, permitted by scope bit
5 of the unlock, whose effect the manual does not give (R491), and it is refused by that name. -/
def Obligations.OnlyPrivateJtagStops : Prop :=
  ∀ (c : Instr) (s : State),
    (∃ t, exec c s = .next t ∧ t.pending = s.pending)
    ∨ (∃ code, c = .jtagPrivate code ∧ s.pkg.boot.scope.testBit 5 = true ∧ exec c s = .refused .jtagPrivate)

/-- For every agent whose read of TALLY_IN lo is let through at a page that is not OFF: the read completes, returns the low word of TALLY_IN,
and the page then holds for that agent alone a snapshot of the three tallies, in which TALLY_IN = TALLY_OUT + TALLY_HELD; every other agent's and
page's snapshot is as it was. While the snapshot stands, that agent's reads of 0x02C to 0x03C give its words; an agent without a snapshot gets
the live words; neither releases anything or sets an event. Nothing else changes (an access of the debug port is counted in DBG). -/
def Obligations.TallySnapshotHeldForTheReader : Prop :=
  (∀ (s : State) (ag : Agent) (g : Page), letThrough false s.pkg ag g 0x028 →
    Completes (.tallySnapshotRead ag g) s (fun q => let p := countDebug s.pkg ag
      Map.look q.rg.snaps (ag, g) = some ⟨(block p g).tin, (block p g).tout⟩
      ∧ (block p g).tin = (block p g).tout + tallyHeld p g
      ∧ puts [.access ag Status.done (lo32 (block p g).tin)] p q
      ∧ (∀ k, k ≠ (ag, g) → Map.look q.rg.snaps k = Map.look p.rg.snaps k) ∧ keepsBut [.snaps, .out] p q))
  ∧ (∀ (p : Pkg) (ag : Agent) (g : Page) (x : Snap), Map.look p.rg.snaps (ag, g) = some x →
      readWord p ag g 0x02C = (p, hi32 x.tin) ∧ readWord p ag g 0x030 = (p, lo32 x.tout) ∧ readWord p ag g 0x034 = (p, hi32 x.tout)
      ∧ readWord p ag g 0x038 = (p, lo32 (x.tin - x.tout)) ∧ readWord p ag g 0x03C = (p, hi32 (x.tin - x.tout)))
  ∧ (∀ (p : Pkg) (ag : Agent) (g : Page) (off : Nat), Map.look p.rg.snaps (ag, g) = none → 0x02C ≤ off → off < 0x040 →
      readWord p ag g off = (p, commonView p g off))

/-- For every agent's let-through read of the lo word of a 64-bit value: it completes, returns the value's low word and loads the agent's latch in
that page with the hi half and the value's offset; a latch already held there sets lost_latch, and with none held no event is set; other latches,
registers and states are as they were (a read of DONE_LO also marks the entry that DONE_HI will pop). A read of the hi word returns the latched half
and releases the latch when the latch holds that value's half, else the live half with every latch as it was. -/
def Obligations.LatchedReadsOf64BitValues : Prop :=
  (∀ (s : State) (ag : Agent) (g : Page) (off : Nat), letThrough false s.pkg ag g off → 0x080 ≤ off → wide64 g off = some (off, 0) →
    Completes (.latchLoRead ag g off) s (fun q => let p := countDebug s.pkg ag
      Map.look q.rg.latches (ag, g) = some ⟨off, (if (Map.look p.rg.latches (ag, g)).isSome then regView (raise p g evLostLatch) g (off + 4) else regView p g (off + 4))⟩
      ∧ puts [.access ag Status.done (regView p g off)] p q
      ∧ ((Map.look p.rg.latches (ag, g)).isSome = true → hasEvent q g evLostLatch)
      ∧ ((Map.look p.rg.latches (ag, g)).isSome = false → q.rg.blocks = p.rg.blocks)
      ∧ (∀ k, k ≠ (ag, g) → Map.look q.rg.latches k = Map.look p.rg.latches k)
      ∧ (doneOf g off = none → q.bobs = p.bobs)
      ∧ keepsBut [.latches, .out, .blocks, .alerts, .bobs] p q))
  ∧ (∀ (s : State) (ag : Agent) (g : Page) (off : Nat), letThrough false s.pkg ag g (off + 4) → 0x080 ≤ off → wide64 g (off + 4) = some (off, 1) →
    Completes (.latchHiRead ag g off) s (fun q => let p := countDebug s.pkg ag
      (∀ h, Map.look p.rg.latches (ag, g) = some ⟨off, h⟩ →
        puts [.access ag Status.done h] p q ∧ Map.look q.rg.latches (ag, g) = none
        ∧ (∀ k, k ≠ (ag, g) → Map.look q.rg.latches k = Map.look p.rg.latches k))
      ∧ ((∀ l, Map.look p.rg.latches (ag, g) = some l → l.off ≠ off) →
        puts [.access ag Status.done (regView p g (off + 4))] p q ∧ q.rg.latches = p.rg.latches)
      ∧ keepsBut [.latches, .out, .bobs, .stackUnits] p q))

/-- For every agent whose write is let through. PAIRED_STAGE on CTRL, on a paired register's value or on a word of a 64-bit paired value: the word is
pending, tagged with the agent and the tick, no register changes, and a pending value whose same word or agent differs is discarded with
pair_err. PAIRED_COMMIT: with no value pending, one aged 4,096 ticks, one of another agent, or one that is not the complement of what is
written, the pending value is gone, pair_err is set and no register changes; a matching complement on a page whose registers have no further
rule (REEVE, HRTH, LNK and the like) stores the value's defined bits with their complement. PAIRED_PENDING_EXPIRY: at the 4,096th tick the pending
value is gone with pair_err; before it nothing changes. WRITE64_HI_COMMIT on BELL.EPOCH: with lo, hi and the lo complement pending from the
same agent and the hi complement written, the whole value is stored; otherwise it is discarded with pair_err. -/
def Obligations.PairedValuesCommitWholeOrNotAtAll : Prop :=
  (∀ (s : State) (ag : Agent) (g : Page) (off o d : Nat) (v : Word) (r : RegRow), letThrough true s.pkg ag g off →
    ((off = 0x008 ∧ o = 0x008 ∧ d = 0) ∨ (0x080 ≤ off ∧ findRow g off = some (r, o, d) ∧ (r.kind = .rwp ∧ d = 0 ∨ r.kind = .rwp64 ∧ d < 3))) →
    Completes (.pairedStage ag g off v) s (fun q => let p := countDebug s.pkg ag
      (∃ x, Map.look q.rg.staged ⟨g, o⟩ = some x ∧ x.agent = ag ∧ x.at_ = p.count ∧ Map.look x.words d = some v)
      ∧ (∀ x, stagedOf p g o = some x → (x.agent ≠ ag ∨ (Map.look x.words d).isSome = true) → hasEvent q g evPairErr)
      ∧ (Map.look p.rg.staged ⟨g, o⟩ = none → q.rg.blocks = p.rg.blocks)
      ∧ keepsBut [.staged, .blocks, .alerts] p q))
  ∧ (∀ (s : State) (ag : Agent) (g : Page) (o : Nat) (c : Word) (r : RegRow), letThrough true s.pkg ag g (o + 4) →
      (o = 0x008 ∨ (0x080 ≤ o ∧ findRow g o = some (r, o, 0) ∧ findRow g (o + 4) = some (r, o, 1) ∧ r.kind = .rwp)) →
      let p := countDebug s.pkg ag
      ((∀ x, stagedOf p g o = some x → ¬(x.agent = ag ∧ Map.look x.words 0 = some (~~~c))) →
        Completes (.pairedCommit ag g o c) s (fun q =>
          Map.look q.rg.staged ⟨g, o⟩ = none ∧ hasEvent q g evPairErr ∧ keepsBut [.staged, .blocks, .alerts] p q))
      ∧ (∀ x, stagedOf p g o = some x → x.agent = ag → Map.look x.words 0 = some (~~~c) → o ≠ 0x008 →
        (g = .reeve ∨ g = .hrth ∨ g = .mgmt ∨ g = .gate ∨ ∃ n, g = .lnk n) →
        Completes (.pairedCommit ag g o c) s (fun q =>
          Map.look q.rg.staged ⟨g, o⟩ = none ∧ getReg q g o = ~~~c &&& BitVec.ofNat 32 r.mask ∧ pairOk q g o = true
          ∧ regsBut [(g, o), (g, o + 4)] p q ∧ keepsBut [.staged, .regs, .blocks, .alerts] p q)))
  ∧ (∀ (s : State) (g : Page) (o : Nat) (x : Staged), Map.look s.pkg.rg.staged ⟨g, o⟩ = some x →
      Completes (.pairedPendingExpiry g o) s (fun q =>
        (x.at_ + 4096 ≤ s.pkg.count → Map.look q.rg.staged ⟨g, o⟩ = none ∧ hasEvent q g evPairErr ∧ keepsBut [.staged, .blocks, .alerts] s.pkg q)
        ∧ (s.pkg.count < x.at_ + 4096 → keepsBut [] s.pkg q)))
  ∧ (∀ (s : State) (ag : Agent) (c : Word), letThrough true s.pkg ag .bell 0x0B4 →
      let p := countDebug s.pkg ag
      (∀ x lo hi, stagedOf p .bell 0x0A8 = some x → x.agent = ag → Map.look x.words 0 = some lo → Map.look x.words 1 = some hi →
        Map.look x.words 2 = some (~~~lo) → c = ~~~hi → (∀ o, o ∈ [0x090, 0x098, 0x0A0] → pairOk p .bell o = true) →
        Completes (.write64HiCommit ag .bell 0x0A8 c) s (fun q =>
          Map.look q.rg.staged ⟨.bell, 0x0A8⟩ = none ∧ getReg64 q .bell 0x0A8 = join64 lo hi
          ∧ getReg q .bell 0x0B0 = ~~~lo ∧ getReg q .bell 0x0B4 = ~~~hi ∧ keepsBut [.staged, .regs, .bellU] p q))
      ∧ ((∀ x hi, stagedOf p .bell 0x0A8 = some x → x.agent = ag → Map.look x.words 1 = some hi → c ≠ ~~~hi) →
        Completes (.write64HiCommit ag .bell 0x0A8 c) s (fun q =>
          Map.look q.rg.staged ⟨.bell, 0x0A8⟩ = none ∧ hasEvent q .bell evPairErr ∧ keepsBut [.staged, .blocks, .alerts] p q)))

/-- For every agent whose write is let through. EVT_STATUS_CLEAR: each bit written 1 clears, but a bit that arises in the same cycle is set, and a 1 in the
reserved bits [15:7] sets rsvd_write; with neither, EVT_FIRST clears exactly when no bit is left. EVT_FORCE_WRITE: each implemented bit written 1 is set and marked forced, the others are
as they were (a bit the block does not implement sets rsvd_write in its place). Nothing changes but the page's common registers and the alerts
toward Caselm. -/
def Obligations.EventBitsClearAndForce : Prop :=
  (∀ (s : State) (ag : Agent) (g : Page) (v arising : Word), letThrough true s.pkg ag g 0x018 →
    Completes (.evtStatusClear ag g v arising) s (fun q => let p := countDebug s.pkg ag
      (∀ i, i < 32 → bit (block q g).evt i = ((bit (block p g).evt i && !bit v i) || bit arising i || (i == evRsvdWrite && bits v 15 7 != 0)))
      ∧ (arising = 0 → bits v 15 7 = 0 → (block q g).first = if (block p g).evt &&& ~~~v = 0 then none else (block p g).first)
      ∧ blocksBut [g] p q ∧ (block q g).mask = (block p g).mask ∧ stateOf q g = stateOf p g
      ∧ (block q g).tin = (block p g).tin ∧ (block q g).tout = (block p g).tout ∧ keepsBut [.blocks, .alerts] p q))
  ∧ (∀ (s : State) (ag : Agent) (g : Page) (v : Word), letThrough true s.pkg ag g 0x020 →
    Completes (.evtForceWrite ag g v) s (fun q => let p := countDebug s.pkg ag
      (∀ i, i < 32 → bit v i = true → bit (evtMask g) i = true → hasEvent q g i ∧ bit (block q g).forced i = true)
      ∧ (∀ i, i < 32 → bit v i = false → i ≠ evRsvdWrite → bit (block q g).evt i = bit (block p g).evt i)
      ∧ (v &&& ~~~(evtMask g) ≠ 0 → hasEvent q g evRsvdWrite)
      ∧ blocksBut [g] p q ∧ stateOf q g = stateOf p g ∧ (block q g).mask = (block p g).mask
      ∧ (block q g).tin = (block p g).tin ∧ (block q g).tout = (block p g).tout ∧ keepsBut [.blocks, .alerts] p q))

/-- For every agent whose write is let through, with no margin run in progress. CTRL_ENABLE of a unit in service stores the value with its
complement; a DISABLED block becomes ENABLING with cause 0x01 (a mill whose stack is in self-refresh stays DISABLED), a DRAINING, QUARANTINED, FAULT or ENABLED block keeps its state (an enable in DRAINING
is held in the stored run field). On a unit that is not in service nothing is stored, the state stays and rsvd_write is set. CTRL_DISABLE stores the
value; an ENABLED block becomes DRAINING with cause 0x01 and its drain timeout (a block with no items is DISABLED at once); DISABLED, DRAINING and
QUARANTINED blocks keep their state; an ENABLING block keeps it and will drain after its self-check; a FAULT block whose drain is over becomes
DISABLED. -/
def Obligations.ControlCommitsMoveTheBlock : Prop :=
  (∀ (s : State) (ag : Agent) (g : Page) (bc : BitVec 16) (tmo : BitVec 12), letThrough true s.pkg ag g 0x008 → s.pkg.dbg.margin = none →
    let p := countDebug s.pkg ag
    (inService p g = true →
      Completes (.ctrlEnable ag g bc tmo) s (fun q =>
        getReg q g 0x008 = ctrlWord bc tmo 1 ∧ pairOk q g 0x008 = true
        ∧ (stateOf p g = .disabled → stackRests p g = false → isIn q g .enabling 0x01 ∧ hasEvent q g evStateChange)
        ∧ (stateOf p g ≠ .disabled ∨ stackRests p g = true → q.rg.blocks = p.rg.blocks)
        ∧ regsBut [(g, 0x008), (g, 0x00C)] p q ∧ blocksBut [g] p q ∧ keepsBut [.regs, .blocks, .alerts, .undo] p q))
    ∧ (inService p g = false →
      Completes (.ctrlEnable ag g bc tmo) s (fun q =>
        hasEvent q g evRsvdWrite ∧ stateOf q g = stateOf p g ∧ blocksBut [g] p q ∧ keepsBut [.blocks, .alerts] p q)))
  ∧ (∀ (s : State) (ag : Agent) (g : Page) (bc : BitVec 16) (tmo : BitVec 12), letThrough true s.pkg ag g 0x008 → s.pkg.dbg.margin = none →
    let p := countDebug s.pkg ag
    (stateOf p g = .enabled → contained g = [] → coreOfPage g = none → clstOfPage g = none → selOfPage g = none → siteOfPage g = none →
      noItems g = false →
      Completes (.ctrlDisable ag g bc tmo) s (fun q =>
        isIn q g .draining 0x01 ∧ hasEvent q g evStateChange ∧ getReg q g 0x008 = ctrlWord bc tmo 0 ∧ pairOk q g 0x008 = true
        ∧ Map.look q.rg.drains g = some ⟨p.count, drainLimit q g, 0x01⟩
        ∧ regsBut [(g, 0x008), (g, 0x00C)] p q ∧ blocksBut [g] p q ∧ keepsBut [.regs, .blocks, .alerts, .drains] p q))
    ∧ (stateOf p g = .enabled → noItems g = true → g ≠ .bell →
      Completes (.ctrlDisable ag g bc tmo) s (fun q =>
        isIn q g .disabled 0x01 ∧ getReg q g 0x008 = ctrlWord bc tmo 0 ∧ blocksBut [g] p q ∧ keepsBut [.regs, .blocks, .alerts, .drains] p q))
    ∧ (stateOf p g = .disabled ∨ stateOf p g = .draining ∨ stateOf p g = .quarantined →
      Completes (.ctrlDisable ag g bc tmo) s (fun q =>
        getReg q g 0x008 = ctrlWord bc tmo 0 ∧ pairOk q g 0x008 = true ∧ regsBut [(g, 0x008), (g, 0x00C)] p q ∧ keepsBut [.regs] p q))
    ∧ (stateOf p g = .enabling →
      Completes (.ctrlDisable ag g bc tmo) s (fun q =>
        getReg q g 0x008 = ctrlWord bc tmo 0 ∧ g ∈ q.rg.undo ∧ keepsBut [.regs, .undo] p q))
    ∧ (stateOf p g = .fault → Map.look p.rg.drains g = none →
      Completes (.ctrlDisable ag g bc tmo) s (fun q =>
        isIn q g .disabled 0x01 ∧ getReg q g 0x008 = ctrlWord bc tmo 0 ∧ blocksBut [g] p q ∧ keepsBut [.regs, .blocks, .alerts] p q)))

/-- SELF_CHECK_DONE of an ENABLING block that is no core, mill, selvage engine or thimble, and no stack controller with recorded tables: a pass makes it ENABLED with its cause kept (BELL is then
JOINING with the committed configuration in force, and an LNK block whose port is LIT starts ALIGN), unless it was told meanwhile to disable; a failure makes it FAULT with cause 0x09. A mill passes no
earlier than its test's full time; a selvage engine that fails is FAULT with cause 0x09, one that passes has its 32 transmit rings swept and LOCKED, its enable driven and its ports DARK. A stack controller that passes is ENABLED with the table entry that
the boot flash records for it loaded. A block that is not ENABLING is left as it was. DRAIN_COMPLETE:
a DRAINING block whose tally holds nothing, whose stop records are written and repair copy is over, and whose contained blocks have ended their drains becomes DISABLED with the cause of its entry, or
ENABLING with 0x01 when the run value committed last is an enable in service and it is no mill of a stack in self-refresh, and an LNK block's link is DOWN; with items held, a context stopping or a row under copy nothing changes. A block
whose CTRL fails its complement check then is in FAULT with cause 0x03. A die router that comes into service takes the replies that waited for one.
DRAIN_TIMEOUT: before the transition plus the timeout, and while a row is under copy, nothing changes; from then on a PRK block's queue is ended and emptied, an armed power change ends, drain_timeout is set
and the block leaves its drain DISABLED with cause 0x02, and so does a block of a page that holds nothing else. -/
def Obligations.EnablingAndDrainsEnd : Prop :=
  (∀ (s : State) (g : Page) (pass : Bool), stateOf s.pkg g = .enabling → coreOfPage g = none → millOfPage g = none → selOfPage g = none → g.type ≠ 0x0B →
    (∀ kv, kv ∈ s.pkg.boot.tables → kv.1.1 ≠ g) →
    Completes (.selfCheckDone g pass) s (fun q =>
      (pass = true → g ∉ s.pkg.rg.undo → (g = .bell → bellPairsOk s.pkg = true) → isIn q g .enabled (block s.pkg g).cause ∧ hasEvent q g evStateChange
        ∧ (s.pkg.rv.unsent = [] ∨ g.type ≠ 0x19 → blocksBut [g] s.pkg q ∧ keepsBut [.blocks, .alerts, .bellU, .ports] s.pkg q)
        ∧ (∀ n, portOfPkg q n = if g = .lnk n ∧ (portOfPkg s.pkg n).lstate = .down ∧ (portOfPkg s.pkg n).optic = .lit then
              { portOfPkg s.pkg n with lstate := .align, stateAt := s.pkg.count, noVersion := false, busyUntil := s.pkg.count
                                       wordAt := s.pkg.count + 64, markAt := s.pkg.count } else portOfPkg s.pkg n)
        ∧ keepsBut [.blocks, .alerts, .bellU, .rv, .routers, .ports] s.pkg q ∧ (g.type = 0x19 → g.inst < 4 → q.rv.unsent = [])
        ∧ (g = .bell → q.bellU.state = .joining ∧ q.bellU.inForce = bellRegs s.pkg) ∧ (g ≠ .bell → q.bellU = s.pkg.bellU))
      ∧ (pass = false → isIn q g .fault 0x09 ∧ g ∉ q.rg.undo ∧ blocksBut [g] s.pkg q ∧ keepsBut [.blocks, .alerts, .undo] s.pkg q)))
  ∧ (∀ (s : State) (m : MillId) (pass : Bool), stateOf s.pkg (.mill m) = .enabling →
      (block s.pkg (.mill m)).since + testCycles (bits (getReg s.pkg (.mill m) 0x088) 1 0) ≤ s.pkg.count → pairOk s.pkg (.mill m) 0x088 = true → Page.mill m ∉ s.pkg.rg.undo →
      Completes (.selfCheckDone (.mill m) pass) s (fun q => stateOf q (.mill m) = if pass then .enabled else .fault))
  ∧ (∀ (s : State) (n : Fin 12) (t i : Nat) (v : Word), stateOf s.pkg (.memc n) = .enabling → Page.memc n ∉ s.pkg.rg.undo →
      s.pkg.boot.tables = [((.memc n, t, i), v)] →
      Completes (.selfCheckDone (.memc n) true) s (fun q => stateOf q (.memc n) = .enabled ∧ entryVal q (.memc n) t i = v ∧ entryOk q (.memc n) t i = true
        ∧ (∀ h u j, (h, u, j) ≠ (.memc n, t, i) → getEntry q h u j = getEntry s.pkg h u j)
        ∧ (t ≠ 2 ∨ bit v 31 = false → keepsBut [.blocks, .alerts, .tables] s.pkg q)))
  ∧ (∀ (s : State) (e : Fin 16), stateOf s.pkg (.sel e) = .enabling →
      Completes (.selfCheckDone (.sel e) false) s (fun q => isIn q (.sel e) .fault 0x09)
      ∧ (Page.sel e ∉ s.pkg.rg.undo → Completes (.selfCheckDone (.sel e) true) s (fun q => stateOf q (.sel e) = .enabled ∧ (selOf q e).laserEn = true
          ∧ (selOf q e).laserFault = false ∧ (selOf q e).loaded = true ∧ (block q (.sel e)).tin = (block s.pkg (.sel e)).tin + 32
          ∧ (block q (.sel e)).tout = (block s.pkg (.sel e)).tout + 32 ∧ (∀ r, (ringOf q e r).state = if ringRx r = true then .parked else .locked)
          ∧ ∀ h, (portOfPkg q (portOf2 e h)).optic = .dark)))
  ∧ (∀ (s : State) (g : Page) (d : Drain), Map.look s.pkg.rg.drains g = some d → stateOf s.pkg g = .draining → tallyHeld s.pkg g = 0 →
      containedDone s.pkg g = true → stopsOver s.pkg g = true → copying s.pkg g = false →
      Completes (.drainComplete g) s (fun q =>
        Map.look q.rg.drains g = none
        ∧ (∀ n, lnkOfPage g = some n → (portOfPkg q n).lstate = .down)
        ∧ (pairOk s.pkg g 0x008 = false → isIn q g .fault 0x03 ∧ hasEvent q g evCmpFail)
        ∧ (lnkOfPage g = none → pairOk s.pkg g 0x008 = true →
            (if ctrlRun s.pkg g = 1 ∧ inService s.pkg g = true ∧ stackRests s.pkg g = false then isIn q g .enabling 0x01 else isIn q g .disabled d.cause)
            ∧ blocksBut [g] s.pkg q ∧ keepsBut [.blocks, .alerts, .drains] s.pkg q)))
  ∧ (∀ (s : State) (g : Page), tallyHeld s.pkg g ≠ 0 ∨ Map.look s.pkg.rg.drains g = none ∨ stopsOver s.pkg g = false ∨ copying s.pkg g = true →
      Completes (.drainComplete g) s (fun q => keepsBut [] s.pkg q))
  ∧ (∀ (s : State) (g : Page) (d : Drain), Map.look s.pkg.rg.drains g = some d →
      Completes (.drainTimeout g) s (fun q =>
        (s.pkg.count < d.start + d.limit ∨ copying s.pkg g = true → keepsBut [] s.pkg q)
        ∧ (d.start + d.limit ≤ s.pkg.count → d.cause ≠ 0x02 → stateOf s.pkg g = .draining → pairOk s.pkg g 0x008 = true → ctrlRun s.pkg g ≠ 1 →
            (g.type = 0x02 ∨ g.type = 0x04 ∨ (g.type = 0x05 ∧ s.pkg.pw.trans = none) ∨ g.type = 0x08 ∨ g.type = 0x09 ∨ ∃ n : Fin 32, g = .prk n ∧ (portOfPkg s.pkg n).queue = []) →
            isIn q g .disabled 0x02 ∧ hasEvent q g evDrainTimeout ∧ Map.look q.rg.drains g = none ∧ blocksBut [g] s.pkg q
              ∧ keepsBut [.blocks, .alerts, .drains, .ports] s.pkg q)
        ∧ (∀ n : Fin 32, g = .prk n → d.start + d.limit ≤ s.pkg.count → d.cause ≠ 0x02 → (portOfPkg q n).queue = [])
        ∧ (∀ t, g = .pwr → s.pkg.pw.trans = some t → d.start + d.limit ≤ s.pkg.count → d.cause ≠ 0x02 → q.pw.trans = if t.running = true then some t else none)))

/-- For every page whose block is ENABLED and has items, CTRL_DISABLE let through (with no margin run) completes with the block DRAINING, and every
block that R396 says it contains (a cluster's cores and bobbins, a stack controller's mills, a die router's PRK and LNK blocks) that was ENABLED is
DRAINING too where its CTRL passes its complement check (R42); a contained block in another state keeps its state. -/
def Obligations.ContainedBlocksDrainTogether : Prop :=
  ∀ (s : State) (ag : Agent) (g : Page) (bc : BitVec 16) (tmo : BitVec 12), letThrough true s.pkg ag g 0x008 → s.pkg.dbg.margin = none →
    stateOf s.pkg g = .enabled → noItems g = false → (∀ h, h ∈ contained g → stateOf s.pkg h = .enabled → pairOk s.pkg h 0x008 = true) →
    Completes (.ctrlDisable ag g bc tmo) s (fun q =>
      stateOf q g = .draining
      ∧ ∀ h, h ∈ contained g → stateOf q h = if stateOf s.pkg h = .enabled then .draining else stateOf s.pkg h)

/-- A write of another width than 4 bytes, or off 4-byte alignment, ends refused.unmapped and is counted in the CMN page of the die that holds the
target with its refused_access event, and so is it in a page that it names and that is not OFF; no register outside that count and no memory changes. An aligned write of an agent other than the debug
port to a register whose checks refuse it ends with that check's status, counted likewise. An aligned write to EVT_MASK that is let through
stores its defined bits and nothing else of the page; one to a reserved offset (0x040 to 0x07F) is no refusal and changes nothing. An aligned
write of a Reeve core to Reeve SRAM ends done, the four bytes read as written, little-endian, and every other byte of memory as before. -/
def Obligations.RegisterWriteTakenOrRefused : Prop :=
  (∀ (s : State) (ag : Agent) (a w : Nat) (v : Word), w ≠ 4 →
    Completes (.registerWrite ag a w v) s (fun q => let c := cmnOfOffset s.pkg a
      puts [.access ag Status.refusedUnmapped 0] s.pkg q ∧ getReg64 q c 0x168 = getReg64 s.pkg c 0x168 + 1
      ∧ hasEvent q c evRefusedAccess
      ∧ (∀ g off, rangeOf a = .page g off → pageExists g = true → stateOf s.pkg g ≠ .off → hasEvent q g evRefusedAccess)
      ∧ regsBut [(c, 0x168), (c, 0x16C)] s.pkg q ∧ (∀ g, g ≠ c → (∀ off, rangeOf a ≠ .page g off) → block q g = block s.pkg g)
      ∧ keepsBut [.out, .regs, .blocks, .alerts] s.pkg q))
  ∧ (∀ (s : State) (ag : Agent) (a : Nat) (v : Word) (g : Page) (off : Nat), ag ≠ .debug → a % 4 ≠ 0 → rangeOf a = .page g off →
    Completes (.registerWrite ag a 4 v) s (fun q => let c := cmnOfOffset s.pkg a
      puts [.access ag Status.refusedUnmapped 0] s.pkg q ∧ getReg64 q c 0x168 = getReg64 s.pkg c 0x168 + 1
      ∧ hasEvent q c evRefusedAccess ∧ (pageExists g = true → stateOf s.pkg g ≠ .off → hasEvent q g evRefusedAccess)
      ∧ regsBut [(c, 0x168), (c, 0x16C)] s.pkg q ∧ blocksBut [c, g] s.pkg q ∧ keepsBut [.out, .regs, .blocks, .alerts] s.pkg q))
  ∧ (∀ (s : State) (ag : Agent) (a : Nat) (v : Word) (g : Page) (off : Nat), ag ≠ .debug → a % 4 = 0 → rangeOf a = .page g off →
      regStatus true s.pkg ag g off ≠ Status.done →
    Completes (.registerWrite ag a 4 v) s (fun q => let c := cmnOfPage g
      puts [.access ag (regStatus true s.pkg ag g off) 0] s.pkg q ∧ getReg64 q c 0x168 = getReg64 s.pkg c 0x168 + 1
      ∧ hasEvent q c evRefusedAccess ∧ (pageExists g = true → stateOf s.pkg g ≠ .off → hasEvent q g evRefusedAccess)
      ∧ regsBut [(c, 0x168), (c, 0x16C)] s.pkg q ∧ blocksBut [c, g] s.pkg q ∧ keepsBut [.out, .regs, .blocks, .alerts] s.pkg q))
  ∧ (∀ (s : State) (ag : Agent) (a : Nat) (v : Word) (g : Page), a % 4 = 0 → rangeOf a = .page g 0x01C → letThrough true s.pkg ag g 0x01C →
    Completes (.registerWrite ag a 4 v) s (fun q => let p := countDebug s.pkg ag
      (block q g).mask = v &&& 0xFFFF007F#32 ∧ (v &&& ~~~0xFFFF007F#32 ≠ 0 → hasEvent q g evRsvdWrite)
      ∧ (v &&& ~~~0xFFFF007F#32 = 0 → (block q g).evt = (block p g).evt) ∧ stateOf q g = stateOf p g
      ∧ puts [.access ag Status.done 0] p q ∧ blocksBut [g] p q ∧ keepsBut [.out, .blocks, .alerts] p q))
  ∧ (∀ (s : State) (ag : Agent) (a : Nat) (v : Word) (g : Page) (off : Nat), a % 4 = 0 → rangeOf a = .page g off → 0x040 ≤ off → off < 0x080 →
      letThrough true s.pkg ag g off →
    Completes (.registerWrite ag a 4 v) s (fun q =>
      puts [.access ag Status.done 0] (countDebug s.pkg ag) q ∧ keepsBut [.out] (countDebug s.pkg ag) q))
  ∧ (∀ (s : State) (n : Fin 4) (o : Nat) (v : Word), o % 4 = 0 → o < 0x800000 → Memory.wf s.pkg.mem = true →
    Completes (.registerWrite (.reeve n) (0x015000000000 + o) 4 v) s (fun q =>
      (∀ i, i < 4 → memByte q (0x015000000000 + o + i) = BitVec.ofNat 8 (v.toNat / 256 ^ i))
      ∧ (∀ k, (k < 0x015000000000 + o ∨ 0x015000000000 + o + 4 ≤ k) → memByte q k = memByte s.pkg k)
      ∧ puts [.access (.reeve n) Status.done 0] s.pkg q ∧ keepsBut [.out, .mem] s.pkg q))

/-- ROUND_BOUNDARY at slot 0 of a round not yet begun: every flow's budget is unspent, the round is marked begun, and every port that is UP on Sitre 2
puts out its bell frame; at any other instant nothing changes. BELL_FRAME_RECEIVE on a port that carries bell frames: a payload whose complement
fails sets cmp_fail in BELL and changes nothing else; a valid one becomes what the port echoes with its arrival time, marks the round heard and
names the peer's hops, root and lock, and with echo_valid = 1 gives delay ((t4 - t1) - (t3 - t2)) / 2 and offset ((t2 - t1) - (t4 - t3)) / 2 in
1/16 tick. On the parent port a measurement sets the slew, but in JOINING before the step it steps bell time by the offset in whole ticks, once; on any
other port an offset of more than 16 ticks sets offset_alarm. On a port that carries none nothing changes. -/
def Obligations.BellFramesSentAndMeasured : Prop :=
  (∀ s : State, slotOf s.pkg.bell = 0 → (∀ r, s.pkg.bellU.roundDone = some r → r < roundNow s.pkg) →
    Completes .roundBoundary s (fun q => q.budget = [] ∧ q.bellU.roundDone = some (roundNow s.pkg) ∧ q.bell = s.pkg.bell
      ∧ (∀ n, carriesBell s.pkg n = true → Out.frame n (frameBytes 2 0 (bellFrame s.pkg n)) ∈ q.out)))
  ∧ (∀ s : State, (slotOf s.pkg.bell ≠ 0 ∨ ∃ r, s.pkg.bellU.roundDone = some r ∧ roundNow s.pkg ≤ r) →
    Completes .roundBoundary s (fun q => keepsBut [] s.pkg q))
  ∧ (∀ (s : State) (n : Fin 32) (b : List Byte) (fr : BitVec 4), carriesBell s.pkg n = false →
    Completes (.bellFrameReceive n b fr) s (fun q => keepsBut [] s.pkg q))
  ∧ (∀ (s : State) (n : Fin 32) (b : List Byte) (fr : BitVec 4), carriesBell s.pkg n = true → complOk 32 b = false →
    Completes (.bellFrameReceive n b fr) s (fun q => hasEvent q .bell evCmpFail ∧ blocksBut [.bell] s.pkg q ∧ keepsBut [.blocks, .alerts] s.pkg q))
  ∧ (∀ (s : State) (n : Fin 32) (b : List Byte) (fr : BitVec 4), carriesBell s.pkg n = true → complOk 32 b = true →
      let p := s.pkg
      let depart : DWord := BitVec.ofNat 64 (leField b 0 8)
      let t4 : Int := p.bell.toNat * 16 + fr.toNat
      let t3 : Int := depart.toNat * 16 + (leField b 8 1 % 16 : Nat)
      let t2 : Int := (leField b 24 8 * 16 + leField b 8 1 / 16 : Nat)
      let t1 : Int := (leField b 16 8 * 16 + leField b 15 1 % 16 : Nat)
      let meas := (leField b 14 1).testBit 5
      let ofs := ((t2 - t1) - (t4 - t3)) / 2
      Completes (.bellFrameReceive n b fr) s (fun q =>
        (meas = false ∨ p.bellU.parent ≠ some n →
          (bellPort q n).echo = some ⟨depart, leField b 8 1 % 16, p.bell, fr.toNat⟩ ∧ (bellPort q n).arrived = true
          ∧ (bellPort q n).peer = some ⟨leField b 9 1 % 16, leField b 9 1 / 16 % 4, (leField b 9 1).testBit 6, BitVec.ofNat 16 (leField b 10 2), BitVec.ofNat 16 (leField b 12 2)⟩
          ∧ (bellPort q n).dly = (if meas then some ((((t4 - t1) - (t3 - t2)) / 2).toNat % 2 ^ 31) else (bellPort p n).dly)
          ∧ (bellPort q n).ofs = (if meas then ofs else (bellPort p n).ofs)
          ∧ (∀ m, m ≠ n → bellPort q m = bellPort p m) ∧ q.bellU.slew = p.bellU.slew
          ∧ (meas = true → 256 < ofs.natAbs → hasEvent q .bell 22) ∧ blocksBut [.bell] p q ∧ keepsBut [.bellU, .blocks, .alerts] p q)
        ∧ (meas = true → p.bellU.parent = some n → ¬(p.bellU.state = .joining ∧ p.bellU.stepped = false) →
          q.bellU.slew = ofs.tdiv 16 ∧ (bellPort q n).ofs = ofs ∧ keepsBut [.bellU] p q)
        ∧ (meas = true → p.bellU.parent = some n → p.bellU.state = .joining → p.bellU.stepped = false →
          q.bell = BitVec.ofInt 64 ((p.bell.toNat : Int) + ofs.tdiv 16) ∧ q.bellU.stepped = true)))

/-- ROUND_JUDGEMENT, at slot 512 of a round not yet judged, marks the round judged while bell time is not stepped; at any other instant nothing changes; an UNJOINED or UNALIGNED unit
stays so. A JOINING package that is root entry 0, with no parent, becomes LOCKED with event joined, at hop 0. A LOCKED follower that heard no bell frame in this
round nor the one before, and whose parent measured no offset over 16 ticks, enters HOLDOVER with its event; one in HOLDOVER past its limit of rounds, still
unheard, enters UNALIGNED with its event. PPS_EDGE sets tenm_ok as given and pps_ok when the edge before lay 1 s within 1 ms ago; at a root with ext_ref
the first edge since the configuration sets bell time to EPOCH where the package has not locked before, and otherwise, k edges after it, slews toward
EPOCH + k x 10^9; every edge is counted; elsewhere bell time and slew are kept.
REF_LOST clears the bits lost, and at such a root stops the slew and sets ref_lost. REFERENCE_RESTORED sets tenm_ok. -/
def Obligations.BellJudgementAndReferences : Prop :=
  (∀ s : State, (slotOf s.pkg.bell ≠ 512 ∨ ∃ r, s.pkg.bellU.judged = some r ∧ roundNow s.pkg ≤ r) →
    Completes .roundJudgement s (fun q => keepsBut [] s.pkg q))
  ∧ (∀ s : State, slotOf s.pkg.bell = 512 → (∀ r, s.pkg.bellU.judged = some r → r < roundNow s.pkg) → (enabled s.pkg hubCmn = false ∨ (neighbours s.pkg = [] ∧ pairOk s.pkg hubCmn 0x090 = true)) →
    Completes .roundJudgement s (fun q => (q.bell = s.pkg.bell → q.bellU.judged = some (roundNow s.pkg))
      ∧ (s.pkg.bellU.state = .unjoined ∨ s.pkg.bellU.state = .unaligned → q.bellU.state = s.pkg.bellU.state ∧ keepsBut [.bellU, .blocks, .alerts] s.pkg q)
      ∧ (s.pkg.bellU.state = .joining → isRootEntry s.pkg 0 = true → s.pkg.bellU.parent = none →
          q.bellU.state = .locked ∧ q.bellU.hops = 0 ∧ q.bellU.parent = none ∧ hasEvent q .bell 16)
      ∧ ((∀ k, isRootEntry s.pkg k = false) → (∀ n, (bellPort s.pkg n).arrived = false ∧ 1 ≤ (bellPort s.pkg n).silent) →
          (s.pkg.bellU.state = .locked → 1 ≤ s.pkg.bellU.rootSilent →
            (∀ n, s.pkg.bellU.parent = some n → (bellPort s.pkg n).ofs.natAbs ≤ 256) → q.bellU.state = .holdover ∧ hasEvent q .bell 17)
          ∧ (s.pkg.bellU.state = .holdover → s.pkg.bellU.inForce.holdLimit ≤ s.pkg.bellU.holdRounds → q.bellU.state = .unaligned ∧ hasEvent q .bell 19))))
  ∧ (∀ (s : State) (ten : Bool), Completes (.ppsEdge ten) s (fun q =>
      q.bellU.tenmOk = ten
      ∧ q.bellU.ppsOk = (match s.pkg.bellU.ppsAt with
          | some t => decide (t + 999000000 ≤ s.pkg.count) && decide (s.pkg.count ≤ t + 1001000000) | none => false)
      ∧ q.bellU.ppsEdges = s.pkg.bellU.ppsEdges + 1
      ∧ (isRoot s.pkg = true → s.pkg.bellU.inForce.extRef = true →
          (s.pkg.bellU.ppsEdges = 0 → s.pkg.bellU.stepped = false → q.bell = s.pkg.bellU.inForce.epoch ∧ q.bellU.stepped = true)
          ∧ (s.pkg.bellU.ppsEdges ≠ 0 ∨ s.pkg.bellU.stepped = true → q.bell = s.pkg.bell
              ∧ q.bellU.slew = ((s.pkg.bellU.inForce.epoch.toNat + s.pkg.bellU.ppsEdges * 1000000000 : Nat) : Int) - s.pkg.bell.toNat))
      ∧ (isRoot s.pkg = false ∨ s.pkg.bellU.inForce.extRef = false → q.bellU.slew = s.pkg.bellU.slew ∧ keepsBut [.bellU] s.pkg q)))
  ∧ (∀ (s : State) (pps ten : Bool), Completes (.refLost pps ten) s (fun q =>
      q.bellU.ppsOk = (s.pkg.bellU.ppsOk && !pps) ∧ q.bellU.tenmOk = (s.pkg.bellU.tenmOk && !ten) ∧ q.bellU.state = s.pkg.bellU.state
      ∧ (isRoot s.pkg = true → s.pkg.bellU.inForce.extRef = true → (pps || ten) = true → hasEvent q .bell 20 ∧ q.bellU.slew = 0)
      ∧ (isRoot s.pkg = false ∨ (pps || ten) = false → q.rg.blocks = s.pkg.rg.blocks)
      ∧ blocksBut [.bell] s.pkg q ∧ keepsBut [.bellU, .blocks, .alerts] s.pkg q))
  ∧ (∀ s : State, Completes .referenceRestored s (fun q =>
      q.bellU.tenmOk = true ∧ q.bellU.slew = s.pkg.bellU.slew ∧ q.bellU.state = s.pkg.bellU.state ∧ keepsBut [.bellU] s.pkg q))

/-- On a page that is OFF these commands write nothing: each is counted as refused. On a page that is not OFF, PRK_TBL_DATA_WRITE: a wrong complement sets pair_err, an entry 0 other than 0x8000 sets rsvd_write, a write while a swap of
the port is armed sets tbl_locked, and none of them writes; any other write stores the entry (reserved bits dropped with rsvd_write) with its complement in the standby
copy at TBL_ADDR.slot and unseals that copy. PRK_SEAL and PRK_UNSEAL: while a swap of the port is armed only tbl_locked is set; else the standby copy
is sealed exactly when the checks of R62 hold, with seal_refused when they do not, or is unsealed. PRK_SWAP_ARM with a mask arms the swap only when the
round is 2 or more and less than 2^23 rounds ahead, every masked port's standby copy is sealed and no swap is armed; otherwise nothing is armed and the event of every
condition not met is set. PRK_SWAP_CANCEL, or a mask of 0, leaves no swap armed and sets no event. PRICKING_SWAP at slot 0 of the armed round disarms,
exchanges the copies of every masked port and of no other, takes from a masked port's queue every job-flow item whose flow holds no slot in the new active
copy and no other, and sets swap_done; at any other instant nothing changes. -/
def Obligations.PrickingsWrittenSealedAndSwapped : Prop :=
  (∀ (s : State) (n : Fin 32) (v : Word), stateOf s.pkg (.prk n) ≠ .off →
    let p := s.pkg
    let slot := bits (getReg p (.prk n) 0x100) 11 0
    Completes (.prkTblDataWrite n v) s (fun q =>
      (bits v 31 16 + bits v 15 0 ≠ 0xFFFF → hasEvent q (.prk n) evPairErr ∧ blocksBut [.prk n] p q ∧ keepsBut [.blocks, .alerts] p q)
      ∧ (bits v 31 16 + bits v 15 0 = 0xFFFF → slot = 0 → bits v 15 0 ≠ 0x8000 →
          hasEvent q (.prk n) evRsvdWrite ∧ blocksBut [.prk n] p q ∧ keepsBut [.blocks, .alerts] p q)
      ∧ (bits v 31 16 + bits v 15 0 = 0xFFFF → ¬(slot = 0 ∧ bits v 15 0 ≠ 0x8000) → swapArmedOn p n = true →
          hasEvent q (.prk n) 17 ∧ blocksBut [.prk n] p q ∧ keepsBut [.blocks, .alerts] p q)
      ∧ (bits v 31 16 + bits v 15 0 = 0xFFFF → ¬(slot = 0 ∧ bits v 15 0 ≠ 0x8000) → swapArmedOn p n = false →
          entryVal q (.prk n) (standbyCopy p n) slot = BitVec.ofNat 32 (bits v 15 0 &&& 0x8FFF)
          ∧ entryOk q (.prk n) (standbyCopy p n) slot = true
          ∧ portOfPkg q n = (portOfPkg p n).setSealed (standbyCopy p n) false ∧ (∀ m, m ≠ n → portOfPkg q m = portOfPkg p m)
          ∧ (∀ g t i, ¬(g = .prk n ∧ t = standbyCopy p n ∧ i = slot) → getEntry q g t i = getEntry p g t i)
          ∧ (bits v 14 12 = 0 → q.rg.blocks = p.rg.blocks) ∧ (bits v 14 12 ≠ 0 → hasEvent q (.prk n) evRsvdWrite ∧ blocksBut [.prk n] p q)
          ∧ regsBut [(.prk n, 0x100)] p q ∧ keepsBut [.tables, .ports, .regs, .blocks, .alerts] p q)))
  ∧ (∀ (s : State) (n : Fin 32), stateOf s.pkg (.prk n) ≠ .off →
    let p := s.pkg
    (swapArmedOn p n = true →
      Completes (.prkSeal n) s (fun q => hasEvent q (.prk n) 17 ∧ blocksBut [.prk n] p q ∧ keepsBut [.blocks, .alerts] p q)
      ∧ Completes (.prkUnseal n) s (fun q => hasEvent q (.prk n) 17 ∧ blocksBut [.prk n] p q ∧ keepsBut [.blocks, .alerts] p q))
    ∧ (swapArmedOn p n = false →
      Completes (.prkSeal n) s (fun q =>
        (portOfPkg q n).sealed (standbyCopy p n) = sealOk p n ∧ (sealOk p n = false → hasEvent q (.prk n) 16)
        ∧ (sealOk p n = true → q.rg.blocks = p.rg.blocks) ∧ (portOfPkg q n).standbyRes = reservedCount p n (standbyCopy p n)
        ∧ (∀ m, m ≠ n → portOfPkg q m = portOfPkg p m) ∧ keepsBut [.ports, .regs, .blocks, .alerts] p q)
      ∧ Completes (.prkUnseal n) s (fun q =>
        (portOfPkg q n).sealed (standbyCopy p n) = false ∧ (∀ m, m ≠ n → portOfPkg q m = portOfPkg p m) ∧ keepsBut [.ports, .regs] p q)))
  ∧ (∀ (s : State) (d : Fin 4) (r : BitVec 24) (m : BitVec 8), stateOf s.pkg (.drt d) ≠ .off → m ≠ 0 →
    let p := s.pkg
    let k := (r.toNat + 2 ^ 24 - roundNow p % 2 ^ 24) % 2 ^ 24
    let sealedAll := ∀ n, n ∈ portsOf d → m.toNat.testBit (portIdx n) = true → (portOfPkg p n).sealed (standbyCopy p n) = true
    (2 ≤ k → k < 2 ^ 23 → sealedAll → (router p d).armed = none →
      Completes (.prkSwapArm d r m) s (fun q => (router q d).armed = some (r.toNat, m.toNat)
        ∧ (∀ e, e ≠ d → router q e = router p e) ∧ keepsBut [.routers, .regs] p q))
    ∧ (¬(2 ≤ k ∧ k < 2 ^ 23 ∧ sealedAll ∧ (router p d).armed = none) →
      Completes (.prkSwapArm d r m) s (fun q =>
        (¬(2 ≤ k ∧ k < 2 ^ 23) → hasEvent q (.drt d) 16) ∧ (¬sealedAll → hasEvent q (.drt d) 17)
        ∧ ((router p d).armed ≠ none → hasEvent q (.drt d) 18) ∧ blocksBut [.drt d] p q ∧ keepsBut [.blocks, .alerts] p q)))
  ∧ (∀ (s : State) (d : Fin 4) (r : BitVec 24), stateOf s.pkg (.drt d) ≠ .off →
      Completes (.prkSwapCancel d r) s (fun q => (router q d).armed = none ∧ (router q d).inq = (router s.pkg d).inq
        ∧ (∀ e, e ≠ d → router q e = router s.pkg e) ∧ keepsBut [.routers, .regs] s.pkg q)
      ∧ Completes (.prkSwapArm d r 0) s (fun q => (router q d).armed = none ∧ keepsBut [.routers, .regs] s.pkg q))
  ∧ (∀ (s : State) (d : Fin 4) (r m : Nat), (router s.pkg d).armed = some (r, m) → pairOk s.pkg (.drt d) 0x100 = true →
      Completes (.prickingSwap d) s (fun q =>
        (roundNow s.pkg % 2 ^ 24 = r → slotOf s.pkg.bell = 0 →
          (router q d).armed = none ∧ (∀ e, e ≠ d → router q e = router s.pkg e) ∧ hasEvent q (.drt d) 19 ∧ (router q d).swapDone = BitVec.ofNat 32 (r * 256 + m)
          ∧ (∀ n, (portOfPkg q n).active = if n ∈ portsOf d ∧ m.testBit (portIdx n) = true then 1 - (portOfPkg s.pkg n).active else (portOfPkg s.pkg n).active)
          ∧ ((∀ n, n ∈ portsOf d → m.testBit (portIdx n) = true → copyOk s.pkg n (standbyCopy s.pkg n) = true) →
              ∀ n, (portOfPkg q n).queue = if n ∈ portsOf d ∧ m.testBit (portIdx n) = true then
                  (portOfPkg s.pkg n).queue.filter (fun e => !(e.frame.cls == 1 && (copySlots s.pkg n (standbyCopy s.pkg n) e.frame.flow).isEmpty))
                else (portOfPkg s.pkg n).queue))
        ∧ (¬(roundNow s.pkg % 2 ^ 24 = r ∧ slotOf s.pkg.bell = 0) → keepsBut [] s.pkg q)))
  ∧ (∀ (s : State) (d : Fin 4), (router s.pkg d).armed = none → Completes (.prickingSwap d) s (fun q => keepsBut [] s.pkg q))
  ∧ (∀ (s : State) (d : Fin 4) (n : Fin 32) (v : Word) (r : BitVec 24) (m : BitVec 8),
    let off (g : Page) (c : Instr) : Prop := stateOf s.pkg g = .off →
      Completes c s (fun q => gains 1 s.pkg q (cmnOfPage g) 0x168 ∧ blocksBut [cmnOfPage g] s.pkg q ∧ keepsBut [.regs, .blocks, .alerts] s.pkg q)
    off (.prk n) (.prkTblDataWrite n v) ∧ off (.prk n) (.prkSeal n) ∧ off (.prk n) (.prkUnseal n)
      ∧ off (.drt d) (.prkSwapArm d r m) ∧ off (.drt d) (.prkSwapCancel d r))

/-- FLOW_DATA_COMMIT on a page that is not OFF: with both complements matching, the entry at FLOW_ADDR.flow holds the staged words' defined bits with
their complements (reserved bits that were set give rsvd_write) and every other table entry is as before; otherwise it is discarded with pair_err. A
read of FLOW_DATA1 that is let through returns the committed word at FLOW_ADDR.flow, and a read of a table's data window returns the entry at its
address register. With inc = 1 in the address register each of these accesses advances the index by one within its width and keeps the
register's other bits; with inc = 0, and at a discarded commit, the address stays. -/
def Obligations.FlowTableAndTableReads : Prop :=
  (∀ (s : State) (d : Fin 4) (c : Word), stateOf s.pkg (.drt d) ≠ .off →
    let p := s.pkg
    let v0 := getReg p (.drt d) 0x124
    let v1 := getReg p (.drt d) 0x128
    let a := getReg p (.drt d) 0x120
    let f := bits a 11 0
    (getReg p (.drt d) 0x12C = ~~~v0 → c = ~~~v1 →
      Completes (.flowDataCommit d c) s (fun q =>
        flowData0 q d f = v0 &&& 0x8FFFFFFF#32 ∧ flowData1 q d f = v1 &&& 0xFFFF#32 ∧ flowOk q d f = true
        ∧ (∀ g t i, ¬(g = .drt d ∧ t = 1 ∧ (i = 2 * f ∨ i = 2 * f + 1)) → getEntry q g t i = getEntry p g t i)
        ∧ (v0 &&& 0x70000000#32 ≠ 0 ∨ v1 &&& 0xFFFF0000#32 ≠ 0 → hasEvent q (.drt d) evRsvdWrite)
        ∧ getReg q (.drt d) 0x120 = (if bit a 31 then withBits a 11 0 (f + 1) else a)
        ∧ regsBut [(.drt d, 0x120)] p q ∧ blocksBut [.drt d] p q ∧ keepsBut [.tables, .regs, .blocks, .alerts] p q))
    ∧ (getReg p (.drt d) 0x12C ≠ ~~~v0 ∨ c ≠ ~~~v1 →
      Completes (.flowDataCommit d c) s (fun q => hasEvent q (.drt d) evPairErr ∧ blocksBut [.drt d] p q ∧ keepsBut [.blocks, .alerts] p q)))
  ∧ (∀ (s : State) (ag : Agent) (d : Fin 4), letThrough false s.pkg ag (.drt d) 0x128 →
    Completes (.flowData1Read ag d) s (fun q => let p := countDebug s.pkg ag
      let a := getReg p (.drt d) 0x120
      puts [.access ag Status.done (flowData1 p d (bits a 11 0))] p q
      ∧ getReg q (.drt d) 0x120 = (if bit a 31 then withBits a 11 0 (bits a 11 0 + 1) else a)
      ∧ regsBut [(.drt d, 0x120)] p q ∧ keepsBut [.regs, .out] p q))
  ∧ (∀ (s : State) (ag : Agent) (g : Page), letThrough false s.pkg ag g (tableAddr g).1 →
    Completes (.tableDataReadInc ag g) s (fun q => let p := countDebug s.pkg ag
      let a := getReg p g (tableAddr g).1
      let w := (tableAddr g).2
      puts [.access ag Status.done (tableView p g)] p q
      ∧ getReg q g (tableAddr g).1 = (if bit a 31 then withBits a (w - 1) 0 (bits a (w - 1) 0 + 1) else a)
      ∧ regsBut [(g, (tableAddr g).1)] p q ∧ keepsBut [.regs, .out] p q))
/-- On a CORE page that is not OFF. CTX_START of an IDLE context of an ENABLED core whose CTX_ENTRY passes its check: RUNNING at the entry, every
register, latch and token zero, halt policy 0x1F; otherwise ctx_busy alone. CTX_STOP of a RUNNING or WAITING context: STOPPING with cause 2, its
wait retired; otherwise ctx_busy. CTX_CLEAR of a STOPPED context: IDLE; otherwise ctx_busy. CTX_STOP_COMPLETE of a STOPPING context with nothing
left to retire: STOPPED with ctx_stopped, and when the context's core-store range is not empty, lies in the store and its last line is awake, the
record's status, cause and program counter stand in that line and no byte outside it changes. INSTR_RETIRE of an ended instruction: it leaves the
list, its item ends with its status, the sticky latch takes it, and a status that the halt policy holds fatal makes a RUNNING context STOPPING with
cause 1. BASE_BOUND_COMMIT while RUNNING or WAITING: ctx_busy; else the defined bits are stored with their complement. Memory is in its canonical form. -/
def Obligations.ContextCommandsAndRetirement : Prop :=
  (∀ (s : State) (c : CtxId), stateOf s.pkg (.core c.core) ≠ .off →
    let p := s.pkg
    ((ctxOf p c).state = .idle → enabled p (.core c.core) = true → pairOk p (.core c.core) (ctxReg c 0x08) = true →
      Completes (.ctxStart c) s (fun q => (ctxOf q c).state = .running ∧ (ctxOf q c).pc = bits (ctxRegVal p c 0x08) 15 0
        ∧ (∀ n, sreg (ctxOf q c) n = 0 ∧ vreg (ctxOf q c) n = 0) ∧ (∀ t, Map.getD (ctxOf q c).toks t 0 = 0)
        ∧ (∀ t, Map.getD (ctxOf q c).latches t ⟨0, 0⟩ = ⟨0, 0⟩) ∧ (ctxOf q c).sticky = ⟨0, 0⟩ ∧ (ctxOf q c).policy = 0x1F
        ∧ ctxsBut [c] p q ∧ (Map.getD p.pw.die c.core.die 0 ≠ 1 → q.pw = p.pw)
        ∧ (Map.getD p.pw.die c.core.die 0 = 1 → Map.getD q.pw.die c.core.die 0 = 0) ∧ keepsBut [.ctxs, .pw] p q))
    ∧ (¬((ctxOf p c).state = .idle ∧ enabled p (.core c.core) = true) → Completes (.ctxStart c) s (fun q => onlyRaises (.core c.core) 29 p q))
    ∧ ((ctxOf p c).state = .running ∨ (ctxOf p c).state = .waiting →
      Completes (.ctxStop c) s (fun q => (ctxOf q c).state = .stopping ∧ (ctxOf q c).wait = none
        ∧ (∃ n, (ctxOf q c).stop = some ⟨0, 2, 0, 0, none, p.count, n⟩) ∧ ctxsBut [c] p q
        ∧ (∀ i, waitInst p c = some i → ∀ j, j ∈ q.insts → j.id ≠ i.id)
        ∧ (waitInst p c = none → q.insts = p.insts ∧ q.rg = p.rg ∧ q.out = p.out)
        ∧ keepsBut [.ctxs, .insts, .bobs, .regs, .blocks, .out, .alerts] p q))
    ∧ (¬((ctxOf p c).state = .running ∨ (ctxOf p c).state = .waiting) → Completes (.ctxStop c) s (fun q => onlyRaises (.core c.core) 29 p q))
    ∧ ((ctxOf p c).state = .stopped →
      Completes (.ctxClear c) s (fun q => (ctxOf q c).state = .idle ∧ (ctxOf q c).stop = none ∧ ctxsBut [c] p q
        ∧ Map.look q.pw.idleAt c.core.die = some p.count ∧ keepsBut [.ctxs, .pw] p q))
    ∧ ((ctxOf p c).state ≠ .stopped → Completes (.ctxClear c) s (fun q => onlyRaises (.core c.core) 29 p q)))
  ∧ (∀ (s : State) (c : CtxId), (ctxOf s.pkg c).state = .stopping → instsOf s.pkg c = [] →
    let p := s.pkg
    let off := pairBase p c .core + pairBound p c .core - 64
    Completes (.ctxStopComplete c) s (fun q => (ctxOf q c).state = .stopped ∧ hasEvent q (.core c.core) 25 ∧ ctxsBut [c] p q
      ∧ (Memory.wf p.mem = true → pairBound p c .core ≠ 0 → off + 64 ≤ StoreId.size (.core c.core) → rangeAsleep p (.core c.core) off 64 = false →
          memBytes q (StoreId.base (.core c.core) + off) 64
            = stopRecord p (ctxOf p c) ((ctxOf p c).stop.getD ⟨0, 0, 0, 0, none, 0, 0⟩)
          ∧ memBut (fun a => StoreId.base (.core c.core) + off ≤ a ∧ a < StoreId.base (.core c.core) + off + 64) p q)
      ∧ (pairBound p c .core = 0 → q.mem = p.mem ∧ q.poison = p.poison)
      ∧ keepsBut [.ctxs, .mem, .poison, .lost, .regs, .blocks, .alerts] p q))
  ∧ (∀ (s : State) (c : CtxId) (k : Nat) (i j : Inst) (st : Status), (instsOf s.pkg c)[k]? = some i → i.ended = some st → i.unit = .vector →
    vecFree (retire s.pkg i st) c.core = true → vecNext (retire s.pkg i st) c.core c.ctx.val = some j →
    Completes (.instrRetire c k) s (fun q => ∀ y, y ∈ q.insts → y.id = j.id → y.started = true))
  ∧ (∀ (s : State) (c : CtxId) (k : Nat) (i : Inst) (st : Status), (instsOf s.pkg c)[k]? = some i → i.ended = some st →
    (i.unit = .vector → ∀ j, j ∈ s.pkg.insts → j.ctx.core = c.core → j.unit = .vector → j.started = true ∨ j.ended.isSome = true) →
    let p := s.pkg
    Completes (.instrRetire c k) s (fun q => (∀ j, j ∈ q.insts → j ∈ p.insts ∧ j.id ≠ i.id)
      ∧ (ctxOf q c).pc = (ctxOf p c).pc ∧ (ctxOf q c).s = (ctxOf p c).s ∧ (ctxOf q c).v = (ctxOf p c).v ∧ ctxsBut [c] p q
      ∧ (fatal (ctxOf p c).policy st = false →
          puts [.item (.core c.core) i.id st] p q ∧ gains 1 p q (.core c.core) (instrCount c) ∧ q.insts = p.insts.filter (fun j => j.id != i.id)
          ∧ (block q (.core c.core)).tout = (block p (.core c.core)).tout + 1 ∧ (ctxOf q c).sticky = (ctxOf p c).sticky.take st
          ∧ (bit i.word 11 = true → Map.getD (ctxOf q c).toks (sigTok i.word) 0 = Map.getD (ctxOf p c).toks (sigTok i.word) 0 - 1))
      ∧ (fatal (ctxOf p c).policy st = true → (ctxOf p c).state = .running → i.unit ≠ .waitUnit →
          (ctxOf q c).state = .stopping ∧ ∃ r, (ctxOf q c).stop = some r ∧ r.status = st ∧ r.cause = 1 ∧ r.pc = i.pc)
      ∧ keepsBut [.ctxs, .insts, .bobs, .regs, .blocks, .out, .alerts] p q))
  ∧ (∀ (s : State) (c : CtxId) (k : Fin 6) (v : Word), stateOf s.pkg (.core c.core) ≠ .off →
    let p := s.pkg
    let o := ctxReg c (pairReg k).1
    (pairRange k v = false → Completes (.baseBoundCommit c k v) s (fun q => hasEvent q (.core c.core) evPairErr ∧ hasEvent q (.core c.core) evRsvdWrite
      ∧ blocksBut [.core c.core] p q ∧ keepsBut [.blocks, .alerts] p q))
    ∧ (pairRange k v = true → (ctxOf p c).state = .running ∨ (ctxOf p c).state = .waiting →
        Completes (.baseBoundCommit c k v) s (fun q => onlyRaises (.core c.core) 29 p q))
    ∧ (pairRange k v = true → (ctxOf p c).state ≠ .running → (ctxOf p c).state ≠ .waiting →
        Completes (.baseBoundCommit c k v) s (fun q => getReg q (.core c.core) o = v &&& (pairReg k).2 ∧ pairOk q (.core c.core) o = true
          ∧ (v &&& ~~~(pairReg k).2 = 0 → q.rg.blocks = p.rg.blocks) ∧ regsBut [(.core c.core, o), (.core c.core, o + 4)] p q
          ∧ blocksBut [.core c.core] p q ∧ keepsBut [.regs, .blocks, .alerts] p q)))

/-- ILV_COMMIT on a page that is not OFF: ilv = 0b11 is discarded; a change of ilv on a store that is not free sets cfg_busy alone; on a free
store it is stored with its complement, the fill starts and every byte of an awake bank reads zero. ILV_FILL_END after the fill's cycles ends
it. BANK_GATE_COMMIT stores the mask with its complement, and a new 1 on a bank with no request makes one. BANK_SLEEP of a pending bank that
nothing holds: the request ends done, the bank sleeps, gate_done is set, and bytes of other banks read as before. GATE_TIMEOUT past the limit: the
request ends failed.busy, the bank's bit is cleared and gate_timeout is set; before the limit nothing changes. BANK_WAKE_FILL_END after the
fill's cycles: the bank is awake and its bytes read zero. STORE_PATROL_READ with scrub_en after 65,536 cycles moves to the next row, and with
nothing found changes nothing else; with scrub_en clear it changes nothing. -/
def Obligations.StoreBanksAndFills : Prop :=
  (∀ (s : State) (st : StoreId) (v : Word), stateOf s.pkg st.page ≠ .off →
    let p := s.pkg
    let inBank (b a : Nat) := st.base ≤ a ∧ a < st.base + st.size ∧ bankOf p st (a - st.base) = b
    (bits v 5 4 = 3 → Completes (.ilvCommit st v) s (fun q => hasEvent q st.page evRsvdWrite ∧ blocksBut [st.page] p q ∧ keepsBut [.blocks, .alerts] p q))
    ∧ (bits v 5 4 ≠ 3 → bits v 5 4 ≠ ilvOf p st → ilvFree p st = false →
        Completes (.ilvCommit st v) s (fun q => onlyRaises st.page (evCfgBusy st) p q))
    ∧ (bits v 5 4 ≠ 3 → bits v 5 4 ≠ ilvOf p st → ilvFree p st = true →
        Completes (.ilvCommit st v) s (fun q => getReg q st.page 0x088 = v &&& 0x000FFF31#32 ∧ pairOk q st.page 0x088 = true
          ∧ (storeOf q st).filling = some p.count ∧ (∀ u, u ≠ st → storeOf q u = storeOf p u)
          ∧ memBut (fun a => st.base ≤ a ∧ a < st.base + st.size) p q
          ∧ ((storeOf p st).asleep = 0 → ∀ a, st.base ≤ a → a < st.base + st.size → memByte q a = 0)
          ∧ regsBut [(st.page, 0x088), (st.page, 0x08C)] p q ∧ keepsBut [.regs, .blocks, .alerts, .stores, .mem, .poison] p q))
    ∧ (∀ w : DWord, Completes (.bankGateCommit st w) s (fun q =>
          (bankGate q st = match st with | .core _ => (lo32 w).toNat | .cluster _ _ => w.toNat)
          ∧ (∀ b, b < st.banks → bit w b = true → (bankGate p st).testBit b = false → Map.look (storeOf q st).pend b = some p.count)
          ∧ (∀ u, u ≠ st → storeOf q u = storeOf p u) ∧ (storeOf q st).asleep = (storeOf p st).asleep
          ∧ keepsBut [.regs, .stores, .out] p q))
    ∧ (∀ b : Fin 64, (Map.look (storeOf p st).pend b.val).isSome = true → Map.look (storeOf p st).bankFill b.val = none →
        engineHolds p st b.val = false →
        Completes (.bankSleep st b) s (fun q => (storeOf q st).asleep = (storeOf p st).asleep ||| 2 ^ b.val
          ∧ Map.look (storeOf q st).pend b.val = none ∧ puts [.item st.page b.val Status.done] p q ∧ hasEvent q st.page (evGateDone st)
          ∧ memBut (inBank b.val) p q ∧ (∀ a, inBank b.val a → memByte q a = 0) ∧ (∀ u, u ≠ st → storeOf q u = storeOf p u)
          ∧ blocksBut [st.page] p q ∧ keepsBut [.stores, .mem, .poison, .blocks, .alerts, .out] p q)))
  ∧ (∀ (s : State) (st : StoreId) (t : Nat), (storeOf s.pkg st).filling = some t →
    Completes (.ilvFillEnd st) s (fun q =>
      (cyclesPast s.pkg t st.fillCycles = true → (storeOf q st).filling = none ∧ (∀ u, u ≠ st → storeOf q u = storeOf s.pkg u) ∧ keepsBut [.stores] s.pkg q)
      ∧ (cyclesPast s.pkg t st.fillCycles = false → keepsBut [] s.pkg q)))
  ∧ (∀ (s : State) (st : StoreId) (b : Fin 64) (t : Nat), Map.look (storeOf s.pkg st).pend b.val = some t → pairOk s.pkg st.page 0x088 = true →
    let p := s.pkg
    Completes (.gateTimeout st b) s (fun q =>
      (t + gateLimit p st ≤ p.count → b.val < st.banks → Map.look (storeOf q st).pend b.val = none ∧ puts [.item st.page b.val Status.failedBusy] p q
        ∧ (bankGate q st).testBit b.val = false ∧ hasEvent q st.page (evGateTimeout st) ∧ (storeOf q st).asleep = (storeOf p st).asleep
        ∧ blocksBut [st.page] p q ∧ keepsBut [.stores, .regs, .blocks, .alerts, .out] p q)
      ∧ (p.count < t + gateLimit p st → keepsBut [] p q)))
  ∧ (∀ (s : State) (st : StoreId) (b : Fin 64) (t : Nat), Map.look (storeOf s.pkg st).bankFill b.val = some t →
    let p := s.pkg
    let inBank (a : Nat) := st.base ≤ a ∧ a < st.base + st.size ∧ bankOf p st (a - st.base) = b.val
    Completes (.bankWakeFillEnd st b) s (fun q =>
      (cyclesPast p t st.fillCycles = true → (storeOf q st).asleep.testBit b.val = false ∧ Map.look (storeOf q st).bankFill b.val = none
        ∧ memBut inBank p q ∧ (∀ a, inBank a → memByte q a = 0) ∧ keepsBut [.stores, .mem, .poison] p q)
      ∧ (cyclesPast p t st.fillCycles = false → keepsBut [] p q)))
  ∧ (∀ (s : State) (st : StoreId), stateOf s.pkg st.page ≠ .off → pairOk s.pkg st.page 0x088 = true →
    let p := s.pkg
    Completes (.storePatrolRead st []) s (fun q =>
      (bit (getReg p st.page 0x088) 0 = true → cyclesPast p (storeOf p st).patrolAt 65536 = true →
        (storeOf q st).patrolRow = ((storeOf p st).patrolRow + 1) % st.fillCycles ∧ (storeOf q st).patrolAt = p.count ∧ keepsBut [.stores] p q)
      ∧ (bit (getReg p st.page 0x088) 0 = false → keepsBut [] p q)))
  ∧ (∀ (s : State) (st : StoreId) (f : EccFinding), stateOf s.pkg st.page ≠ .off → pairOk s.pkg st.page 0x088 = true → bit (getReg s.pkg st.page 0x088) 0 = true →
    cyclesPast s.pkg (storeOf s.pkg st).patrolAt 65536 = true → bankRow s.pkg st f.off = (storeOf s.pkg st).patrolRow →
    (storeOf s.pkg st).asleep.testBit (bankOf s.pkg st f.off) = false → f.off < st.size →
    let p := s.pkg
    Completes (.storePatrolRead st [f]) s (fun q =>
      (f.double = false → gains 1 p q st.page (offEccCorr st) ∧ hasEvent q st.page (evEccCorr st) ∧ q.mem = p.mem ∧ q.poison = p.poison)
      ∧ (f.double = true → gains 1 p q st.page (offEccUncorr st) ∧ hasEvent q st.page (evEccUncorr st)
          ∧ poisoned q (st.base + f.off) = true ∧ memBut (fun a => a / 64 = (st.base + f.off) / 64) p q)
      ∧ keepsBut [.stores, .mem, .poison, .regs, .blocks, .alerts, .records, .nvPending] p q))

/-- WIN_OPEN on a page that is not OFF, of a closed window of the store with no value of its block pending and a legal owner: OPEN, WIN_RECV 0, owned
as commanded; otherwise win_busy alone. WIN_CLOSE of an open window of the store: CLOSING with done.closed; otherwise win_busy alone. WINDOW_EXPIRY at
or past the expiry of an open window: CLOSING with done.expired when it has no tally and failed.expired when it has one; before it nothing changes.
WINDOW_CLOSED of a CLOSING window: CLOSED with win_closed. The instruction win.open, when it may issue, names a closed window of the store with a plain
core handle whose specification is readable, in bound and well formed: the window is OPEN and owned by its issuer, its registers hold the specification
with their complements, and the instruction retires done. win.close by the owner of an open window: CLOSING with done.closed, and the instruction waits
for the window. -/
def Obligations.WindowsOpenAndClose : Prop :=
  (∀ (s : State) (st : StoreId) (w : Fin 16) (o : Fin 4) (k : BitVec 4), stateOf s.pkg st.page ≠ .off →
    let p := s.pkg
    (∀ x, ownerOf p st o k.toNat = some x → w.val < st.windows → (winOf p st w.val).state = .closed → winPending p st w.val = false →
      Completes (.winOpen st w o k) s (fun q => (winOf q st w.val).state = .opened ∧ (winOf q st w.val).recv = 0 ∧ (winOf q st w.val).owner = some x
        ∧ (∀ u v, (u, v) ≠ (st, w.val) → winOf q u v = winOf p u v) ∧ keepsBut [.wins] p q))
    ∧ (ownerOf p st o k.toNat = none ∨ st.windows ≤ w.val ∨ (winOf p st w.val).state ≠ .closed ∨ winPending p st w.val = true →
        Completes (.winOpen st w o k) s (fun q => onlyRaises st.page (evWinBusy st) p q))
    ∧ (w.val < st.windows → (winOf p st w.val).state = .opened →
        Completes (.winClose st w) s (fun q => winOf q st w.val = { winOf p st w.val with state := .closing, status := Status.doneClosed }
          ∧ (∀ u v, (u, v) ≠ (st, w.val) → winOf q u v = winOf p u v) ∧ keepsBut [.wins] p q))
    ∧ (st.windows ≤ w.val ∨ (winOf p st w.val).state ≠ .opened →
        Completes (.winClose st w) s (fun q => onlyRaises st.page (evWinBusy st) p q)))
  ∧ (∀ (s : State) (st : StoreId) (w : Fin 16), (winOf s.pkg st w.val).state = .opened → winPairsOk s.pkg st = true →
    let p := s.pkg
    Completes (.windowExpiry st w) s (fun q =>
      (winExpiry p st w.val ≠ 0 → winExpiry p st w.val ≤ p.bell.toNat →
        winOf q st w.val = { winOf p st w.val with state := .closing, status := if winTally p st w.val = 0 then Status.doneExpired else Status.failedExpired }
        ∧ (∀ u v, (u, v) ≠ (st, w.val) → winOf q u v = winOf p u v) ∧ keepsBut [.wins] p q)
      ∧ (winExpiry p st w.val = 0 ∨ p.bell.toNat < winExpiry p st w.val → keepsBut [] p q)))
  ∧ (∀ (s : State) (st : StoreId) (w : Fin 16), (winOf s.pkg st w.val).state = .closing →
    let p := s.pkg
    Completes (.windowClosed st w) s (fun q => (winOf q st w.val).state = .closed ∧ (winOf q st w.val).status = (winOf p st w.val).status
      ∧ hasEvent q st.page (evWinClosed st) ∧ (∀ u v, (u, v) ≠ (st, w.val) → winOf q u v = winOf p u v)
      ∧ ((winOf p st w.val).owner = none → p.insts = [] → q.insts = p.insts ∧ q.ctxs = p.ctxs ∧ q.rg.regs = p.rg.regs ∧ q.out = p.out)
      ∧ (∀ i, i ∈ p.insts → closesWin st w.val i = true → ∀ j, j ∈ q.insts → j.id ≠ i.id)
      ∧ keepsBut [.wins, .blocks, .alerts, .insts, .ctxs, .regs, .out, .bobs] p q))
  ∧ (∀ (s : State) (c : CtxId) (w : BitVec 128) (a t : Nat), mayRun s.pkg c w → opOf w = 0xA1 →
    let p := s.pkg
    let st := ctxStore c (bit w 24)
    let n := bits w 28 25
    let h := handleOf (sreg (ctxOf p c) (slotA w))
    let b := readLocal p a 32
    n < st.windows → h.plain = true → h.cluster = false → (winOf p st n).state = .closed → storeCheck p c .core (h.eplane * 64) 32 = .ok a →
    pairAddr p c (if bit w 24 then .cluster else .core) (leField b 0 4 * 64) (leField b 4 4 % 2 ^ 18 * 64) = some t → specBad b = false →
    t - st.base + leField b 4 4 % 2 ^ 18 * 64 ≤ st.size →
    Completes (.winOpenInstr c) s (fun q => (winOf q st n).state = .opened ∧ (winOf q st n).owner = some c ∧ (winOf q st n).recv = 0
      ∧ (winReg q st n 0x00).toNat = (t - st.base) / 64 ∧ (winReg q st n 0x08).toNat = leField b 4 4
      ∧ (winReg q st n 0x10).toNat = leField b 8 4 ∧ (winReg q st n 0x18).toNat = leField b 12 4
      ∧ winExpiry q st n = leField b 16 8 ∧ winTally q st n = leField b 24 4
      ∧ (∀ u v, (u, v) ≠ (st, n) → winOf q u v = winOf p u v)
      ∧ (ctxOf q c).pc = ((ctxOf p c).pc + 1) % 65536 ∧ (ctxOf q c).s = (ctxOf p c).s ∧ retiresDone p q c
      ∧ keepsBut [.wins, .ctxs, .insts, .nextId, .blocks, .regs, .out, .alerts] p q))
  ∧ (∀ (s : State) (c : CtxId) (w : BitVec 128), mayRun s.pkg c w → opOf w = 0xA2 →
    let p := s.pkg
    let st := ctxStore c (bit w 24)
    let n := bits w 28 25
    n < st.windows → (winOf p st n).owner = some c → (winOf p st n).state = .opened →
    Completes (.winCloseInstr c) s (fun q => winOf q st n = { winOf p st n with state := .closing, status := Status.doneClosed }
      ∧ (∀ u v, (u, v) ≠ (st, n) → winOf q u v = winOf p u v)
      ∧ (∃ i, issuedTo .sequencer p q c w i ∧ i.started = true ∧ i.ended = none) ∧ keepsBut [.wins, .ctxs, .insts, .nextId, .blocks] p q))

/-- ENGINE_INSTR_START on an engine that runs nothing and is not in a pause, with a plain instruction ready: the instruction is started and is the one
the engine runs, the engine is not gated, and the rotation goes to its context; while it runs something or pauses nothing changes. ENGINE_ROW_DRAIN of a
running pass with rows left and no chain disagreement: the row's lines are written from the held tile as it was loaded, the next row follows, and with
the first row the next held tile loads; a disagreement of a watched instruction sets eng_residue and ENG_RESIDUE, and no further row or pass starts.
ENGINE_PASS_BOUNDARY once the rows of the pass are out: the next pass begins at row 0 with the tile that was loaded for it, with the pause of the duty in
force; a tile of invalid metadata starts none. THROTTLE_PAUSE_END after the pause's cycles clears it, before them nothing changes.
ENGINE_RETIRE of a plain instruction with no pass left: the engine runs nothing, and the instruction has ended. ENGINE_CLOCK_GATE of an engine idle for
gate_delay × 16 cycles gates it. ENGINE_BIST_END of an ENABLING core after its full time: no failing signature gives ENABLED and ENG_BIST_RESULT
0xC0FFFF00, a failing one gives eng_bist_fail and FAULT with cause 0x09. -/
def Obligations.TheEngineRunsItsInstructions : Prop :=
  (∀ (s : State) (k : CoreId) (i : Inst) (j : Job), (engineOf s.pkg k).run = none → (engineOf s.pkg k).pause = none →
    engineNext s.pkg k = some i → jobOf i = some j → collOf i.word = 0 →
    Completes (.engineInstrStart k) s (fun q => (∃ r, (engineOf q k).run = some r ∧ r.inst = i.id ∧ r.row = 0 ∧ r.coll = none)
      ∧ (engineOf q k).gated = false ∧ (engineOf q k).lastCtx = i.ctx.ctx.val ∧ (∀ x, x ∈ q.insts → x.id = i.id → x.started = true)
      ∧ (∀ x, x ≠ k → engineOf q x = engineOf s.pkg x) ∧ keepsBut [.engines, .insts] s.pkg q))
  ∧ (∀ (s : State) (k : CoreId), (engineOf s.pkg k).run ≠ none ∨ (engineOf s.pkg k).pause ≠ none →
    Completes (.engineInstrStart k) s (fun q => keepsBut [] s.pkg q))
  ∧ (∀ (s : State) (k : CoreId) (r : EngineRun) (i : Inst) (j : Job), (engineOf s.pkg k).run = some r → runInst s.pkg r = some i → jobOf i = some j →
    (engineOf s.pkg k).pause = none → r.coll = none →
    let p := s.pkg
    (r.finished j = false → r.row < j.rows →
      Completes (.engineRowDrain k none) s (fun q =>
        (engineOf q k).run = some { r with row := r.row + 1, status := if (j.drain p i.ctx r.held r.row).2 then Status.worst r.status Status.failedPoison else r.status }
        ∧ q.mem = (j.drain p i.ctx r.held r.row).1.mem ∧ q.poison = (j.drain p i.ctx r.held r.row).1.poison
        ∧ (r.row = 0 → (engineOf q k).shadow = nextTile p k i j r) ∧ (r.row ≠ 0 → (engineOf q k).shadow = (engineOf p k).shadow)
        ∧ (∀ x, x ≠ k → engineOf q x = engineOf p x) ∧ keepsBut [.engines, .mem, .poison, .lost, .mills, .regs, .ctxs] p q)
      ∧ (∀ v, j.watched = true → collOf i.word = 0 →
          Completes (.engineRowDrain k (some v)) s (fun q => hasEvent q (.core k) 16
            ∧ (∃ x, (engineOf q k).run = some x ∧ x.inst = r.inst ∧ x.broken = true ∧ x.pass = r.pass ∧ Status.failedEngine.toNat ≤ x.status.toNat)
            ∧ bit (getReg q (.core k) 0x418) 31 = true ∧ bits (getReg q (.core k) 0x418) 22 16 = v.1.val
            ∧ ∀ x, x ≠ k → engineOf q x = engineOf p x)))
    ∧ (r.finished j = false → j.rows ≤ r.row → collOf i.word = 0 →
      let n := pauseCycles j.passCycles (dutyOf p k.die)
      Completes (.enginePassBoundary k) s (fun q => (engineOf q k).pause = (if n = 0 then none else some (p.count, n)) ∧ gains n p q (.core k) 0x438
        ∧ (∃ x, (engineOf q k).run = some x ∧ x.inst = r.inst ∧ x.pass = r.pass + 1 ∧ x.row = 0
            ∧ (∀ t, (engineOf p k).shadow = some t → t.inst = i.id → t.pass = r.pass + 1 → r.pass + 1 < j.passes → x.held = t)
            ∧ (r.pass + 1 < j.passes → x.held.valid = false → x.broken = true ∧ Status.failedFormat.toNat ≤ x.status.toNat))
        ∧ (∀ x, x ≠ k → engineOf q x = engineOf p x) ∧ regsBut [(.core k, 0x438), (.core k, 0x43C)] p q ∧ keepsBut [.engines, .regs] p q))
    ∧ (r.finished j = true → collOf i.word = 0 → contribOf p i = none → i.unit = .engine →
      Completes (.engineRetire k) s (fun q => (engineOf q k).run = none ∧ (engineOf q k).idleAt = p.count ∧ (∀ x, x ∈ q.insts → x.id ≠ i.id)
        ∧ gains 1 p q (.core i.ctx.core) 0x420 ∧ (∀ x, x ≠ k → engineOf q x = engineOf p x)
        ∧ (Status.cls r.status = 0 → q.mem = p.mem ∧ q.poison = p.poison ∧ keepsBut [.engines, .insts, .ctxs, .regs, .blocks, .out, .alerts] p q))))
  ∧ (∀ (s : State) (k : CoreId) (x : Nat × Nat), (engineOf s.pkg k).pause = some x →
    Completes (.throttlePauseEnd k) s (fun q =>
      (cyclesPast s.pkg x.1 x.2 = true → engineOf q k = { engineOf s.pkg k with pause := none } ∧ (∀ y, y ≠ k → engineOf q y = engineOf s.pkg y)
        ∧ keepsBut [.engines] s.pkg q)
      ∧ (cyclesPast s.pkg x.1 x.2 = false → keepsBut [] s.pkg q)))
  ∧ (∀ (s : State) (k : CoreId), (engineOf s.pkg k).run = none → pairOk s.pkg (.core k) 0x408 = true →
    let n := bits (getReg s.pkg (.core k) 0x408) 11 8
    Completes (.engineClockGate k) s (fun q =>
      (n ≠ 0 → cyclesPast s.pkg (engineOf s.pkg k).idleAt (16 * n) = true → engineOf q k = { engineOf s.pkg k with gated := true }
        ∧ (∀ y, y ≠ k → engineOf q y = engineOf s.pkg y) ∧ keepsBut [.engines] s.pkg q)
      ∧ (n = 0 ∨ cyclesPast s.pkg (engineOf s.pkg k).idleAt (16 * n) = false → keepsBut [] s.pkg q)))
  ∧ (∀ (s : State) (k : CoreId) (v : Word), stateOf s.pkg (.core k) = .enabling → pairOk s.pkg (.core k) 0x408 = true →
    cyclesPast s.pkg (block s.pkg (.core k)).since (bistCycles s.pkg k) = true → s.pkg.rg.undo.contains (.core k) = false →
    Completes (.engineBistEnd k v) s (fun q =>
      (bits v 7 0 = 0 → stateOf q (.core k) = .enabled ∧ getReg q (.core k) 0x410 = 0xC0FFFF00#32)
      ∧ (bits v 7 0 ≠ 0 → isIn q (.core k) .fault 0x09 ∧ hasEvent q (.core k) 17 ∧ bits (getReg q (.core k) 0x410) 7 0 = bits v 7 0)
      ∧ keepsBut [.regs, .blocks, .alerts, .records, .nvPending, .undo] s.pkg q))

/-- The MXINT8 code −128 reads as −2.0, that is −128 × 2⁻⁶. No byte of a row converted to MXINT8 is −128. In every block the codes lie from −127 to 127, and where all
its results are finite, each code is the result over the block's scale in units of 2⁻⁶, rounded to the nearest integer and clamped to that range. -/
def Obligations.Mxint8ReadsAndClamps : Prop :=
  elemVal .mxint8 0x80 = .fin true 128 (-6)
  ∧ (∀ (sat : Bool) (xs : List Machine.Num) (b : Byte), b ∈ (convertRow .mxint8 sat xs).2 → b ≠ 0x80#8)
  ∧ (∀ (xs : List Machine.Num) (c : Nat), c ∈ (mxBlock .mxint8 xs).2 → -127 ≤ signed 8 c ∧ signed 8 c ≤ 127)
  ∧ (∀ (xs : List Machine.Num) (i : Nat) (neg : Bool) (m : Nat) (e : Int), (∀ x, x ∈ xs → ∃ n k l, x = .fin n k l) → xs[i]? = some (.fin neg m e) →
      let b := mxBlock .mxint8 xs
      signed 8 (nth b.2 i 0) = max (-127) (min 127 (sgn neg (rneInt m (e - ((b.1 : Int) - 127) + 6)))))

/-- A request still pending after the gate timeout of its store's configuration register ends failed.busy; the bank's bit in BANK_GATE is clear, every other bit is as it
was, the complement agrees, and gate_timeout is set. The bank is asleep or awake as it was, with its contents unchanged. A commit of BANK_GATE with the bit of a pending
bank clear ends its request done.cancelled; the bank has no request and has not gone to sleep. -/
def Obligations.GateRequestsTimeOutOrAreCancelled : Prop :=
  ∀ (s : State) (st : StoreId) (b : Fin 64) (t : Nat), b.val < st.banks → Map.look (storeOf s.pkg st).pend b.val = some t →
    let p := s.pkg
    let us := bits (getReg p st.page 0x088) 19 8
    let paired (q : Pkg) : Prop := match st with
      | .core c => getReg q (.core c) 0x094 = ~~~(getReg q (.core c) 0x090)
      | .cluster d c => getReg64 q (.clst d c) 0x098 = ~~~(getReg64 q (.clst d c) 0x090)
    let unchanged (q : Pkg) : Prop := (storeOf q st).asleep = (storeOf p st).asleep ∧ q.mem = p.mem ∧ q.poison = p.poison
    (pairOk p st.page 0x088 = true → t + (if us = 0 then 1000 else us) * 1000 ≤ p.count → Completes (.gateTimeout st b) s (fun q =>
        puts [.item st.page b.val Status.failedBusy] p q ∧ Map.look (storeOf q st).pend b.val = none
        ∧ (∀ k, k < st.banks → (bankGate q st).testBit k = ((bankGate p st).testBit k && k != b.val)) ∧ paired q
        ∧ hasEvent q st.page (match st with | .core _ => 23 | .cluster _ _ => 21) ∧ unchanged q))
    ∧ (∀ w : DWord, stateOf p st.page ≠ .off → bit w b.val = false → Completes (.bankGateCommit st w) s (fun q =>
        .item st.page b.val Status.doneCancelled ∈ q.out ∧ Map.look (storeOf q st).pend b.val = none ∧ unchanged q))

/-- For a word that is a context's next instruction and may issue, its reserved fields zero. Each of these retires done in the step that issues it:
the item ends done, TALLY_IN, TALLY_OUT and CTX_INSTR gain one, and no other context, no memory, no latch and no register but the named one
changes. nop changes nothing else. end leaves the context IDLE. policy takes the halt policy of the word. br whose condition holds goes to the target,
with no issue for the branch's time; otherwise to the next instruction. salu of a defined operation writes rC with the operation on rA and rB + imm
modulo 2^64; li writes the immediate, rdbell bell time, rdid the context's place; a write to s0 is discarded. A word whose opcode no rule defines retires
failed.opcode, a salu operation above 10 or a branch condition of 7 failed.format, and neither writes a register. Where it is another context's turn the
context issues nothing. A fetch that a check refuses stops the context with that status and cause 4; a sleeping bank's is counted. -/
def Obligations.TaskControlAndScalarInstructions : Prop :=
  (∀ (s : State) (c : CtxId) (w : BitVec 128), mayRun s.pkg c w →
    let p := s.pkg
    let x := ctxOf p c
    let parts : List Part := [.ctxs, .insts, .nextId, .blocks, .regs, .out, .alerts]
    let next := (x.pc + 1) % 65536
    let b := sreg x (slotB w) + imm64 w
    let latchesKept (q : Pkg) := (ctxOf q c).sticky = x.sticky ∧ ∀ t, Map.getD (ctxOf q c).latches t ⟨0, 0⟩ = Map.getD x.latches t ⟨0, 0⟩
    let plain (q : Pkg) := retiresDone p q c ∧ latchesKept q ∧ keepsBut parts p q
    let writes (v : DWord) (q : Pkg) := plain q ∧ (ctxOf q c).state = .running ∧ (ctxOf q c).pc = next ∧ (ctxOf q c).policy = x.policy
      ∧ writesScalar x (ctxOf q c) (slotC w) v
    (opOf w = 0x00 → Completes (.nop c) s (fun q => plain q ∧ (ctxOf q c).state = .running ∧ (ctxOf q c).pc = next ∧ (ctxOf q c).s = x.s))
    ∧ (opOf w = 0x01 → x.stop = none → Completes (.endInstr c) s (fun q => retiresDone p q c ∧ (ctxOf q c).state = .idle ∧ (ctxOf q c).s = x.s
        ∧ Map.look q.pw.idleAt c.core.die = some p.count ∧ keepsBut (.pw :: parts) p q))
    ∧ (opOf w = 0x02 → Completes (.policy c) s (fun q => plain q ∧ (ctxOf q c).policy = bits w 28 24 ∧ (ctxOf q c).pc = next
        ∧ (ctxOf q c).s = x.s ∧ (ctxOf q c).state = .running))
    ∧ (opOf w = 0x03 → bits w 26 24 ≠ 7 → Completes (.br c) s (fun q => plain q ∧ (ctxOf q c).s = x.s ∧ (ctxOf q c).state = .running
        ∧ (branchTaken (bits w 26 24) (sreg x (slotA w)) (sreg x (slotB w)) = true →
            (ctxOf q c).pc = bits w 79 64 ∧ p.count < (ctxOf q c).brUntil)
        ∧ (branchTaken (bits w 26 24) (sreg x (slotA w)) (sreg x (slotB w)) = false → (ctxOf q c).pc = next ∧ (ctxOf q c).brUntil = x.brUntil)))
    ∧ (opOf w = 0x04 → bits w 27 24 ≤ 10 → Completes (.salu c) s (writes (aluOp (bits w 27 24) (sreg x (slotA w)) b)))
    ∧ (opOf w = 0x05 → Completes (.li c) s (writes (imm64 w)))
    ∧ (opOf w = 0x09 → Completes (.rdbell c) s (writes p.bell))
    ∧ (opOf w = 0x0A → Completes (.rdid c) s (writes (BitVec.ofNat 64 ((ownChip p).toNat * 2 ^ 48 + c.core.die.val * 2 ^ 40
        + c.core.cluster.val * 2 ^ 32 + c.core.core.val * 2 ^ 24 + c.ctx.val * 2 ^ 16))))
    ∧ (opOf w = 0x04 → 10 < bits w 27 24 → Completes (.salu c) s (fun q => (ctxOf q c).s = x.s
        ∧ .item (.core c.core) p.nextId Status.failedFormat ∈ q.out))
    ∧ (opOf w = 0x03 → bits w 26 24 = 7 → Completes (.br c) s (fun q => (ctxOf q c).s = x.s ∧ (ctxOf q c).pc = next
        ∧ .item (.core c.core) p.nextId Status.failedFormat ∈ q.out)))
  ∧ (∀ (s : State) (c : CtxId) (w : BitVec 128), usedBits w = none → (ctxOf s.pkg c).state = .running → (ctxOf s.pkg c).halted = false →
    (ctxOf s.pkg c).stepInst = none → (ctxOf s.pkg c).brUntil ≤ s.pkg.count → pairSound s.pkg c .core = true →
    fetch s.pkg c (ctxOf s.pkg c).pc = .ok w → mayIssue s.pkg c w = true → mayTurn s.pkg c = true → (ctxOf s.pkg c).skipBp = true →
    (∀ k, k ∈ handlePairs (ctxOf s.pkg c) w → pairSound s.pkg c k = true) →
    Completes (.nop c) s (fun q => .item (.core c.core) s.pkg.nextId Status.failedOpcode ∈ q.out ∧ (ctxOf q c).s = (ctxOf s.pkg c).s
      ∧ q.mem = s.pkg.mem ∧ ctxsBut [c] s.pkg q))
  ∧ (∀ (s : State) (c : CtxId), mayFetch s.pkg c = true → pairSound s.pkg c .core = true → let p := s.pkg
    (∀ w, fetch p c (ctxOf p c).pc = .ok w → mayTurn p c = false → Completes (.nop c) s (keepsBut [] p))
    ∧ (∀ st, fetch p c (ctxOf p c).pc = .error st → (ctxOf p c).wait = none → Completes (.nop c) s (fun q =>
        (ctxOf q c).state = .stopping ∧ (∃ r, (ctxOf q c).stop = some r ∧ r.status = st ∧ r.cause = 4 ∧ r.pc = (ctxOf p c).pc)
        ∧ (st = Status.refusedAsleep → gains 1 p q (.core c.core) 0x0C0 ∧ hasEvent q (.core c.core) 24)
        ∧ q.mem = p.mem ∧ q.insts = p.insts ∧ ctxsBut [c] p q)))

/-- For a word that is a context's next instruction and may issue. sld and sst of an aligned offset that passes the core-store check, at local offset a:
sld with no ECC finding writes rC with the eight bytes at a and retires done, or on a poisoned line writes all ones and retires failed.poison; sst
stores rB in the eight bytes at a, every other byte reads as before, and retires done. An offset that is no multiple of eight retires failed.format, and
one that the check refuses retires with the check's status; neither writes. tstat of token t writes rC with the latch's worst status and count and
clears that latch; of 8 it does so with the sticky latch. Every other register, latch and context is as before. Memory is in its canonical form. -/
def Obligations.StoreWordsAndStatusLatches : Prop :=
  ∀ (s : State) (c : CtxId) (w : BitVec 128), mayRun s.pkg c w → Memory.wf s.pkg.mem = true →
    let p := s.pkg
    let x := ctxOf p c
    let parts : List Part := [.ctxs, .insts, .nextId, .blocks, .regs, .out, .alerts]
    let next := (x.pc + 1) % 65536
    let o := (sreg x (slotA w) + imm64 w).toNat
    let latchesKept (q : Pkg) := (ctxOf q c).sticky = x.sticky ∧ ∀ t, Map.getD (ctxOf q c).latches t ⟨0, 0⟩ = Map.getD x.latches t ⟨0, 0⟩
    let runsOn (q : Pkg) := retiresDone p q c ∧ (ctxOf q c).state = .running ∧ (ctxOf q c).pc = next ∧ (ctxOf q c).policy = x.policy
    let ends (st : Status) (q : Pkg) := .item (.core c.core) p.nextId st ∈ q.out
    (∀ a, opOf w = 0x06 → o % 8 = 0 → storeCheck p c .core o 8 = .ok a →
      Completes (.sld c []) s (fun q =>
        (localPoisoned p a 8 = false → runsOn q ∧ latchesKept q ∧ keepsBut parts p q
          ∧ writesScalar x (ctxOf q c) (slotC w) (BitVec.ofNat 64 (leNat (memBytes p a 8))))
        ∧ (localPoisoned p a 8 = true → ends Status.failedPoison q ∧ writesScalar x (ctxOf q c) (slotC w) 0xFFFFFFFFFFFFFFFF#64 ∧ q.mem = p.mem)))
    ∧ (∀ a, opOf w = 0x07 → o % 8 = 0 → storeCheck p c .core o 8 = .ok a →
      Completes (.sst c) s (fun q => runsOn q ∧ latchesKept q ∧ (ctxOf q c).s = x.s ∧ memBytes q a 8 = leBytes 8 (sreg x (slotB w)).toNat
        ∧ memBut (fun k => a ≤ k ∧ k < a + 8) p q ∧ q.poison = p.poison ∧ keepsBut (.mem :: parts) p q))
    ∧ (o % 8 ≠ 0 → (opOf w = 0x06 → Completes (.sld c []) s (fun q => ends Status.failedFormat q ∧ (ctxOf q c).s = x.s ∧ q.mem = p.mem))
        ∧ (opOf w = 0x07 → Completes (.sst c) s (fun q => ends Status.failedFormat q ∧ (ctxOf q c).s = x.s ∧ q.mem = p.mem)))
    ∧ (∀ e, o % 8 = 0 → storeCheck p c .core o 8 = .error e →
        (opOf w = 0x06 → Completes (.sld c []) s (fun q => ends e q ∧ (ctxOf q c).s = x.s ∧ q.mem = p.mem))
        ∧ (opOf w = 0x07 → Completes (.sst c) s (fun q => ends e q ∧ (ctxOf q c).s = x.s ∧ q.mem = p.mem)))
    ∧ (opOf w = 0x08 → bits w 27 24 < 8 →
      Completes (.tstat c) s (fun q => runsOn q ∧ keepsBut parts p q
        ∧ writesScalar x (ctxOf q c) (slotC w) (Map.getD x.latches (bits w 27 24) ⟨0, 0⟩).word ∧ (ctxOf q c).sticky = x.sticky
        ∧ Map.getD (ctxOf q c).latches (bits w 27 24) ⟨0, 0⟩ = ⟨0, 0⟩
        ∧ ∀ t, t ≠ bits w 27 24 → Map.getD (ctxOf q c).latches t ⟨0, 0⟩ = Map.getD x.latches t ⟨0, 0⟩))
    ∧ (opOf w = 0x08 → bits w 27 24 = 8 →
      Completes (.tstat c) s (fun q => runsOn q ∧ keepsBut parts p q ∧ writesScalar x (ctxOf q c) (slotC w) x.sticky.word
        ∧ (ctxOf q c).sticky = ⟨0, 0⟩ ∧ ∀ t, Map.getD (ctxOf q c).latches t ⟨0, 0⟩ = Map.getD x.latches t ⟨0, 0⟩))
    ∧ (opOf w = 0x08 → 8 < bits w 27 24 →
      Completes (.tstat c) s (fun q => ends Status.failedFormat q ∧ (ctxOf q c).s = x.s ∧ q.mem = p.mem))

/-- For a word that is a context's next instruction and may issue. wait.bell: a target equal to bell time retires done, an earlier one done.past, and a
later one leaves the context WAITING for it. wait.win of a window the context owns: a closed one retires with the window's status, an open or closing one
leaves the context WAITING for it; of a window it does not own, refused.owner. wait.word of a word that passes the check: a condition that holds retires
done, one that does not with no deadline or a later one leaves the context WAITING, past the deadline it retires failed.timeout. WAIT_BELL_REACHED at or
after the target, WAIT_WORD_RECHECK when the condition holds on a word in an awake bank and WAIT_WORD_DEADLINE at or after the deadline each retire the
wait, done, or at the deadline with the condition not met failed.timeout; with a done status the context is RUNNING again. Before that instant
they change nothing. Registers and memory are as before in every case. -/
def Obligations.WaitsBeginAndEnd : Prop :=
  (∀ (s : State) (c : CtxId) (w : BitVec 128), mayRun s.pkg c w →
    let p := s.pkg
    let x := ctxOf p c
    let t := sreg x (slotA w) + imm64 w
    let target : DWord := if bit w 24 then BitVec.ofNat 64 ((t.toNat + 32767) / 32768 * 32768) else t
    let still (q : Pkg) := (ctxOf q c).s = x.s ∧ (ctxOf q c).v = x.v ∧ q.mem = p.mem ∧ ctxsBut [c] p q
    let ends (st : Status) (q : Pkg) := puts [.item (.core c.core) p.nextId st] p q ∧ still q
    let waits (u : WaitFor) (q : Pkg) := (ctxOf q c).state = .waiting ∧ (ctxOf q c).wait = some u ∧ still q
      ∧ (∃ i, issuedTo .waitUnit p q c w i ∧ i.started = true ∧ i.ended = none) ∧ keepsBut [.ctxs, .insts, .nextId, .blocks] p q
    let st := ctxStore c (bit w 24)
    let n := bits w 28 25
    let test (a : Nat) := wordTest p (.core c.core) (a - StoreId.base (.core c.core)) (bits w 25 24) (sreg x (slotB w))
    let dl := sreg x (slotD w)
    (opOf w = 0x10 → target = p.bell → Completes (.waitBell c) s (fun q => ends Status.done q ∧ (ctxOf q c).state = .running))
    ∧ (opOf w = 0x10 → target.toNat < p.bell.toNat → Completes (.waitBell c) s (fun q => ends Status.donePast q ∧ (ctxOf q c).state = .running))
    ∧ (opOf w = 0x10 → p.bell.toNat < target.toNat → Completes (.waitBell c) s (waits (.bell target)))
    ∧ (opOf w = 0x11 → n < st.windows → (winOf p st n).owner = some c → (winOf p st n).state = .closed →
        Completes (.waitWin c) s (ends (winOf p st n).status))
    ∧ (opOf w = 0x11 → n < st.windows → (winOf p st n).owner = some c → (winOf p st n).state ≠ .closed →
        Completes (.waitWin c) s (waits (.win st n)))
    ∧ (opOf w = 0x11 → n < st.windows → (winOf p st n).owner ≠ some c → Completes (.waitWin c) s (ends Status.refusedOwner))
    ∧ (∀ a, opOf w = 0x12 → bits w 25 24 ≠ 3 → storeCheck p c .core t.toNat 8 = .ok a →
        (test a = some Status.done → Completes (.waitWord c) s (fun q => ends Status.done q ∧ (ctxOf q c).state = .running))
        ∧ (test a = none → dl = 0 ∨ p.bell.toNat < dl.toNat →
            Completes (.waitWord c) s (waits (.word (.core c.core) (a - StoreId.base (.core c.core)) (bits w 25 24) (sreg x (slotB w)) dl)))
        ∧ (test a = none → dl ≠ 0 → dl.toNat ≤ p.bell.toNat → Completes (.waitWord c) s (ends Status.failedTimeout))))
  ∧ (∀ (s : State) (c : CtxId) (i : Inst), waitInst s.pkg c = some i → (ctxOf s.pkg c).state = .waiting →
    let p := s.pkg
    let atEnd (st : Status) (q : Pkg) := .item (.core c.core) i.id st ∈ q.out ∧ (∀ j, j ∈ q.insts → j.id ≠ i.id) ∧ (ctxOf q c).wait = none
      ∧ (ctxOf q c).pc = (ctxOf p c).pc ∧ (ctxOf q c).s = (ctxOf p c).s ∧ q.mem = p.mem ∧ ctxsBut [c] p q
    let runs (q : Pkg) := atEnd Status.done q ∧ puts [.item (.core c.core) i.id Status.done] p q ∧ (ctxOf q c).state = .running ∧ keepsBut [.ctxs, .insts, .blocks, .regs, .out, .alerts] p q
    (∀ t, (ctxOf p c).wait = some (.bell t) →
      (t.toNat ≤ p.bell.toNat → Completes (.waitBellReached c) s runs)
      ∧ (p.bell.toNat < t.toNat → Completes (.waitBellReached c) s (keepsBut [] p)))
    ∧ (∀ st off cond v dl, (ctxOf p c).wait = some (.word st off cond v dl) →
      (rangeAsleep p st off 8 = false → wordTest p st off cond v = some Status.done → Completes (.waitWordRecheck c) s runs)
      ∧ (wordTest p st off cond v = none → Completes (.waitWordRecheck c) s (keepsBut [] p))
      ∧ (dl ≠ 0 → dl.toNat ≤ p.bell.toNat → wordTest p st off cond v = some Status.done → Completes (.waitWordDeadline c) s runs)
      ∧ (dl ≠ 0 → dl.toNat ≤ p.bell.toNat → wordTest p st off cond v = none → Completes (.waitWordDeadline c) s (atEnd Status.failedTimeout))
      ∧ (dl = 0 ∨ p.bell.toNat < dl.toNat → Completes (.waitWordDeadline c) s (keepsBut [] p))))

/-- For a word that is a context's next instruction and may issue. mma, mma.sp (with no suffix), conv, ew, cmp and cmp.al whose formats and lengths are defined and
whose ranges pass: the instruction waits in the engine's queue with the registers it read; nothing but its context, the instruction list, the order
numbers and the tallies of the core and its cluster store changes. A failed format check retires failed.format and a failed range check retires with its status, with no
work done: memory is as before. mma.ar, mma.rs, ag.mma, disp.mma and mma.comb that pass every check of R182, R339 and R340: with an instance of the
group and epoch open on the die, the instruction joins it as a contributor; with none open, fewer than two of the group open and room in
the well, a new instance opens with it as the first contributor and WELL's instance count gains one; either way the instruction is listed unended with its block read. -/
def Obligations.EngineAndFusedInstructionsIssue : Prop :=
  (∀ (s : State) (c : CtxId) (w : BitVec 128), mayRun s.pkg c w →
    let p := s.pkg
    let r := issueInst p c w
    let ready (j : Job) := jobOf r.2 = some j ∧ plainSuffix w = true ∧ j.ok = true ∧ engineCheck r.1 c j.ins j.outs j.accs = Status.done
    let queued (q : Pkg) := (∃ i, issuedTo .engine p q c w i ∧ i.started = false ∧ i.ended = none) ∧ blocksBut [.core c.core, .clst c.core.die c.core.cluster] p q
      ∧ (ctxOf q c).v = (ctxOf p c).v ∧ (ctxOf q c).state = .running ∧ keepsBut [.ctxs, .insts, .nextId, .blocks] p q
    let ends (st : Status) (q : Pkg) := .item (.core c.core) p.nextId st ∈ q.out ∧ q.mem = p.mem ∧ (ctxOf q c).s = (ctxOf p c).s ∧ ctxsBut [c] p q
    let row (i : Instr) := (∀ j, ready j → Completes i s queued)
      ∧ (jobOf r.2 = none ∨ (∃ j, jobOf r.2 = some j ∧ (plainSuffix w = false ∨ j.ok = false)) → Completes i s (ends Status.failedFormat))
      ∧ (∀ j, jobOf r.2 = some j → plainSuffix w = true → j.ok = true → engineCheck r.1 c j.ins j.outs j.accs ≠ Status.done →
          Completes i s (ends (engineCheck r.1 c j.ins j.outs j.accs)))
    (opOf w = 0x20 → (bits w 66 64 = 0 ∨ 6 ≤ bits w 66 64) → row (.mma c)) ∧ (opOf w = 0x21 → (bits w 66 64 = 0 ∨ 6 ≤ bits w 66 64) → row (.mmaSp c))
    ∧ (opOf w = 0x30 → row (.conv c)) ∧ (opOf w = 0x40 → row (.ew c)) ∧ (opOf w = 0x50 → row (.cmp c)) ∧ (opOf w = 0x51 → row (.cmpAl c)))
  ∧ (∀ (s : State) (c : CtxId) (w : BitVec 128) (g : Grp) (x : Mm), mayRun s.pkg c w → (opOf w = 0x20 ∨ opOf w = 0x21) → fusedReady s.pkg c w g x →
    let p := s.pkg
    let d := c.core.die
    let i := (withBlock p c w).2
    let gi := bits w 85 78
    let e : Word := BitVec.ofNat 32 (leField i.blk 8 4)
    let listed (q : Pkg) := (∃ k, k ∈ q.insts ∧ k.id = p.nextId ∧ k.ctx = c ∧ k.word = w ∧ k.unit = .engine ∧ k.ended = none ∧ k.blk = i.blk)
      ∧ (ctxOf q c).s = (ctxOf p c).s ∧ (ctxOf q c).pc = ((ctxOf p c).pc + 1) % 65536 ∧ q.mem = p.mem
    let joins (q : Pkg) := listed q ∧ ∃ y, instAt q d gi e = some y ∧ ∃ k, k ∈ y.contribs ∧ k.inst = p.nextId ∧ k.ctx = c
      ∧ some k.rank = rankOf p d g c.core ∧ k.final = none ∧ k.gone = false
    let row (n : Nat) (f : Instr) := bits w 66 64 = n →
      (∀ y, instAt p d gi e = some y → y.passThru = false → Completes f s (fun q => joins q
        ∧ instAt q d gi e = some { y with contribs := y.contribs ++ [⟨p.nextId, c, (rankOf p d g c.core).getD 0, none, [], false, none, false⟩] }
        ∧ (∀ z, z ≠ d → wellOf q z = wellOf p z)))
      ∧ (instAt p d gi e = none → ((wellOf p d).insts.filter (fun y => y.group == gi)).length < 2 →
          (∀ y : Instance_, y.word = w → y.dims = sreg (ctxOf p c) (slotD w) → claimOf p d y g ≤ freeGranules p d) → pairOk p (.well d) 0x088 = true →
          Completes f s (fun q => joins q ∧ gains 1 p q (.well d) 0x100))
    row 1 (.mmaAr c) ∧ row 2 (.mmaRs c) ∧ row 3 (.agMma c) ∧ row 4 (.dispMma c) ∧ row 5 (.mmaComb c))

/-- An instruction of the vector unit that may issue while the unit runs another waits in its queue. For a word of one of the opcodes vadd to vexp that is a context's
next instruction and may issue to the free unit, with an accepted lane format f, plain handles, at least one row, and
ranges that pass. With no poisoned source the instruction ends done and VEC_INSTR gains one; every lane of row k of the destination is the operation on the same lane of
row k of the sources, encoded in f: in a vector register, whose other seven registers stay, or, where the destination is a store range that no
source meets, in its rows, outside of which every byte reads as before. With a poisoned source it ends failed.poison. A form that the checks
refuse retires failed.format, and a refused range ends the instruction with the check's status; neither changes memory or a vector register. Memory is in its canonical form. -/
def Obligations.ElementwiseVectorInstructions : Prop :=
  (∀ (s : State) (c : CtxId) (w : BitVec 128), mayRun s.pkg c w → vecFree s.pkg c.core = false → let p := s.pkg
    let queued (op : Nat) (e : Instr) := opOf w = op → Completes e s (fun q => (∃ i, issuedTo .vector p q c w i ∧ i.started = false ∧ i.ended = none)
      ∧ keepsBut [.ctxs, .insts, .nextId, .blocks] p q)
    queued 0x60 (.vadd c) ∧ queued 0x61 (.vsub c) ∧ queued 0x62 (.vmul c) ∧ queued 0x63 (.vfma c) ∧ queued 0x64 (.vmin c) ∧ queued 0x65 (.vmax c)
    ∧ queued 0x66 (.vrcp c) ∧ queued 0x67 (.vrsqrt c) ∧ queued 0x68 (.vexp c) ∧ queued 0x69 (.vsum c) ∧ queued 0x6A (.vrmax c) ∧ queued 0x6B (.vrmin c)
    ∧ queued 0x6C (.vargmax c) ∧ queued 0x6D (.vcvt c) ∧ queued 0x6E (.vbcast c) ∧ queued 0x6F (.vmerge c) ∧ queued 0x80 (.mov c) ∧ queued 0x81 (.fill c))
  ∧ ∀ (s : State) (c : CtxId) (w : BitVec 128), mayRun s.pkg c w → vecFree s.pkg c.core = true → Memory.wf s.pkg.mem = true →
    let p := s.pkg
    let i := (issueInst p c w).2
    let q0 := (issueInst p c w).1
    let src := vecSources i
    let dst := operandOf i 0 (slotC w) i.c
    let ins := src.flatMap VOperand.rng
    let lane (f : Fmt) (k l n : Nat) : Machine.Num := nth (nth (src.map (fun o => lanesOf f (o.row p c k))) n (List.replicate f.lanes (Machine.Num.fin false 0 0))) l .nan
    let result (f : Fmt) (k : Nat) : List Byte := lanesBytes f ((List.range f.lanes).map (fun l =>
      laneOp f (opOf w) (lane f k l 0) (lane f k l 1) (lane f k l 2)))
    let row (op : Nat) (e : Instr) := opOf w = op →
      (∀ f, laneFmt (bits w 27 24) = some f → vecFormOk i 0 = true → operandPlain i 0 i.c = true →
        (rangeCheck q0 c ins dst.rng false = Status.done → ins.any (Rng.anyBad p c) = false →
          (∀ n, dst = .reg n → Completes e s (fun q => endsAs Status.done p q c w ∧ gains 1 p q (.core c.core) 0x548
            ∧ leBytes 512 (vreg (ctxOf q c) n).toNat = result f 0 ∧ (∀ m, m ≠ n → vreg (ctxOf q c) m = vreg (ctxOf p c) m) ∧ q.mem = p.mem
            ∧ keepsBut [.ctxs, .insts, .nextId, .blocks, .regs] p q))
          ∧ (∀ r, dst = .mem r → (∀ a, a ∈ ins → Rng.meets p c a r = false) → Completes e s (fun q => endsAs Status.done p q c w
            ∧ gains 1 p q (.core c.core) 0x548 ∧ (∀ k, k < repOf i → memBytes q (r.row p c k) 512 = result f k)
            ∧ memBut (fun a => r.at_ p c ≤ a ∧ a < r.at_ p c + repOf i * 512) p q ∧ (ctxOf q c).v = (ctxOf p c).v
            ∧ keepsBut [.ctxs, .insts, .nextId, .blocks, .regs, .mem, .poison, .lost] p q)))
        ∧ (rangeCheck q0 c ins dst.rng false = Status.done → ins.any (Rng.anyBad p c) = true →
            Completes e s (fun q => endsAs Status.failedPoison p q c w))
        ∧ (rangeCheck q0 c ins dst.rng false ≠ Status.done →
            Completes e s (fun q => endsAs (rangeCheck q0 c ins dst.rng false) p q c w ∧ q.mem = p.mem ∧ (ctxOf q c).v = (ctxOf p c).v)))
      ∧ (laneFmt (bits w 27 24) = none ∨ vecFormOk i 0 = false ∨ operandPlain i 0 i.c = false →
          Completes e s (fun q => .item (.core c.core) p.nextId Status.failedFormat ∈ q.out ∧ q.mem = p.mem ∧ (ctxOf q c).v = (ctxOf p c).v))
    row 0x60 (.vadd c) ∧ row 0x61 (.vsub c) ∧ row 0x62 (.vmul c) ∧ row 0x63 (.vfma c) ∧ row 0x64 (.vmin c) ∧ row 0x65 (.vmax c)
    ∧ row 0x66 (.vrcp c) ∧ row 0x67 (.vrsqrt c) ∧ row 0x68 (.vexp c)

/-- For a word that is a context's next instruction and may issue to the free vector unit, whose form and ranges pass and whose sources hold no poison. vsum, vrmax, vrmin and vargmax:
result k of the rows, one element each, stands at element k of the destination, in a vector register whose later bytes stay or in the range, which the source does not meet. vcvt to a
register writes the converted row at its first bytes; to a store range that the source does not meet, each row's element bytes. vbcast fills every
lane of its rows. vmerge writes the merge of its records, scaled by the reciprocal of their sum when norm is set, and ends done.empty when every
record is empty. mov copies every row, poison included, and fill repeats rB over every row. Every one ends done with VEC_INSTR one greater, other vector
registers stay, and bytes outside the destination read as before. Memory is in its canonical form. -/
def Obligations.ReductionsConversionsAndMoves : Prop :=
  ∀ (s : State) (c : CtxId) (w : BitVec 128), mayRun s.pkg c w → vecFree s.pkg c.core = true → Memory.wf s.pkg.mem = true →
    let p := s.pkg
    let i := (issueInst p c w).2
    let q0 := (issueInst p c w).1
    let src := operandOf i 1 (slotA w) i.a
    let ended (st : Status) (q : Pkg) := endsAs st p q c w ∧ gains 1 p q (.core c.core) 0x548
    let inReg (bs : List Byte) (q : Pkg) := ended Status.done q ∧ (ctxOf q c).pc = ((ctxOf p c).pc + 1) % 65536
      ∧ leBytes 512 (vreg (ctxOf q c) (slotC w)).toNat = bs ++ (leBytes 512 (vreg (ctxOf p c) (slotC w)).toNat).drop bs.length
      ∧ (∀ m, m ≠ slotC w → vreg (ctxOf q c) m = vreg (ctxOf p c) m) ∧ keepsBut [.ctxs, .insts, .nextId, .blocks, .regs] p q
    let inMem (st : Status) (a n : Nat) (q : Pkg) := ended st q ∧ memBut (fun k => a ≤ k ∧ k < a + n) p q ∧ (ctxOf q c).v = (ctxOf p c).v
      ∧ keepsBut [.ctxs, .insts, .nextId, .blocks, .regs, .mem, .poison, .lost] p q
    let reduce (op : Nat) (e : Instr) := ∀ f, opOf w = op → laneFmt (bits w 27 24) = some f →
      let n := if op = 0x6C then 4 else f.bytes
      let o := (handleOf i.c).flat (repOf i * n)
      let all := (List.range (repOf i)).flatMap (fun k => reduceRow f op (lanesOf f (src.row p c k)))
      vecFormOk i (512 / n) = true → operandPlain i 0 i.c = true → src.rng.any (Rng.anyBad p c) = false →
      (bit w 32 = true → src ≠ .reg (slotC w) ∨ repOf i = 1 → rangeCheck q0 c src.rng [] false = Status.done → Completes e s (inReg all))
      ∧ (bit w 32 = false → rangeCheck q0 c src.rng [o] false = Status.done → (∀ a, a ∈ src.rng → Rng.meets p c a o = false) →
          Completes e s (fun q => inMem Status.done (o.at_ p c) (repOf i * n) q ∧ memBytes q (o.at_ p c) (repOf i * n) = all))
    reduce 0x69 (.vsum c) ∧ reduce 0x6A (.vrmax c) ∧ reduce 0x6B (.vrmin c) ∧ reduce 0x6C (.vargmax c)
    ∧ (∀ f d, opOf w = 0x6D → laneFmt (bits w 27 24) = some f → opFmt (bits w 31 28) = some d → vecFormOk i 0 = true → bit w 32 = true →
        d.isMx = false → rowBytes d f.lanes ≤ 512 → rangeCheck q0 c src.rng [] false = Status.done → src.rng.any (Rng.anyBad p c) = false →
        Completes (.vcvt c) s (inReg (convertRow d (bit w 36) (lanesOf f (src.row p c 0))).2))
    ∧ (∀ f d, opOf w = 0x6D → laneFmt (bits w 27 24) = some f → opFmt (bits w 31 28) = some d → vecFormOk i 0 = true → bit w 32 = false →
        d.isMx = false → (handleOf i.c).plain = true →
        let n := rowBytes d f.lanes
        let o : Rng := ⟨(handleOf i.c).pair, (handleOf i.c).eplane * 64, repOf i, n, if 512 < n then n else 512⟩
        rangeCheck q0 c src.rng [o] false = Status.done → src.rng.any (Rng.anyBad p c) = false → (∀ a, a ∈ src.rng → Rng.meets p c a o = false) →
        Completes (.vcvt c) s (fun q => inMem Status.done (o.at_ p c) o.len q
          ∧ ∀ k, k < repOf i → memBytes q (o.row p c k) n = (convertRow d (bit w 36) (lanesOf f (src.row p c k))).2))
    ∧ (∀ f, opOf w = 0x6E → laneFmt (bits w 27 24) = some f → vecFormOk i 0 = true → operandPlain i 0 i.c = true → bit w 33 = false →
        let bs := (List.replicate f.lanes (leBytes f.bytes i.a.toNat)).flatten
        (bit w 32 = true → Completes (.vbcast c) s (inReg bs))
        ∧ (∀ o, operandOf i 0 (slotC w) i.c = .mem o → rangeCheck q0 c [] [o] false = Status.done →
            Completes (.vbcast c) s (fun q => inMem Status.done (o.at_ p c) (repOf i * 512) q ∧ ∀ k, k < repOf i → memBytes q (o.row p c k) 512 = bs)))
    ∧ (∀ k d, opOf w = 0x6F → lenOf i.d = some k → laneFmt (bits w 31 28) = some d → bits w 27 24 = 9 → repOf i ≠ 0 → bit w 33 = false →
        (handleOf i.a).plain = true →
        let r : Rng := ⟨(handleOf i.a).pair, (handleOf i.a).eplane * 64, k, 520, 576⟩
        let m := mergeAll ((List.range k).filterMap (fun n => partialOf (r.read p c n)))
        let o := match m with
          | none => List.replicate 128 (Machine.Num.fin false 0 0)
          | some x => if bit w 37 then x.1.map (fun v => round32 (v.mul (rcp fp32 x.2.2))) else x.1
        r.anyBad p c = false →
        (bit w 32 = true → repOf i = 1 → m.isSome = true → rangeCheck q0 c [r] [] false = Status.done → Completes (.vmerge c) s (inReg (lanesBytes d o)))
        ∧ (bit w 32 = false → (handleOf i.c).plain = true → rangeCheck q0 c [r] [(handleOf i.c).flat (128 * d.bytes)] false = Status.done →
            let t := (handleOf i.c).flat (128 * d.bytes)
            Completes (.vmerge c) s (fun q => inMem (if m.isSome then Status.done else Status.doneEmpty) (t.at_ p c) (128 * d.bytes) q
              ∧ memBytes q (t.at_ p c) (128 * d.bytes) = lanesBytes d o)))
    ∧ (opOf w = 0x80 → movFormOk (handleOf i.a) i.d = true → movFormOk (handleOf i.c) i.d = true →
        let a := movRng (handleOf i.a) i.d
        let o := movRng (handleOf i.c) i.d
        rangeCheck q0 c [a] [o] true = Status.done →
        Completes (.mov c) s (fun q => inMem Status.done (o.at_ p c) o.len q ∧ (∀ k, k < o.rows → memBytes q (o.row p c k) o.n = readLocal p (a.row p c k) a.n)))
    ∧ (opOf w = 0x81 → movFormOk (handleOf i.c) i.d = true →
        let o := movRng (handleOf i.c) i.d
        rangeCheck q0 c [] [o] false = Status.done →
        Completes (.fill c) s (fun q => inMem Status.done (o.at_ p c) o.len q ∧ (∀ k, k < o.rows → memBytes q (o.row p c k) o.n
          = (List.replicate (o.n / 8) (leBytes 8 (sreg (ctxOf p c) (slotB w)).toNat)).flatten)))

/-- For a word that is a context's next instruction and may issue, whose form and ranges pass. To the own chip's DRAM, with nothing poisoned: cld writes the data
read into the store range, cst the store range into DRAM, catom applies its operation to the operand in place and writes rC with the old value, or with zero without
fetch; each ends done, and every other byte reads as before. To another chip of the domain, with budget: the request is sent, a frame of its
kind, chip, offset, flow and sequence waits at the die's router, and the instruction is listed unended. While quarantined each ends refused.quarantined, to a
fenced chip refused.fenced. BUDGET_WAIT_RECHECK sends the one request that stands in its flow's line on the die once its budget admits it, and leaves it waiting while it
does not. LATE_REPORT_RECEIVE ends the store request of the reported sequence; a report whose complement fails is dropped alone. Memory is in its canonical form. -/
def Obligations.CommonsInstructionsAndBudget : Prop :=
  (∀ (s : State) (c : CtxId) (w : BitVec 128), mayRun s.pkg c w → Memory.wf s.pkg.mem = true →
    let p := s.pkg
    let x := ctxOf p c
    let d := c.core.die
    let chip : Chip := BitVec.ofNat 16 (sreg x (slotA w)).toNat
    let len := bits w 87 76
    let h := handleOf (sreg x (slotX w))
    let lenOk := 4 ≤ len ∧ len ≤ 2048 ∧ len % 4 = 0 ∧ h.plain = true
    let flow := bits w 75 64
    let req : Option DWord := if slotD w = 0 then none else some (sreg x (slotD w))
    let n := if bit w 28 then 8 else 4
    let opOk := bits w 27 24 ≤ 9 ∧ (sreg x (slotB w)).toNat % n = 0
    let ends (st : Status) (q : Pkg) := ∃ i, i ∈ q.insts ∧ i.id = p.nextId ∧ i.ctx = c ∧ i.word = w ∧ i.ended = some st
    let local_ (q : Pkg) := ends Status.done q ∧ (ctxOf q c).pc = (x.pc + 1) % 65536 ∧ ctxsBut [c] p q ∧ q.creqs = p.creqs.filter (fun r => r.id != p.nextId)
    let goes := p.quarantined = false ∧ enabled p (cmnDie d) = true ∧ fenced p chip = false ∧ chip ≠ ownChip p
    let sent (kind off : Nat) (q : Pkg) := (∃ i, i ∈ q.insts ∧ i.id = p.nextId ∧ i.ctx = c ∧ i.word = w ∧ i.ended = none)
      ∧ ∃ r, r ∈ q.creqs ∧ r.id = p.nextId ∧ r.kind = kind ∧ r.chip = chip ∧ r.off = off ∧ r.stage = .sent ∧ r.copies = 1
        ∧ ∃ f, ⟨f, none⟩ ∈ (router q d).inq ∧ f.kind = kind ∧ f.dst = chip ∧ f.off = off ∧ f.flow = flow ∧ f.seq = r.seq
    let maySend (n : Nat) := goes ∧ inDomain p (cmnDie d) chip = true ∧ enabled p (.drt d) = true ∧ (∃ due, admitCheck p d flow req n = .ok due)
      ∧ pairOk p (cmnDie d) 0x088 = true ∧ (flow = 0xFFF ∨ flowLine p d flow = [])
    (∀ off a, opOf w = 0xB0 → lenOk → pairAddr p c .commons (sreg x (slotB w)).toNat len = some off → storeCheck p c h.pair (h.eplane * 64) len = .ok a →
      (chip = ownChip p → dramReach p off len = Status.done → localPoisoned p off len = false →
        Completes (.cld c) s (fun q => local_ q ∧ (ctxOf q c).s = x.s ∧ memBytes q a len = readLocal p off len ∧ memBut (fun k => a ≤ k ∧ k < a + len) p q))
      ∧ (maySend 8 → Completes (.cld c) s (sent 5 off))
      ∧ (chip ≠ ownChip p → p.quarantined = true → Completes (.cld c) s (ends Status.refusedQuarantined)))
    ∧ (∀ off a, opOf w = 0xB1 → lenOk → pairAddr p c .commons (sreg x (slotB w)).toNat len = some off → storeCheck p c h.pair (h.eplane * 64) len = .ok a →
      (chip = ownChip p → dramWrite p off len = Status.done → localPoisoned p off len = false → localPoisoned p a len = false →
        (bit w 24 = false ∨ (p.bobs = [] ∧ x.firstBad = none ∧ ∀ r, r ∈ p.creqs → r.ctx ≠ c)) → Completes (.cst c) s (fun q => local_ q ∧ (ctxOf q c).s = x.s ∧ readLocal q off len = readLocal p a len
          ∧ memBut (fun k => ∃ j, j < len ∧ k = phys p (off + j)) p q))
      ∧ (maySend len → (bit w 24 = false ∨ (p.bobs = [] ∧ x.firstBad = none ∧ ∀ r, r ∈ p.creqs → r.ctx ≠ c)) →
          Completes (.cst c) s (sent 4 off))
      ∧ (p.quarantined = false → enabled p (cmnDie d) = true → chip ≠ ownChip p → fenced p chip = true →
          Completes (.cst c) s (ends Status.refusedFenced)))
    ∧ (∀ off, opOf w = 0xB2 → opOk → pairAddr p c .commons (sreg x (slotB w)).toNat n = some off →
      (chip = ownChip p → dramWrite p off n = Status.done → localPoisoned p off n = false →
        let old := leNat (readLocal p off n)
        Completes (.catom c) s (fun q => local_ q
          ∧ readLocal q off n = leBytes n (atomNew (bits w 27 24) (8 * n) old (sreg x (slotX w)).toNat (sreg x (bits w 92 88)).toNat)
          ∧ writesScalar x (ctxOf q c) (slotC w) (if bit w 29 then BitVec.ofNat 64 old else 0)
          ∧ memBut (fun k => ∃ j, j < n ∧ k = phys p (off + j)) p q))
      ∧ (maySend 32 → windowRoom (atomWinOf p d chip) = true → Completes (.catom c) s (fun q => sent 6 off q
          ∧ (atomWinOf q d chip).next = (atomWinOf p d chip).next + 1))
      ∧ (chip ≠ ownChip p → p.quarantined = true → Completes (.catom c) s (ends Status.refusedQuarantined))))
  ∧ (∀ (s : State) (d : Fin 4) (r : CReq), s.pkg.creqs = [r] → r.stage = .budget → r.ctx.core.die = d → s.pkg.bobs = [] → r.copies = 0 →
    r.ticket ≠ 0 → flowLine s.pkg d r.flow = [((0, r.id), r.ticket)] → waitingTwins s.pkg d = [] → pairOk s.pkg (cmnDie d) 0x088 = true →
    let p := s.pkg
    (∀ due, admitCheck p d r.flow r.dueReq r.payloadLen = .ok due → enabled p (.drt d) = true →
      Completes (.budgetWaitRecheck d) s (fun q => (∃ y, q.creqs = [y] ∧ y.id = r.id ∧ y.stage = .sent ∧ y.copies = 1
        ∧ ∃ f, ⟨f, none⟩ ∈ (router q d).inq ∧ f.kind = r.kind ∧ f.dst = r.chip ∧ f.off = r.off ∧ f.seq = y.seq)
        ∧ keepsBut [.creqs, .routers, .nextSeq, .budget, .blocks, .regs] p q))
    ∧ (admitCheck p d r.flow r.dueReq r.payloadLen = .wait → Completes (.budgetWaitRecheck d) s (keepsBut [] p)))
  ∧ (∀ (s : State) (v : Delivered), s.pkg.inbox.find? (fun x => x.frame.kind == 3 && x.frame.off == 3) = some v →
    let p := s.pkg
    let b := v.frame.payload
    let q0 : Pkg := { p with inbox := dropFirst (fun x => x.frame.kind == 3 && x.frame.off == 3) p.inbox }
    (complOk 32 b = false → Completes .lateReportReceive s (fun q => q.inbox = q0.inbox ∧ keepsBut [.inbox] p q))
    ∧ (∀ st r, complOk 32 b = true → lateStatus (leField b 0 2 / 4096) = some st → pendingTwin q0 (BitVec.ofNat 32 (leField b 12 4)) = none →
        reqBySeq q0 (BitVec.ofNat 32 (leField b 12 4)) = some r → r.kind = 4 →
        Completes .lateReportReceive s (fun q => q.inbox = q0.inbox ∧ q.creqs = p.creqs.filter (fun y => y.id != r.id)
          ∧ (∀ i, i ∈ q.insts → i.id = r.inst → i.ended ≠ none) ∧ q.mem = p.mem
          ∧ keepsBut [.inbox, .creqs, .insts, .ctxs, .blocks, .atomWins] p q)))

/-- bob.put, when it may issue, of one descriptor that passes R196: the descriptor waits in the named queue of the named bobbin, with the instruction as its source, TALLY_IN
of the bobbin gains one, and the instruction is listed unended; a cluster or malformed handle retires failed.format. POST_CMD that is let through: an accepted descriptor
waits in the queue with its completion entry reserved and POST_RESULT done; a refused one leaves POST_RESULT with its status, sets post_refused and
queues nothing and counts in DESC_FAILED unless its queue was full. DESCRIPTOR_START of a bobbin whose places are full, or with nothing waiting, changes nothing; a waiting land
descriptor becomes active, and its slot frees at its end. A stray answer is counted
in STRAY_ACKS with stray_ack; an answer to an outstanding write frame ends that frame. ACK_DEADLINE past the deadline ends the frame unknown.no_ack.
DESCRIPTOR_END of a posting that is over: its completion entry holds queue, status and tag, its item ends, and it leaves the queue. DONE_HI pops an entry;
LAND_FULL_CLEAR frees exactly the slots written 1, where no payload waits for one. -/
def Obligations.BobbinsQueueMoveAndEnd : Prop :=
  (∀ (s : State) (c : CtxId) (w : BitVec 128), mayRun s.pkg c w → opOf w = 0xA0 →
    let p := s.pkg
    let h := handleOf (sreg (ctxOf p c) (slotA w))
    let b : BobId := .cluster c.core.die c.core.cluster (if bit w 24 then 1 else 0)
    let k := bits w 31 28
    (∀ a d, (∀ i, i ∈ p.insts → i.id < p.nextId) → bits w 68 64 = 0 → h.plain = true → h.cluster = false → storeCheck p c .core (h.eplane * 64) 64 = .ok a →
      pairOk p (.bob b) 0x088 = true → (handSpaces (descWord (readLocal p a 64))).all (pairSound p c) = true →
      offer p b (some c) k (readLocal p a 64) = .yes d →
      Completes (.bobPut c) s (fun q => (∃ e, (bobOf q b).descs = (bobOf p b).descs ++ [e] ∧ e.queue = k ∧ e.source = .put p.nextId c a
          ∧ e.op = d.op ∧ e.len = d.len ∧ e.srcOff = d.srcOff ∧ e.dstOff = d.dstOff ∧ e.tag = d.tag ∧ e.active = false)
        ∧ (block q (.bob b)).tin = (block p (.bob b)).tin + 1 ∧ (∃ i, i ∈ q.insts ∧ i.id = p.nextId ∧ i.word = w ∧ i.ctx = c ∧ i.ended = none)
        ∧ (ctxOf q c).pc = ((ctxOf p c).pc + 1) % 65536 ∧ (ctxOf q c).s = (ctxOf p c).s ∧ (∀ y, y ≠ b → bobOf q y = bobOf p y)
        ∧ keepsBut [.ctxs, .insts, .nextId, .bobs, .blocks] p q))
    ∧ (h.plain = false ∨ h.cluster = true → Completes (.bobPut c) s (fun q => .item (.core c.core) p.nextId Status.failedFormat ∈ q.out
        ∧ q.mem = p.mem ∧ ctxsBut [c] p q)))
  ∧ (∀ (s : State) (ag : Agent) (b : BobId) (k : Fin 16), letThrough true s.pkg ag (.bob b) 0x240 →
    let p := countDebug s.pkg ag
    let bytes := (List.range 16).flatMap (fun i => leBytes 4 (getReg p (.bob b) (0x200 + 4 * i)).toNat)
    pairOk p (.bob b) 0x088 = true → (∀ d, offer p b none k.val bytes = .yes d → Completes (.postCmdGo ag b k) s (fun q =>
      (bobOf q b).descs = (bobOf p b).descs ++ [{ d with order := p.nextId }] ∧ (bobOf q b).postResult = some Status.done
      ∧ (d.source = .posting → (bobOf q b).reserved = (bobOf p b).reserved + 1) ∧ (block q (.bob b)).tin = (block p (.bob b)).tin + 1
      ∧ getReg q (.bob b) 0x244 = 0x80000000#32 ∧ (∀ y, y ≠ b → bobOf q y = bobOf p y)
      ∧ regsBut [(.bob b, 0x244)] p q ∧ keepsBut [.bobs, .regs, .blocks, .nextId] p q))
    ∧ (∀ st, offer p b none k.val bytes = .no st → st ≠ Status.done → Completes (.postCmdGo ag b k) s (fun q =>
      (bobOf q b).descs = (bobOf p b).descs ∧ (bobOf q b).postResult = some st ∧ hasEvent q (.bob b) evPostRefused
      ∧ (st ≠ Status.refusedFull → gains 1 p q (.bob b) 0x120 ∧ hasEvent q (.bob b) evDescFailed) ∧ (block q (.bob b)).tin = (block p (.bob b)).tin
      ∧ bits (getReg q (.bob b) 0x244) 15 0 = st.toNat ∧ (∀ y, y ≠ b → bobOf q y = bobOf p y) ∧ keepsBut [.bobs, .regs, .blocks, .alerts] p q)))
  ∧ (∀ (s : State) (b : BobId), pairOk s.pkg (.bob b) 0x088 = true → nextQueue (bobOf s.pkg b) = none ∨ maxActive s.pkg b ≤ ((bobOf s.pkg b).descs.filter (fun d => d.active)).length →
      Completes (.descriptorStart b) s (keepsBut [] s.pkg))
  ∧ (∀ (s : State) (b : BobId) (d : Desc) (n : Nat), pairOk s.pkg (.bob b) 0x088 = true → (bobOf s.pkg b).descs = [d] → d.active = false → d.stopped = false → d.queue < 16 → d.op = 3 →
    d.slot = some n → s.pkg.insts = [] → s.pkg.creqs = [] → (checkAccess s.pkg (.bobbin b) d.dstOff d.len).2 = Status.done → writeBarred s.pkg d.dstOff d.len = false →
    startHeld s.pkg d = false → Completes (.descriptorStart b) s (fun q => (∃ e, (bobOf q b).descs = [e] ∧ e.order = d.order ∧ e.active = true) ∧ (bobOf q b).slots = (bobOf s.pkg b).slots
      ∧ (bobOf q b).lastQueue = d.queue ∧ (∀ y, y ≠ b → bobOf q y = bobOf s.pkg y)))
  ∧ (∀ (s : State) (die : Fin 4) (x : Delivered), s.pkg.inbox.find? (isMoveResp die) = some x →
    let p := s.pkg
    let q0 : Pkg := { p with inbox := dropFirst (isMoveResp die) p.inbox }
    (∀ b, frameHolder q0 x.frame.seq = none → bobOfInj x.frame.inj = some b →
      Completes (.moveFrameAckReceive die) s (fun q => gains 1 p q (.bob b) 0x140 ∧ hasEvent q (.bob b) evStrayAck ∧ q.inbox = q0.inbox
        ∧ keepsBut [.inbox, .regs, .blocks, .alerts] p q))
    ∧ (∀ b d f, frameHolder q0 x.frame.seq = some (b, d, f) → f.read = false → respStatus x.frame = Status.done →
      Completes (.moveFrameAckReceive die) s (fun q => q.inbox = q0.inbox ∧ (∀ e, e ∈ (bobOf q b).descs → e.order = d.order →
          ∀ g, g ∈ e.frames → g.seq = f.seq → g.ended = some Status.done)
        ∧ (∀ y, y ≠ b → bobOf q y = bobOf p y) ∧ keepsBut [.inbox, .bobs] p q)))
  ∧ (∀ (s : State) (b : BobId) (n : Word) (d : Desc) (f : MoveFrame), frameHolder s.pkg n = some (b, d, f) →
    (s.pkg.bell.toNat < f.deadline.toNat → Completes (.ackDeadline b n) s (keepsBut [] s.pkg))
    ∧ (f.deadline.toNat ≤ s.pkg.bell.toNat → Completes (.ackDeadline b n) s (fun q => gains 1 s.pkg q (.bob b) 0x118
        ∧ (∀ e, e ∈ (bobOf q b).descs → e.order = d.order → ∀ g, g ∈ e.frames → g.seq = f.seq → g.ended = some Status.unknownNoAck)
        ∧ (∀ y, y ≠ b → bobOf q y = bobOf s.pkg y) ∧ q.mem = s.pkg.mem)))
  ∧ (∀ (s : State) (b : BobId) (k : Fin 16) (d : Desc), ((bobOf s.pkg b).queueDescs k.val).find? (fun x => x.isOver) = some d → d.source = .posting →
    s.pkg.insts = [] → s.pkg.creqs = [] → (d.op = 3 → s.pkg.inbox = []) →
    let p := s.pkg
    Completes (.descriptorEnd b k) s (fun q => (d.op = 3 → Map.look (bobOf q b).slots (d.slot.getD 0) = none) ∧ (bobOf q b).fifo = (bobOf p b).fifo ++ [(d.queue, d.status, d.tag)]
      ∧ (bobOf q b).reserved = (bobOf p b).reserved - 1 ∧ (bobOf q b).descs = (bobOf p b).descs.filter (fun e => e.order != d.order)
      ∧ (block q (.bob b)).tout = (block p (.bob b)).tout + 1 ∧ .item (.bob b) d.tag.toNat d.status ∈ q.out
      ∧ (Status.cls d.status ≠ 0 → hasEvent q (.bob b) evDescFailed) ∧ (∀ y, y ≠ b → bobOf q y = bobOf p y)
      ∧ keepsBut [.bobs, .regs, .blocks, .alerts, .out] p q))
  ∧ (∀ (s : State) (k : Fin 8) (v : Word), stateOf s.pkg (.bob (.gateway k)) ≠ .off → (∀ x, x ∈ s.pkg.inbox → waitsForSlot x.frame = true → x.slot.isSome = true) →
    Completes (.landFullClear k v) s (fun q => (bobOf q (.gateway k)).slots = (bobOf s.pkg (.gateway k)).slots.filter (fun x => !bit v x.1)
      ∧ (bobOf q (.gateway k)).descs = (bobOf s.pkg (.gateway k)).descs ∧ (bobOf q (.gateway k)).fifo = (bobOf s.pkg (.gateway k)).fifo
      ∧ (∀ y, y ≠ .gateway k → bobOf q y = bobOf s.pkg y) ∧ keepsBut [.bobs] s.pkg q))
  ∧ (∀ (s : State) (ag : Agent) (b : BobId) (hi : Word), letThrough false s.pkg ag (.bob b) 0x0A4 → (bobOf s.pkg b).popHeld = true →
    Map.look s.pkg.rg.latches (ag, .bob b) = some ⟨0x0A0, hi⟩ →
    Completes (.doneHiRead ag b) s (fun q => let p := countDebug s.pkg ag
      puts [.access ag Status.done hi] p q ∧ (bobOf q b).fifo = (bobOf p b).fifo.drop 1 ∧ (bobOf q b).popHeld = false
      ∧ (bobOf q b).descs = (bobOf p b).descs ∧ Map.look q.rg.latches (ag, .bob b) = none ∧ (∀ y, y ≠ b → bobOf q y = bobOf p y)
      ∧ keepsBut [.bobs, .latches, .out] p q))

/-- mill, when it may issue with plain handles, a sound block, readable rows and a region that passes: every selected mill is sent exactly one command of the instruction, no other
mill is sent any, and the instruction is listed unended; a refused block retires failed.format. MILL_COMMAND_ARRIVE: the core's oldest command enters the queue of an ENABLED mill with room, with TALLY_IN; a mill that is
not ENABLED, or whose stack is not, takes none; a full queue changes nothing. MILL_ATTEND of an idle mill whose front command is an attend with a sound list
head: it runs over its share of the entries, MILL_CMDS gains one. An attend whose list head
lies in a row under copy waits. MILL_TEST likewise starts a test, which will end failed.mill when a phase fails, or within 32 cycles, and 4 more of a gated mill, when the residues differ. MILL_PAGE_DONE once the page's cycles are over and its lines read: the
share goes on by one entry, MILL_PAGES gains one and every row has taken the page; before them nothing changes; a residue mismatch stops the command failed.mill. MILL_COMMAND_END of a
finished command: the mill runs nothing, the item ends with the status, each record of a done status stands at its place, other bytes stay. MILL_CLOCK_GATE gates a mill idle for
gate_delay × 16 ticks. Memory is in its canonical form. -/
def Obligations.MillsAttendAndTest : Prop :=
  (∀ (s : State) (c : CtxId) (w : BitVec 128), mayRun s.pkg c w → opOf w = 0x90 →
    let p := s.pkg
    let q0 := (issueInst p c w).1
    let ha := handleOf (sreg (ctxOf p c) (slotA w))
    let hc := handleOf (sreg (ctxOf p c) (slotC w))
    let b := (ha.flat 64).read p c 0
    let rows : Rng := ⟨ha.pair, ha.eplane * 64 + 64, if blkCmd b = 1 then 1 else 0, 128 * blkRows b, 128 * blkRows b⟩
    let region := hc.flat (recordRows b * (selectedMills w).length * recordBytes b)
    (ha.plain = true → hc.plain = true → selectedMills w ≠ [] → rangeCheck q0 c [ha.flat 64] [] false = Status.done → (ha.flat 64).bad p c 0 = false →
      (blkOk b = true → rangeCheck q0 c [ha.flat 64, rows] [region] true = Status.done → rows.anyBad p c = false →
        Completes (.mill c) s (fun q => (∃ i, issuedTo .mill p q c w i ∧ i.started = false ∧ i.ended = none)
          ∧ (∀ m, m ∈ selectedMills w → ∃ x, (millOf q m).path = (millOf p m).path ++ [x] ∧ x.inst = p.nextId ∧ x.ctx = c ∧ x.blk = b
              ∧ x.nsel = (selectedMills w).length ∧ x.dest = region.at_ p c)
          ∧ (∀ m, m ∉ selectedMills w → millOf q m = millOf p m) ∧ keepsBut [.ctxs, .insts, .nextId, .blocks, .mills] p q))
      ∧ (blkOk b = false → Completes (.mill c) s (fun q => .item (.core c.core) p.nextId Status.failedFormat ∈ q.out ∧ q.mills = p.mills ∧ q.mem = p.mem))))
  ∧ (∀ (s : State) (m : MillId) (k : CoreId),
    let p := s.pkg
    let x := millOf p m
    (∀ c, x.path.find? (fun c => c.ctx.core == k) = some c →
      (enabled p (.mill m) = true → enabled p (.memc m.stack) = true → x.queue.length < 32 → Completes (.millCommandArrive m k) s (fun q =>
        (millOf q m).queue = x.queue ++ [c] ∧ (millOf q m).path = x.path.erase c ∧ (block q (.mill m)).tin = (block p (.mill m)).tin + 1
        ∧ (∀ y, y ≠ m → millOf q y = millOf p y) ∧ blocksBut [.mill m] p q ∧ keepsBut [.mills, .blocks, .insts] p q))
      ∧ (enabled p (.mill m) = false ∨ enabled p (.memc m.stack) = false → Completes (.millCommandArrive m k) s (fun q =>
        (millOf q m).queue = x.queue ∧ (millOf q m).path = x.path.erase c ∧ (∀ y, y ≠ m → millOf q y = millOf p y)
        ∧ (∀ i, i ∈ q.insts → i.id = c.inst → Status.refusedOffline.toNat ≤ i.worst.toNat) ∧ keepsBut [.mills, .insts] p q))
      ∧ (enabled p (.mill m) = true → enabled p (.memc m.stack) = true → 32 ≤ x.queue.length → Completes (.millCommandArrive m k) s (keepsBut [] p)))
    ∧ (x.path.find? (fun c => c.ctx.core == k) = none → Completes (.millCommandArrive m k) s (keepsBut [] p)))
  ∧ (∀ (s : State) (m : MillId) (c : MillCmd) (rest : List MillCmd), (millOf s.pkg m).run = none → (millOf s.pkg m).queue = c :: rest →
    let p := s.pkg
    let h := stackBytes p m.stack (blkList c.blk) 64
    (blkCmd c.blk ≠ 1 ∨ enabled p (.memc m.stack) = true ∧ rowHeld p m.stack (blkList c.blk) = true → Completes (.millAttend m .clean) s (keepsBut [] p))
    ∧ (blkCmd c.blk = 1 → enabled p (.memc m.stack) = true → rowHeld p m.stack (blkList c.blk) = false → inRelief p m.stack (blkList c.blk) = false →
        poisoned p (m.stack.val * 2 ^ 36 + blkList c.blk) = false →
        Completes (.millAttend m .clean) s (fun q => (millOf q m).queue = rest ∧ gains 1 p q (.mill m) 0x100 ∧ (millOf q m).gated = false
          ∧ (∃ r, (millOf q m).run = some r ∧ r.cmd = c ∧ r.start = p.count ∧ r.entries = 0
            ∧ (headOk h c.blk = true → r.status = none ∧ r.list = h ∧ r.cur = leField h 0 2 * c.r / c.n ∧ r.stop = leField h 0 2 * (c.r + 1) / c.n)
            ∧ (headOk h c.blk = false → r.status = some Status.failedFormat ∧ hasEvent q (.mill m) evListBad))
          ∧ (∀ y, y ≠ m → millOf q y = millOf p y)))
    ∧ (blkCmd c.blk ≠ 2 → Completes (.millTest m ⟨none, false⟩) s (keepsBut [] p))
    ∧ (blkCmd c.blk = 2 → ∀ f, Completes (.millTest m ⟨f, true⟩) s (fun q => hasEvent q (.mill m) evResidue ∧ gains 1 p q (.mill m) 0x128
        ∧ (∃ r, (millOf q m).run = some r ∧ r.cmd = c ∧ r.status = some Status.failedMill ∧ r.readyAt ≤ p.count + 36) ∧ (∀ y, y ≠ m → millOf q y = millOf p y)))
    ∧ (blkCmd c.blk = 2 → ∀ f, Completes (.millTest m ⟨f, false⟩) s (fun q => (millOf q m).queue = rest ∧ gains 1 p q (.mill m) 0x100
        ∧ (∃ r, (millOf q m).run = some r ∧ r.cmd = c ∧ r.start = p.count
          ∧ r.status = some (match f with | some _ => Status.failedMill | none => Status.done))
        ∧ (∀ y, y ≠ m → millOf q y = millOf p y) ∧ keepsBut [.mills, .regs, .free, .mem, .poison] p q)))
  ∧ (∀ (s : State) (m : MillId) (r : MillRun), (millOf s.pkg m).run = some r →
    let p := s.pkg
    let es := blkList r.cmd.blk + 64 + 8 * r.cur
    let e := ((listLine p m.stack r es).1.drop (es % 64)).take 8
    let l := millLines p m.stack [] (entryLines (r.entries == 0) es (leField e 0 3))
    (p.count < r.readyAt ∨ r.stop ≤ r.cur ∨ r.status.isSome = true → ∀ f x, Completes (.millPageDone m f x) s (keepsBut [] p))
    ∧ (blkCmd r.cmd.blk = 1 → r.status = none → r.cur < r.stop → r.readyAt ≤ p.count → (stackOf p m.stack).copy = none →
        1 ≤ leField e 3 1 → leField e 3 1 ≤ 16 → l.2 = Status.done →
        Completes (.millPageDone m [] false) s (fun q => gains 1 p q (.mill m) 0x108
          ∧ (∃ t, (millOf q m).run = some t ∧ t.cmd = r.cmd ∧ t.cur = r.cur + 1 ∧ t.entries = r.entries + 1 ∧ t.status = none
            ∧ t.rows = millCompute l.1 m.stack r e ∧ p.count < t.readyAt))
        ∧ Completes (.millPageDone m [] true) s (fun q => hasEvent q (.mill m) evResidue ∧ gains 1 p q (.mill m) 0x128
          ∧ ∃ t, (millOf q m).run = some t ∧ t.cmd = r.cmd ∧ t.cur = r.cur ∧ t.status = some Status.failedMill))
    ∧ (∀ st, Memory.wf p.mem = true → r.readyAt ≤ p.count → r.status = some st → Status.cls st = 0 → 0x00C000000000 ≤ r.cmd.dest → 1 ≤ r.cmd.nsel →
        let n := recordBytes r.cmd.blk
        let at_ (i : Nat) := r.cmd.dest + (i * r.cmd.nsel + r.cmd.j) * n
        Completes (.millCommandEnd m) s (fun q => (millOf q m).run = none ∧ (millOf q m).idleAt = p.count ∧ gains (p.count - r.start) p q (.mill m) 0x118
          ∧ puts [.item (.mill m) r.cmd.inst st] p q ∧ (block q (.mill m)).tout = (block p (.mill m)).tout + 1
          ∧ (blkCmd r.cmd.blk = 2 → memBytes q (at_ 0) 64 = testRecord p m r st)
          ∧ (blkCmd r.cmd.blk = 1 → (∀ x, x ∈ r.rows → x.o.length = 128) → ∀ i, i < blkRows r.cmd.blk →
              memBytes q (at_ i) 576 = attendRecord p m r st i (nth r.rows i MillRow.fresh))
          ∧ ((∀ x, x ∈ r.rows → x.o.length = 128) → memBut (fun a => ∃ i, i < recordRows r.cmd.blk ∧ at_ i ≤ a ∧ a < at_ i + n) p q)))
    ∧ (p.count < r.readyAt → Completes (.millCommandEnd m) s (keepsBut [] p)))
  ∧ (∀ (s : State) (m : MillId), (millOf s.pkg m).run = none → (millOf s.pkg m).queue = [] → pairOk s.pkg (.mill m) 0x088 = true →
    let n := bits (getReg s.pkg (.mill m) 0x088) 11 8
    (n ≠ 0 → (millOf s.pkg m).idleAt + 16 * n ≤ s.pkg.count → Completes (.millClockGate m) s (fun q =>
      millOf q m = { millOf s.pkg m with gated := true } ∧ (∀ y, y ≠ m → millOf q y = millOf s.pkg y) ∧ keepsBut [.mills] s.pkg q))
    ∧ (n = 0 ∨ s.pkg.count < (millOf s.pkg m).idleAt + 16 * n → Completes (.millClockGate m) s (keepsBut [] s.pkg)))

/-- MAP_COMMIT of a pw_gib up to 64 on a page that is not OFF while no MEMC page is ENABLED or DRAINING commits the map with its complement; while one is,
it sets map_busy alone. LINE_REQUEST to an ENABLED stack with a sound map and configuration, outside the relief pages: one to a row under a
repair copy is held, accepted and not ended; else a read of a sound line answers done and the line's 64
bytes and counts them, of a poisoned line donePoisoned and 0xFF bytes, of a line found uncorrectable the same with ue set and the line poisoned from then
on; a write of a whole line stores it, clears its tag and leaves every other byte; a partial write stores its bytes and leaves the tags; a write to a page
retired unrelieved and every request to a stack that is not ENABLED or to a relief page ends refused.offline with memory as it was. The premise that
memory is in its canonical form is an invariant stated on its own. -/
def Obligations.MapCommitAndLineRequests : Prop :=
  (∀ (s : State) (v : Word), stateOf s.pkg (.memc 0) ≠ .off → bits v 6 0 ≤ 64 →
    let p := s.pkg
    ((∀ n, stateOf p (.memc n) ≠ .enabled ∧ stateOf p (.memc n) ≠ .draining) →
      Completes (.mapCommit v) s (fun q => getReg q (.memc 0) 0x090 = v &&& 0x7F#32 ∧ getReg q (.memc 0) 0x094 = ~~~(v &&& 0x7F#32)
        ∧ (v &&& 0xFFFFFF80#32 ≠ 0 → hasEvent q (.memc 0) evRsvdWrite)
        ∧ regsBut [(.memc 0, 0x090), (.memc 0, 0x094)] p q ∧ keepsBut [.regs, .blocks, .alerts] p q))
    ∧ (∀ n, stateOf p (.memc n) = .enabled ∨ stateOf p (.memc n) = .draining → Completes (.mapCommit v) s (onlyRaises (.memc 0) 24 p)))
  ∧ (∀ (s : State) (n : Fin 12) (off : Nat) (mill : Bool), pairOk s.pkg (.memc 0) 0x090 = true → pairOk s.pkg (.memc n) 0x088 = true →
    enabled s.pkg (.memc n) = true →
    let p := s.pkg
    let x := off % 2 ^ 36
    let a := n.val * 2 ^ 36 + x
    let counted (k l : Nat) (q : Pkg) : Prop := gains l p q (.memc n) (if mill then 0x148 else k)
      ∧ (block q (.memc n)).tin = (block p (.memc n)).tin + 1 ∧ (block q (.memc n)).tout = (block p (.memc n)).tout + 1 ∧ blocksBut [.memc n] p q
    (inRelief p n x = false → rowHeld p n x = true → ∀ data tagged e, Completes (.lineRequest n off data tagged mill e) s (fun q =>
      stackOf q n = { stackOf p n with held := (stackOf p n).held ++ [⟨off, data, tagged, mill, false, e⟩], heldAt := some ((stackOf p n).heldAt.getD p.count) }
      ∧ (block q (.memc n)).tin = (block p (.memc n)).tin + 1 ∧ (block q (.memc n)).tout = (block p (.memc n)).tout
      ∧ (∀ m, m ≠ n → stackOf q m = stackOf p m) ∧ blocksBut [.memc n] p q ∧ keepsBut [.stackUnits, .blocks] p q))
    ∧ (inRelief p n x = false → rowHeld p n x = false →
      (poisoned p a = false → Completes (.lineRequest n off none false mill .clean) s (fun q =>
        puts [.line (.memc n) Status.done (memBytes p (n.val * 2 ^ 36 + x / 64 * 64) 64)] p q ∧ counted 0x138 64 q ∧ keepsBut [.out, .regs, .blocks] p q))
      ∧ (poisoned p a = true → Completes (.lineRequest n off none false mill .clean) s (fun q =>
        puts [.line (.memc n) Status.donePoisoned (List.replicate 64 0xFF#8)] p q ∧ counted 0x138 64 q ∧ gains 1 p q (.memc n) 0x110
        ∧ keepsBut [.out, .regs, .blocks] p q))
      ∧ (∀ sym, Completes (.lineRequest n off none false mill (.two sym)) s (fun q =>
        puts [.line (.memc n) Status.donePoisoned (List.replicate 64 0xFF#8)] p q ∧ hasEvent q (.memc n) 17 ∧ poisoned q a = true
        ∧ gains 1 p q (.memc n) 0x108 ∧ memBut (fun b => b / 64 = a / 64) p q
        ∧ keepsBut [.out, .regs, .blocks, .alerts, .mem, .poison, .records, .stackUnits] p q))
      ∧ (∀ bs : List Byte, unrelieved p n x = false → Memory.wf p.mem = true →
          (bs.length = 64 → x % 64 = 0 → Completes (.lineRequest n off (some bs) false mill .clean) s (fun q =>
            puts [.line (.memc n) Status.done []] p q ∧ memBytes q a 64 = bs ∧ poisoned q a = false ∧ memBut (fun b => b / 64 = a / 64) p q
            ∧ counted 0x140 64 q ∧ keepsBut [.out, .regs, .blocks, .mem, .poison, .lost] p q))
          ∧ (bs.length < 64 → x % 64 + bs.length ≤ 64 → poisoned p (n.val * 2 ^ 36 + x / 64 * 64) = false →
            Completes (.lineRequest n off (some bs) false mill .clean) s (fun q =>
              puts [.line (.memc n) Status.done []] p q ∧ memBytes q a bs.length = bs ∧ memBut (fun b => a ≤ b ∧ b < a + bs.length) p q
              ∧ counted 0x140 bs.length q ∧ keepsBut [.out, .regs, .blocks, .mem] p q)))
      ∧ (∀ bs tagged e, unrelieved p n x = true → Completes (.lineRequest n off (some bs) tagged mill e) s (fun q =>
          puts [.line (.memc n) Status.refusedOffline []] p q ∧ keepsBut [.out, .blocks] p q))))
  ∧ (∀ (s : State) (n : Fin 12) (off : Nat) (data : Option (List Byte)) (tagged mill : Bool) (e : LineErr), pairOk s.pkg (.memc 0) 0x090 = true →
    enabled s.pkg (.memc n) = false ∨ pairOk s.pkg (.memc n) 0x088 = true ∧ inRelief s.pkg n (off % 2 ^ 36) = true →
    Completes (.lineRequest n off data tagged mill e) s (fun q => puts [.line (.memc n) Status.refusedOffline []] s.pkg q ∧ keepsBut [.out] s.pkg q))

/-- REPAIR_COPY_END with no error found, no bobbin at work, nothing waiting and room in the log: after a sound read-back the row is redirected to the spare or
relief page its kind names, with repaired or relieved set and one log entry, HOLD_TICKS gains the ticks since the first held access, and a held read is
answered; after a bad one the target is dead and the repair starts again. With no copy it changes nothing. PATROL_SCRUB on an ENABLED stack with a sound
configuration once its interval is over advances the position, counts 32 lines and ends a pass with scrub_pass; before that it changes nothing. REFRESH_INTERVAL
refreshes the next bank when due, the first of an interval when the one before is over and the others spread over it (the model's choice, log entry 47), and else
changes nothing. STACK_TEMP_SAMPLE when due writes STACK_TEMP, raises the step at
once to what the temperature asks, lowers it by one with the hundredth sample 2 °C below its threshold and sets refresh_step on a change; before that it
changes nothing. COMPAT_DUTY_STEP in compatibility mode moves the duty of the die by one sixteenth, at most once in 100 µs down and 1 ms up, and not
otherwise. REPAIR_LOG_POP answers the oldest entry's hi word and drops the entry. MEMC_TBL_WRITE on a DISABLED page stores the entry with its complement, on
another page that is not OFF sets tbl_busy alone, and a wrong complement sets pair_err alone; the lines of a page so
retired unrelieved read tagged from then on. -/
def Obligations.StacksRepairRefreshAndCool : Prop :=
  (∀ (s : State) (n : Fin 12) (c : RepairCopy), (stackOf s.pkg n).copy = some c →
    let p := s.pkg
    let x := stackOf p n
    let w := failPlace p n c.ch c.bank c.row
    let last (q : Pkg) : Prop := (c.kind ≤ 2 → entryVal q (.memc n) 0 c.target = BitVec.ofNat 32 (2 ^ 31 + w.2.2) ∧ gains 1 p q (.memc n) 0x120 ∧ hasEvent q (.memc n) 18)
        ∧ (c.kind = 3 → entryVal q (.memc n) 1 c.target = pageEntry c.ch c.bank c.row ∧ gains 1 p q (.memc n) 0x128 ∧ hasEvent q (.memc n) 19)
        ∧ (∀ t, x.heldAt = some t → gains (p.count - t) p q (.memc n) 0x150)
    (x.waiting = [] → x.log.length < 32 → 1 ≤ c.kind → c.kind ≤ 3 → (∀ b, activeOrder (bobOf p b) = []) →
      (x.held = [] → Completes (.repairCopyEnd n [] true) s (fun q =>
        (∃ e l, stackOf q n = { x with copy := none, log := x.log ++ [e], tracks := l, heldAt := none })
        ∧ (∀ m, m ≠ n → stackOf q m = stackOf p m) ∧ last q ∧ keepsBut [.regs, .blocks, .alerts, .tables, .stackUnits, .drains] p q))
      ∧ (∀ off, x.held = [⟨off, none, false, false, false, .clean⟩] → poisoned p (n.val * 2 ^ 36 + off % 2 ^ 36) = false →
        Completes (.repairCopyEnd n [] true) s (fun q =>
          puts [.line (.memc n) Status.done (memBytes p (n.val * 2 ^ 36 + off % 2 ^ 36 / 64 * 64) 64)] p q
          ∧ (∃ e l, stackOf q n = { x with copy := none, log := x.log ++ [e], tracks := l, held := [], heldAt := none }) ∧ last q
          ∧ (block q (.memc n)).tout = (block p (.memc n)).tout + 1 ∧ keepsBut [.regs, .blocks, .alerts, .tables, .stackUnits, .drains, .out] p q)))
    ∧ (c.kind ≤ 3 → inRelief p n (stackOffset c.ch c.bank c.row 0) = false → Completes (.repairCopyEnd n [] false) s (fun q =>
        entryVal q (.memc n) (if c.kind = 3 then 1 else 0) c.target = 0x40000000#32
        ∧ (∃ d, (stackOf q n).copy = some d ∧ d.ch = c.ch ∧ d.bank = c.bank ∧ d.row = c.row ∧ d.start = p.count)
        ∧ (∀ m, m ≠ n → stackOf q m = stackOf p m) ∧ keepsBut [.regs, .tables, .stackUnits] p q)))
  ∧ (∀ (s : State) (n : Fin 12) (l : List (Nat × LineErr)) (b : Bool), (stackOf s.pkg n).copy = none →
    Completes (.repairCopyEnd n l b) s (fun q => keepsBut [] s.pkg q))
  ∧ (∀ (s : State) (n : Fin 12) (found : List (Fin 32 × LineErr)),
    let p := s.pkg
    let x := stackOf p n
    let ivl := bits (getReg p (.memc n) 0x088) 23 16 * 256
    (ivl ≠ 0 → pairOk p (.memc n) 0x088 = true → enabled p (.memc n) = true → x.patrolAt + ivl ≤ p.count →
      Completes (.patrolScrub n found) s (fun q => (stackOf q n).patrolPos = (x.patrolPos + 1) % 2 ^ 25 ∧ (stackOf q n).patrolAt = p.count
        ∧ gains 32 p q (.memc n) 0x130 ∧ (x.patrolPos + 1 = 2 ^ 25 → hasEvent q (.memc n) 27 ∧ (stackOf q n).tracks = [])
        ∧ (∀ m, m ≠ n → stackOf q m = stackOf p m)
        ∧ keepsBut [.stackUnits, .regs, .blocks, .alerts, .mem, .poison, .lost, .records, .tables] p q))
    ∧ (enabled p (.memc n) = false ∨ pairOk p (.memc n) 0x088 = true ∧ (ivl = 0 ∨ p.count < x.patrolAt + ivl) → Completes (.patrolScrub n found) s (fun q => keepsBut [] p q)))
  ∧ (∀ (s : State) (n : Fin 12),
    let p := s.pkg
    let x := stackOf p n
    Completes (.refreshInterval n) s (fun q =>
      (x.nextBank = 0 → x.refreshAt + refreshTicks p n ≤ p.count → stackOf q n = { x with refreshAt := p.count, nextBank := 1 }
        ∧ (∀ m, m ≠ n → stackOf q m = stackOf p m) ∧ keepsBut [.stackUnits] p q)
      ∧ (x.nextBank ≠ 0 → x.refreshAt + x.nextBank * refreshTicks p n / 16 ≤ p.count → stackOf q n = { x with nextBank := (x.nextBank + 1) % 16 }
        ∧ (∀ m, m ≠ n → stackOf q m = stackOf p m) ∧ keepsBut [.stackUnits] p q)
      ∧ (x.nextBank = 0 ∧ p.count < x.refreshAt + refreshTicks p n ∨ x.nextBank ≠ 0 ∧ p.count < x.refreshAt + x.nextBank * refreshTicks p n / 16 →
        keepsBut [] p q)))
  ∧ (∀ (s : State) (n : Fin 12) (temps : List Nat),
    let p := s.pkg
    let x := stackOf p n
    let t := (temps.take 4).foldl max 0
    (x.sampleAt + 10000 ≤ p.count ∨ x.sampleAt = 0 →
      Completes (.stackTempSample n temps) s (fun q => (stackOf q n).temp = t ∧ (stackOf q n).sampleAt = p.count
        ∧ bits (getReg q (.memc n) 0x098) 7 0 = t % 256 ∧ (95 < t → 2 ≤ (stackOf q n).step) ∧ (85 < t → 1 ≤ (stackOf q n).step)
        ∧ (x.step = 2 → t ≤ 93 → 99 ≤ x.below → (stackOf q n).step = 1 ∧ (stackOf q n).below = 0)
        ∧ (x.step = 1 → t ≤ 83 → 99 ≤ x.below → (stackOf q n).step = 0 ∧ (stackOf q n).below = 0)
        ∧ (x.below < 99 → x.step ≤ (stackOf q n).step) ∧ ((stackOf q n).step ≠ x.step → hasEvent q (.memc n) 21)
        ∧ (∀ m, m ≠ n → stackOf q m = stackOf p m) ∧ regsBut [(.memc n, 0x098)] p q ∧ keepsBut [.stackUnits, .regs, .blocks, .alerts] p q))
    ∧ (p.count < x.sampleAt + 10000 → x.sampleAt ≠ 0 → Completes (.stackTempSample n temps) s (fun q => keepsBut [] p q)))
  ∧ (∀ (s : State) (n : Fin 12),
    let p := s.pkg
    let x := stackOf p n
    let d := dieOfStack n
    Completes (.compatDutyStep n) s (fun q =>
      (compatMode p n = true → 85 < x.temp → x.compatAt + 100000 ≤ p.count → Map.getD q.pw.compat d 16 = max 2 (Map.getD p.pw.compat d 16 - 1)
        ∧ (stackOf q n).compatAt = p.count)
      ∧ (compatMode p n = true → x.temp ≤ 83 → x.compatAt + 1000000 ≤ p.count → Map.getD q.pw.compat d 16 = min 16 (Map.getD p.pw.compat d 16 + 1)
        ∧ (stackOf q n).compatAt = p.count)
      ∧ (compatMode p n = false ∨ (83 < x.temp ∧ x.temp ≤ 85) ∨ p.count < x.compatAt + 100000 → keepsBut [] p q)
      ∧ (∀ e, e ≠ d → Map.getD q.pw.compat e 16 = Map.getD p.pw.compat e 16) ∧ q.pw = { p.pw with compat := q.pw.compat }
      ∧ keepsBut [.pw, .stackUnits] p q))
  ∧ (∀ (s : State) (ag : Agent) (n : Fin 12), letThrough false s.pkg ag (.memc n) 0x0AC →
    let p := countDebug s.pkg ag
    Map.look p.rg.latches (ag, .memc n) = none →
    Completes (.repairLogPop ag n) s (fun q => puts [.access ag Status.done (repairLogView p n).2] p q
      ∧ stackOf q n = { stackOf p n with log := (stackOf p n).log.drop 1 } ∧ (∀ m, m ≠ n → stackOf q m = stackOf p m)
      ∧ keepsBut [.out, .stackUnits, .regs] p q))
  ∧ (∀ (s : State) (n : Fin 12) (c : Word), stateOf s.pkg (.memc n) ≠ .off →
    let p := s.pkg
    let g := Page.memc n
    let v := getReg p g 0x204
    let t := bits (getReg p g 0x200) 30 29
    let i := bits (getReg p g 0x200) 10 0
    (c ≠ ~~~v → Completes (.memcTblWrite n c) s (onlyRaises g evPairErr p))
    ∧ (c = ~~~v → stateOf p g ≠ .disabled → Completes (.memcTblWrite n c) s (onlyRaises g 25 p))
    ∧ (c = ~~~v → stateOf p g = .disabled → (t = 0 ∧ i < 1024) ∨ t = 1 ∨ (t = 2 ∧ i < 64 ∧ bit v 30 = false) →
        Completes (.memcTblWrite n c) s (fun q => entryVal q g t i = v &&& (if t = 0 then 0xC0003FFF#32 else 0xCFFFFFE0#32) ∧ entryOk q g t i = true
          ∧ (∀ h u j, (h, u, j) ≠ (g, t, i) → getEntry q h u j = getEntry p h u j) ∧ regsBut [(g, 0x200)] p q
          ∧ (t = 2 → bit v 31 = true → ∀ j, j < 128 → poisoned q (pageLine n (bits v 27 23) (bits v 22 19) (bits v 18 5) j) = true)
          ∧ (t ≠ 2 ∨ bit v 31 = false → keepsBut [.tables, .regs, .blocks, .alerts] p q)
          ∧ keepsBut [.tables, .regs, .blocks, .alerts, .mem, .poison, .lost] p q)))

/-- A ring of a working engine that is LOCKED goes to HOLD with the hold event and is swept at once by SEL_RELOCK, by PILOT_WRONG_LOCK of another lane's
pilot (with wrong_lock), by the second marker in a row with another lane's number, by MARKER_MISSING after 100 µs, and by TRIM_SATURATION after 10 µs;
SEL_RELOCK of another ring sets sel_busy alone, and where its condition does not hold each of the others changes nothing. LANE_MARKER_RECEIVE of the lane's
own number gives the peer's tx_map. DIRECTED_SWEEP_END within 200 µs locks the ring where it was found, within a channel, HELD_RECAL_END at the centre, within 0.3 nm, and the offsets are saved while
Caselm runs (an offset that fits no 16 bits is left open, log entry 49); a failed one leaves
HOLD, or RETIRED at the third failure within 1 s. SWEEP_RETRY sweeps again 1 ms after a failure. TRACKING_RECAL_END after 10 ms sets the offset to the mean.
LOCK_LOOP_UPDATE clamps the trim and builds the heater code, or for a dark monitor puts the ring on HOLD. A transmit ring beside λ0 is not LOCKED while its port
sends a burst, and a DARK port's holds are not reported. A SEL_CFG that fails its check takes the engine into FAULT. DRIFT_QUEUE after 1 ms queues the ring or begins its recalibration. HEATER_FF_UPDATE, once in
10 µs, reads every feed-forward again, builds the heater codes of rings without a loop, and sweeps a LOCKED or sweeping ring whose table fails. SEL_RECAL and RECAL_INTERVAL begin a pass; SEL_RECAL during one sets
sel_busy alone. -/
def Obligations.SelvageRingsLockAndRecalibrate : Prop :=
  (∀ (s : State) (e : Fin 16) (r : Fin 64), stateOf s.pkg (.sel e) ≠ .off →
    let p := s.pkg
    (selOn p e = true → ringLocked p e r = true → Completes (.selRelock e r) s (fun q => goesToSweep p q e r
      ∧ ofEngine e [.sels, .ports, .blocks, .regs, .alerts, .out, .boot] p q))
    ∧ (selOn p e = false ∨ ringLocked p e r = false → Completes (.selRelock e r) s (onlyRaises (.sel e) evSelBusy p))
    ∧ (selOn p e = true → (selOf p e).pass = false → Completes (.selRecal e) s (fun q => beginsPass p q e
      ∧ ofEngine e [.sels, .ports, .blocks, .regs, .alerts, .boot] p q))
    ∧ (selOn p e = false ∨ (selOf p e).pass = true → Completes (.selRecal e) s (onlyRaises (.sel e) evSelBusy p)))
  ∧ (∀ (s : State) (e : Fin 16),
    let p := s.pkg
    let v := bits (selCfg p e) 31 26
    let due := selOn p e = true ∧ (selOf p e).pass = false ∧ (selOf p e).passAt + (if v = 0 then 60 else v) * 10000000000 ≤ p.count
    let bad (q : Pkg) : Prop := stateOf q (.sel e) = .fault ∧ hasEvent q (.sel e) evCmpFail
    (selOn p e = true → pairOk p (.sel e) 0x088 = false → Completes (.recalInterval e) s bad
      ∧ (∀ r v, Completes (.lockLoopUpdate e r v) s bad) ∧ ∀ h, Completes (.wakeBurstSend (portOf2 e h)) s bad)
    ∧ (due → pairOk p (.sel e) 0x088 = true → Completes (.recalInterval e) s (fun q => beginsPass p q e ∧ ofEngine e [.sels, .ports, .blocks, .regs, .alerts, .boot] p q))
    ∧ (¬due → selOn p e = false ∨ pairOk p (.sel e) 0x088 = true → Completes (.recalInterval e) s (fun q => keepsBut [] p q)))
  ∧ (∀ (s : State) (e : Fin 16) (r : Fin 64) (pilot : Fin 16),
    let p := s.pkg
    let wrong := selOn p e = true ∧ ringRx r = false ∧ ringLocked p e r = true ∧ pilot.val ≠ ringLane r
    (wrong → Completes (.pilotWrongLock e r pilot) s (fun q => goesToSweep p q e r
      ∧ ((portOfPkg p (ringPort e r)).optic ≠ .dark → hasEvent q (.sel e) evWrongLock ∧ gains 1 p q (.sel e) 0x300)
      ∧ ofEngine e [.sels, .ports, .blocks, .regs, .alerts, .out, .records, .nvPending, .boot] p q))
    ∧ (¬wrong → Completes (.pilotWrongLock e r pilot) s (fun q => keepsBut [] p q)))
  ∧ (∀ (s : State) (n : Fin 32) (lane : Fin 16) (m : DWord),
    let p := s.pkg
    let e := seOfPort n
    let r := ringNo (portHalf n) true lane
    let x := ringOf p e r
    let sound := bits m 7 0 = 0x4B ∧ bits m 11 8 + bits m 15 12 = 15
    (selOn p e = true → x.state = .locked →
      (¬sound → Completes (.laneMarkerReceive n lane m) s (fun q => ringOf q e r = { x with wrong := 0 }
        ∧ (∀ k, k ≠ r → ringOf q e k = ringOf p e k) ∧ ofEngine e [.sels, .ports, .blocks, .alerts] p q))
      ∧ (sound → bits m 11 8 = lane.val → Completes (.laneMarkerReceive n lane m) s (fun q => (portOfPkg q n).peerTx = BitVec.ofNat 16 (bits m 31 16)
        ∧ ringOf q e r = { x with wrong := 0, markAt := p.count } ∧ (∀ k, k ≠ r → ringOf q e k = ringOf p e k)
        ∧ ofEngine e [.sels, .ports, .blocks, .alerts] p q))
      ∧ (sound → bits m 11 8 ≠ lane.val → x.wrong = 0 → Completes (.laneMarkerReceive n lane m) s (fun q =>
        ringOf q e r = { x with wrong := 1, markAt := p.count } ∧ (∀ k, k ≠ r → ringOf q e k = ringOf p e k)
        ∧ ofEngine e [.sels, .ports, .blocks, .alerts] p q))
      ∧ (sound → bits m 11 8 ≠ lane.val → x.wrong ≠ 0 → Completes (.laneMarkerReceive n lane m) s (fun q => goesToSweep p q e r
        ∧ ((portOfPkg p n).optic ≠ .dark → hasEvent q (.sel e) evWrongLock)
        ∧ ofEngine e [.sels, .ports, .blocks, .regs, .alerts, .out, .records, .nvPending, .boot] p q)))
    ∧ (selOn p e = false ∨ x.state ≠ .locked → Completes (.laneMarkerReceive n lane m) s (fun q => keepsBut [] p q))
    ∧ (selOn p e = true → x.state = .locked → x.markAt + 100000 ≤ p.count → Completes (.markerMissing n lane) s (fun q => goesToSweep p q e r
        ∧ ofEngine e [.sels, .ports, .blocks, .regs, .alerts, .out, .boot] p q))
    ∧ (selOn p e = false ∨ x.state ≠ .locked ∨ p.count < x.markAt + 100000 → Completes (.markerMissing n lane) s (fun q => keepsBut [] p q)))
  ∧ (∀ (s : State) (e : Fin 16) (r : Fin 64),
    let p := s.pkg
    let x := ringOf p e r
    let on := ringLocked p e r = true ∧ selOn p e = true
    let cfg := selOn p e = false ∨ pairOk p (.sel e) 0x088 = true
    let saves := [Part.sels, .ports, .blocks, .regs, .alerts, .out, .tables, .boot]
    let inRange (v : Int) : Prop := -32768 ≤ v ∧ v ≤ 32767
    (∀ t, on → x.satAt = some t → t + 10000 ≤ p.count → Completes (.trimSaturation e r) s (fun q => goesToSweep p q e r
      ∧ ofEngine e [.sels, .ports, .blocks, .regs, .alerts, .out, .boot] p q))
    ∧ (¬on ∨ x.satAt = none ∨ (∃ t, x.satAt = some t ∧ p.count < t + 10000) → Completes (.trimSaturation e r) s (fun q => keepsBut [] p q))
    ∧ (∀ t, on → x.driftAt = some t → t + 1000000 ≤ p.count → Completes (.driftQueue e r) s (fun q =>
        ((ringOf q e r).queued = true ∨ (ringOf q e r).cal.isSome = true) ∧ ringsBut e r p q
        ∧ ofEngine e [.sels, .ports, .blocks, .regs, .alerts, .boot] p q))
    ∧ (¬on ∨ x.driftAt = none ∨ (∃ t, x.driftAt = some t ∧ p.count < t + 1000000) → Completes (.driftQueue e r) s (fun q => keepsBut [] p q))
    ∧ (on → cfg → x.loopAt + integTicks p e ≤ p.count → Completes (.lockLoopUpdate e r none) s (fun q => goesToSweep p q e r
        ∧ ofEngine e [.sels, .ports, .blocks, .regs, .alerts, .out, .boot] p q))
    ∧ (∀ trim : Int, on → cfg → x.loopAt + integTicks p e ≤ p.count → Completes (.lockLoopUpdate e r trim) s (fun q =>
        (ringOf q e r).trim = max (-(trimMax p e : Int)) (min (trimMax p e) trim) ∧ (ringOf q e r).loopAt = p.count
        ∧ (ringOf q e r).heat = heaterCode q e r ∧ (ringOf q e r).state = .locked ∧ (ringOf q e r).ff = x.ff
        ∧ (∀ k, k ≠ r → ringOf q e k = ringOf p e k) ∧ ofEngine e [.sels, .ports, .blocks, .alerts] p q))
    ∧ (∀ trim, cfg → ¬on ∨ p.count < x.loopAt + integTicks p e → Completes (.lockLoopUpdate e r trim) s (fun q => keepsBut [] p q))
    ∧ (∀ d : Int, x.state = .sweep → x.queued = false → p.count ≤ x.sweepAt + 200000 → d.natAbs ≤ channelSteps → inRange (ringOffset p e r.val + d) →
        Completes (.directedSweepEnd e r (some d)) s (fun q => locksAt p q e r (ringOffset p e r.val + d) ∧ ofEngine e saves p q))
    ∧ (∀ found : Option Int, x.state = .sweep → (∀ d, found = some d → channelSteps < d.natAbs) ∨ x.sweepAt + 200000 < p.count → Completes (.directedSweepEnd e r found) s (fun q =>
        failsSweep p q e r ∧ ofEngine e [.sels, .ports, .blocks, .regs, .alerts, .out, .records, .nvPending, .boot] p q))
    ∧ (∀ found : Option Int, x.state ≠ .sweep → Completes (.directedSweepEnd e r found) s (fun q => keepsBut [] p q))
    ∧ (∀ t, x.failedAt = some t → x.state = .hold → t + 1000000 ≤ p.count → selOn p e = true → Completes (.sweepRetry e r) s (fun q =>
        (ringOf q e r).state = .sweep ∧ (ringOf q e r).sweepAt = p.count ∧ (∀ k, k ≠ r → ringOf q e k = ringOf p e k)
        ∧ ofEngine e [.sels, .ports, .blocks, .alerts, .out] p q))
    ∧ (x.failedAt = none ∨ x.state ≠ .hold ∨ selOn p e = false → Completes (.sweepRetry e r) s (fun q => keepsBut [] p q))
    ∧ (∀ t (c : Int), x.cal = some (false, t) → x.queued = false → p.count ≤ t + 200000 → c.natAbs ≤ recalSteps → inRange (ringOffset p e r.val + (x.trim + c)) →
        Completes (.heldRecalEnd e r (some c)) s (fun q =>
        locksAt p q e r (ringOffset p e r.val + (x.trim + c)) ∧ gains 1 p q (.sel e) 0x318 ∧ ofEngine e saves p q))
    ∧ (∀ t found, x.cal = some (false, t) → (∀ c, found = some c → recalSteps < c.natAbs) ∨ t + 200000 < p.count → Completes (.heldRecalEnd e r found) s (fun q =>
        failsSweep p q e r ∧ ofEngine e [.sels, .ports, .blocks, .regs, .alerts, .out, .records, .nvPending, .boot] p q))
    ∧ (∀ c, x.cal = none → Completes (.heldRecalEnd e r c) s (fun q => keepsBut [] p q))
    ∧ (∀ t (m : Int), x.cal = some (true, t) → x.queued = false → t + 10000000 ≤ p.count → inRange m → Completes (.trackingRecalEnd e r m) s (fun q =>
        entryVal q (.sel e) 2 r.val = (BitVec.ofInt 16 m).setWidth 32 ∧ (ringOf q e r).cal = none ∧ puts [.item (.sel e) r.val Status.done] p q
        ∧ gains 1 p q (.sel e) 0x318 ∧ ringsBut e r p q ∧ ofEngine e saves p q))
    ∧ (∀ t (m : Int), x.cal = some (true, t) → p.count < t + 10000000 → Completes (.trackingRecalEnd e r m) s (fun q => keepsBut [] p q)))
  ∧ (∀ (s : State) (e : Fin 16) (t0 t1 : BitVec 12),
    let p := s.pkg
    (stateOf p (.sel e) ≠ .off → (selOf p e).ffAt + 10000 ≤ p.count →
      Completes (.heaterFfUpdate e t0 t1 []) s (fun q => getReg q (.sel e) 0x098 = BitVec.ofNat 32 (t1.toNat * 65536 + t0.toNat)
        ∧ (selOf q e).ffAt = p.count
        ∧ (∀ r, ringOf q e r = { ringOf p e r with ff := feedForward p e r.val (if r.val < 32 then t0.toNat else t1.toNat), heat := (ringOf q e r).heat }
            ∧ (ringOf q e r).heat = if (ringOf p e r).state = .locked ∨ (ringOf p e r).state = .off then (ringOf p e r).heat else heaterCode q e r)
        ∧ regsBut [(.sel e, 0x098)] p q ∧ ofEngine e [.sels, .ports, .blocks, .regs, .alerts] p q)
      ∧ (∀ r, selOn p e = true → ringLocked p e r = true ∨ (ringOf p e r).state = .sweep → Completes (.heaterFfUpdate e t0 t1 [r]) s (fun q =>
        hasEvent q (.sel e) evTblErr ∧ ((portOfPkg p (ringPort e r)).optic ≠ .dark → hasEvent q (.sel e) evHold) ∧ (ringOf q e r).state = .sweep
        ∧ ofEngine e [.sels, .ports, .blocks, .regs, .alerts, .out, .boot] p q)))
    ∧ (∀ bad, stateOf p (.sel e) = .off ∨ p.count < (selOf p e).ffAt + 10000 → Completes (.heaterFfUpdate e t0 t1 bad) s (fun q => keepsBut [] p q)))

/-- LASER_STATUS_ASSERTED at an engine that is not OFF sets the status line and the tap's power. LASER_STATUS_WITHDRAWN and LASER_TAP_LOW of a working
engine with no laser fault withdraw the enable, put both ports DARK, park every transmit ring that is not RETIRED, leave the receive rings and their light, and set laser_fault; otherwise the line
alone changes. LASER_LINE_DARK retires that lane's transmit ring on both ports. SEL_WAKE on a DARK port of a working engine sends a burst and otherwise sets
sel_busy alone; WAKE_BURST_SEND sends one when probing is on and due, and otherwise changes nothing. WAKE_BURST_DETECT moves a DARK port to WAKING with
wake_rx; STEADY_LIGHT_DETECT moves a DARK port to WAKING with light and sweeps its parked receive rings. WAKING_TIMEOUT after 10 ms without light and
RX_LIGHT_LOSS of a lit or waking port put it DARK with its shutter closed and its link DOWN, only the first an open fibre; a DARK port that had light parks its
receive rings. SEL_TBL_WRITE stores an entry with its complement on a DISABLED page; on another page that is not OFF it sets tbl_locked, with a wrong
complement pair_err, and with a reserved index or diagonal rsvd_write, and nothing is stored; with inc every access steps the index. -/
def Obligations.SelvageLaserLightAndTables : Prop :=
  (∀ (s : State) (e : Fin 16) (power : Half),
    let p := s.pkg
    (stateOf p (.sel e) ≠ .off → Completes (.laserStatusAsserted e power) s (fun q =>
      selOf q e = { selOf p e with laserOk := true, tapOk := true, tapPower := power.toNat } ∧ (∀ d, d ≠ e → selOf q d = selOf p d) ∧ keepsBut [.sels] p q))
    ∧ (stateOf p (.sel e) = .off → Completes (.laserStatusAsserted e power) s (fun q => keepsBut [] p q))
    ∧ (let fault (q : Pkg) : Prop := (selOf q e).laserEn = false ∧ (selOf q e).laserFault = true ∧ hasEvent q (.sel e) evLaserFault ∧ (∃ x, x ∈ q.nvPending ∧ x.code = evLaserFault ∧ x.type = 0x1B)
          ∧ (∀ h, (portOfPkg q (portOf2 e h)).optic = .dark) ∧ (∀ r, ringRx r = false → (ringOf q e r).state = .parked ∨ (ringOf q e r).state = .retired)
          ∧ (∀ r, ringRx r = true → ringOf q e r = ringOf p e r) ∧ (∀ h, (selPort q (portOf2 e h)).rxLight = (selPort p (portOf2 e h)).rxLight)
       (selOn p e = true → (selOf p e).laserFault = false →
          Completes (.laserStatusWithdrawn e) s (fun q => fault q ∧ (selOf q e).laserOk = false)
          ∧ Completes (.laserTapLow e power) s (fun q => fault q ∧ (selOf q e).tapOk = false ∧ (selOf q e).tapPower = power.toNat))
       ∧ (selOn p e = true → (selOf p e).laserFault = false → (∀ h, (portOfPkg p (portOf2 e h)).lstate = .down) →
          Completes (.laserStatusWithdrawn e) s (ofEngine e [.sels, .ports, .selPorts, .blocks, .regs, .alerts, .out, .records, .nvPending] p)
          ∧ Completes (.laserTapLow e power) s (ofEngine e [.sels, .ports, .selPorts, .blocks, .regs, .alerts, .out, .records, .nvPending] p)))
    ∧ (selOn p e = false ∨ (selOf p e).laserFault = true →
        Completes (.laserStatusWithdrawn e) s (fun q => selOf q e = { selOf p e with laserOk := false } ∧ (∀ d, d ≠ e → selOf q d = selOf p d)
          ∧ keepsBut [.sels] p q)
        ∧ Completes (.laserTapLow e power) s (fun q => selOf q e = { selOf p e with tapOk := false, tapPower := power.toNat }
          ∧ (∀ d, d ≠ e → selOf q d = selOf p d) ∧ keepsBut [.sels] p q)))
  ∧ (∀ (s : State) (e lane : Fin 16),
    let p := s.pkg
    (selOn p e = true → Completes (.laserLineDark e lane) s (fun q => (∀ h, (ringOf q e (ringNo h false lane)).state = .retired)
      ∧ (∀ r, r ≠ ringNo 0 false lane → r ≠ ringNo 1 false lane → ringOf q e r = ringOf p e r)
      ∧ ofEngine e [.sels, .ports, .blocks, .regs, .alerts, .out, .records, .nvPending] p q))
    ∧ (selOn p e = false → Completes (.laserLineDark e lane) s (fun q => keepsBut [] p q)))
  ∧ (∀ (s : State) (n : Fin 32),
    let p := s.pkg
    let e := seOfPort n
    let o := (portOfPkg p n).optic
    let v := bits (selCfg p e) 15 12
    let sends (q : Pkg) : Prop := puts [.burst n] p q ∧ selPort q n = { selPort p n with burstAt := some p.count } ∧ gains 1 p q (.sel e) 0x328
      ∧ (∀ m, m ≠ n → selPort q m = selPort p m) ∧ keepsBut [.selPorts, .regs, .out] p q
    let probes := o = .dark ∧ selOn p e = true ∧ bit (selCfg p e) 0 = true
      ∧ ∀ t, (selPort p n).burstAt = some t → t + (if v = 0 then 1 else v) * 10000000 ≤ p.count
    (o = .dark → selOn p e = true → Completes (.selWake n) s sends)
    ∧ (o ≠ .dark ∨ selOn p e = false → Completes (.selWake n) s (onlyRaises (.sel e) evSelBusy p))
    ∧ (probes → pairOk p (.sel e) 0x088 = true → Completes (.wakeBurstSend n) s sends)
    ∧ (¬probes → selOn p e = false ∨ pairOk p (.sel e) 0x088 = true → Completes (.wakeBurstSend n) s (fun q => keepsBut [] p q))
    ∧ (o = .dark → Completes (.wakeBurstDetect n) s (fun q => portOfPkg q n = { portOfPkg p n with optic := .waking }
        ∧ selPort q n = { selPort p n with shutter := 2, wakeSeen := true, wakingAt := p.count } ∧ hasEvent q (.sel e) evWakeRx
        ∧ gains 1 p q (.sel e) 0x330 ∧ portsBut n p q ∧ keepsBut [.ports, .selPorts, .regs, .blocks, .alerts] p q))
    ∧ (o ≠ .dark → Completes (.wakeBurstDetect n) s (fun q => keepsBut [] p q))
    ∧ (o = .dark → Completes (.steadyLightDetect n) s (fun q => ((portOfPkg q n).optic = .waking ∨ (portOfPkg q n).optic = .lit)
        ∧ (selPort q n).rxLight = true ∧ (selPort q n).shutter = 2
        ∧ (∀ l, (ringOf p e (ringNo (portHalf n) true l)).state = .parked → (ringOf q e (ringNo (portHalf n) true l)).state = .sweep)
        ∧ ofEngine e [.sels, .ports, .selPorts, .blocks, .alerts, .out] p q))
    ∧ (o = .lit ∨ o = .off ∨ (o = .waking ∧ (selPort p n).rxLight = true) → Completes (.steadyLightDetect n) s (fun q => keepsBut [] p q))
    ∧ (let darkens (q : Pkg) : Prop := (portOfPkg q n).optic = .dark ∧ (portOfPkg q n).lstate = .down ∧ (selPort q n).shutter = 0
          ∧ (selPort q n).rxLight = false
          ∧ (∀ l, (ringOf q e (ringNo (portHalf n) true l)).state = .parked ∨ (ringOf q e (ringNo (portHalf n) true l)).state = .retired)
       (o = .waking → (selPort p n).rxLight = false → (selPort p n).wakingAt + 10000000 ≤ p.count →
          Completes (.wakingTimeout n) s (fun q => darkens q ∧ gains 1 p q (.sel e) 0x340))
       ∧ (o ≠ .waking ∨ (selPort p n).rxLight = true ∨ p.count < (selPort p n).wakingAt + 10000000 →
          Completes (.wakingTimeout n) s (fun q => keepsBut [] p q))
       ∧ (o = .lit → Completes (.rxLightLoss n) s (fun q => darkens q ∧ gains 1 p q (.sel e) 0x320 ∧ gains 1 p q (.sel e) 0x338
          ∧ hasEvent q (.sel e) evOpenFibre ∧ hasEvent q (.sel e) evDark))
       ∧ (o = .waking → Completes (.rxLightLoss n) s (fun q => darkens q ∧ gains 1 p q (.sel e) 0x340 ∧ getReg64 q (.sel e) 0x320 = getReg64 p (.sel e) 0x320))
       ∧ (o = .waking ∨ o = .lit → (portOfPkg p n).lstate = .down →
          Completes (.rxLightLoss n) s (ofEngine e [.sels, .ports, .selPorts, .blocks, .regs, .alerts, .out] p)))
    ∧ (o = .dark ∨ o = .off → Completes (.rxLightLoss n) s (fun q => (selPort q n).rxLight = false
        ∧ ∀ l, let r := ringNo (portHalf n) true l
          (ringOf p e r).state = .locked → (ringOf q e r).state = .parked))
    ∧ (o = .dark ∨ o = .off → (∀ l, let x := ringOf p e (ringNo (portHalf n) true l)
          x.busy = false ∧ (x.state = .parked ∨ x.state = .retired ∨ x.state = .off)) → Completes (.rxLightLoss n) s (fun q => selPort q n = { selPort p n with rxLight := false }
        ∧ (∀ m, m ≠ n → selPort q m = selPort p m) ∧ keepsBut [.selPorts] p q)))
  ∧ (∀ (s : State) (e : Fin 16) (v : Word), stateOf s.pkg (.sel e) ≠ .off →
    let p := s.pkg
    let g := Page.sel e
    let t := bits (getReg p g 0x200) 30 29
    let i := bits (getReg p g 0x200) 12 0
    let x := bits v 15 0
    let a := getReg p g 0x200
    let steps (q : Pkg) : Prop := getReg q g 0x200 = (if bit a 31 = true then withBits a 12 0 (i + 1) else a) ∧ regsBut [(g, 0x200)] p q
    let turned (n : Nat) (q : Pkg) : Prop := steps q ∧ hasEvent q g n ∧ blocksBut [g] p q ∧ keepsBut [.regs, .blocks, .alerts] p q
    (x + bits v 31 16 ≠ 0xFFFF → Completes (.selTblWrite e v) s (turned evPairErr))
    ∧ (x + bits v 31 16 = 0xFFFF → stateOf p g ≠ .disabled → Completes (.selTblWrite e v) s (turned evTblLocked))
    ∧ (x + bits v 31 16 = 0xFFFF → stateOf p g = .disabled → (t = 3 ∨ (t = 0 ∧ 96 ≤ i % 128) ∨ (t = 1 ∧ (4096 ≤ i ∨ (i % 65 = 0 ∧ x ≠ 0x4000))) ∨ (t = 2 ∧ 64 ≤ i)) →
        Completes (.selTblWrite e v) s (turned evRsvdWrite))
    ∧ (x + bits v 31 16 = 0xFFFF → stateOf p g = .disabled →
        (t = 0 ∧ i % 128 < 96) ∨ (t = 1 ∧ i < 4096 ∧ (i % 65 = 0 → x = 0x4000)) ∨ (t = 2 ∧ i < 64) →
        Completes (.selTblWrite e v) s (fun q => entryVal q g t i = BitVec.ofNat 32 x ∧ entryOk q g t i = true
          ∧ (∀ h u j, (h, u, j) ≠ (g, t, i) → getEntry q h u j = getEntry p h u j) ∧ steps q ∧ keepsBut [.tables, .regs] p q)))

/-- ALIGN_COMPLETE of a port in ALIGN with 15 lanes LOCKED each way enters NEGOTIATE with its transmit map; ALIGN_TIMEOUT after 50 µs and
RETRAIN_LIMIT_EXPIRY past its limit take the link DOWN with nothing held, queued or buffered; NEGOTIATE_TIMEOUT after 200 µs does so and, on a port still
LIT with a working LNK block, starts ALIGN again. LNK_RETRAIN of a port that is UP and ACK_STALL past the limit with frames outstanding enter RETRAIN with
the retry buffer kept, ACK_STALL with its event; LNK_RETRAIN outside UP sets cmd_busy alone. TRAINING_FRAME_SEND in NEGOTIATE and RETRAIN sends a training
frame of the step that follows; once step 0x3 is sent and received the link is UP. TRAINING_FRAME_RECEIVE in those states: a failed complement is counted
and discarded, no common version sets no_version once, otherwise the peer, its version and its step are taken, and UP follows once step 0x3 is both sent
and received, with the books opened on the units that each end advertises free. A LNK_CFG pair that fails its complement check ends in FAULT instead. AUDIT_FRAME_RECEIVE on a Sitre 2 link that is UP: a matching audit changes nothing, a failing one sets credit_fault and retrains. Where a
condition does not hold nothing changes. -/
def Obligations.LinkTrainingAndLimits : Prop :=
  (∀ (s : State) (n : Fin 32),
    let p := s.pkg
    let x := portOfPkg p n
    let locks := 15 ≤ popcount 16 x.rxRing.toNat ∧ 15 ≤ popcount 16 x.txRing.toNat
    (x.lstate = .align → p.count ≤ x.stateAt + 50000 → locks → Completes (.alignComplete n) s (fun q =>
      portOfPkg q n = { x with lstate := .negotiate, stateAt := p.count, sentStep := 0, gotStep := 0, txMap := x.txRing, trainAt := p.count } ∧ portsBut n p q
      ∧ keepsBut [.ports] p q))
    ∧ (x.lstate = .retrain → x.aligning = true → locks → Completes (.alignComplete n) s (fun q =>
      portOfPkg q n = { x with aligning := false, sentStep := 0, gotStep := 0, txMap := x.txRing, trainAt := p.count } ∧ portsBut n p q ∧ keepsBut [.ports] p q))
    ∧ (¬(x.lstate = .align ∧ p.count ≤ x.stateAt + 50000) ∧ ¬(x.lstate = .retrain ∧ x.aligning = true) ∨ ¬locks →
      Completes (.alignComplete n) s (fun q => keepsBut [] p q))
    ∧ (x.lstate = .align → x.stateAt + 50000 ≤ p.count → Completes (.alignTimeout n) s (fun q => linkIsDown q n))
    ∧ (x.lstate ≠ .align ∨ p.count < x.stateAt + 50000 → Completes (.alignTimeout n) s (fun q => keepsBut [] p q))
    ∧ (x.lstate = .negotiate → x.stateAt + 200000 ≤ p.count → x.noVersion = false → Completes (.negotiateTimeout n) s (fun q =>
        hasEvent q (.lnk n) 17 ∧ (portOfPkg q n).retry = [] ∧ (portOfPkg q n).queue = []
        ∧ (x.optic = .lit → carries p (.lnk n) = true → (portOfPkg q n).lstate = .align)
        ∧ (x.optic ≠ .lit ∨ carries p (.lnk n) = false → (portOfPkg q n).lstate = .down)))
    ∧ (x.lstate ≠ .negotiate ∨ p.count < x.stateAt + 200000 ∨ x.noVersion = true → Completes (.negotiateTimeout n) s (fun q => keepsBut [] p q))
    ∧ (∀ t, x.lstate = .retrain → x.retrainAt = some t → pairOk p (.lnk n) 0x088 = true → t + retrainLimit p n ≤ p.count → Completes (.retrainLimitExpiry n) s (fun q => linkIsDown q n))
    ∧ (x.retrainAt = none ∨ pairOk p (.lnk n) 0x088 = true ∧ (x.lstate ≠ .retrain ∨ ∃ t, x.retrainAt = some t ∧ p.count < t + retrainLimit p n) →
        Completes (.retrainLimitExpiry n) s (fun q => keepsBut [] p q))
    ∧ (x.retry = [] → x.queue = [] → pairOk p (.lnk n) 0x088 = true →
        Completes (.alignTimeout n) s (fun q => portsBut n p q ∧ keepsBut [.ports, .blocks, .regs, .alerts, .bellU] p q)
        ∧ Completes (.negotiateTimeout n) s (fun q => portsBut n p q ∧ keepsBut [.ports, .blocks, .regs, .alerts, .bellU] p q)
        ∧ Completes (.retrainLimitExpiry n) s (fun q => portsBut n p q ∧ keepsBut [.ports, .blocks, .regs, .alerts, .bellU] p q))
    ∧ (stateOf p (.lnk n) ≠ .off → x.lstate = .up → Completes (.lnkRetrain n) s (fun q => linkRetrains p q n ∧ (portOfPkg q n).retry = x.retry
        ∧ portsBut n p q ∧ keepsBut [.ports, .blocks, .regs, .alerts, .bellU] p q))
    ∧ (stateOf p (.lnk n) ≠ .off → x.lstate ≠ .up → Completes (.lnkRetrain n) s (onlyRaises (.lnk n) 29 p))
    ∧ (x.lstate = .up → x.retry ≠ [] → pairOk p (.lnk n) 0x088 = true → x.ackAt + stallLimit p n ≤ p.count → Completes (.ackStall n) s (fun q => linkRetrains p q n
        ∧ hasEvent q (.lnk n) 23 ∧ (portOfPkg q n).retry = x.retry ∧ portsBut n p q ∧ keepsBut [.ports, .blocks, .regs, .alerts, .bellU] p q))
    ∧ (pairOk p (.lnk n) 0x088 = true → x.lstate ≠ .up ∨ x.retry = [] ∨ p.count < x.ackAt + stallLimit p n → Completes (.ackStall n) s (fun q => keepsBut [] p q)))
  ∧ (∀ (s : State) (n : Fin 32),
    let p := s.pkg
    let x := portOfPkg p n
    let trains := x.training = true ∧ x.trainAt ≤ p.count
    let sent (q : Pkg) : Prop := ∃ f : Frame, f.kind = 2 ∧ f.payload = trainingPayload (ownVersions p n) (if x.gotStep = 0 then 0 else x.version) x.stepNow
        n.val (chipAssigned p) (ownChip p) x.rxMap (getReg p .fuse 0x080) x.freeUnits x.rxSeq ∧ puts [.frame n (frameBytes 2 0 f)] p q
    let sound := pairOk p (.lnk n) 0x088 = true ∧ pairOk p (.drt 0) 0x090 = true
    (trains → sound → x.gotStep ≠ 3 → Completes (.trainingFrameSend n) s (fun q => sent q ∧ portOfPkg q n = { x with sentStep := x.stepNow, trainAt := p.count + 1000 }
      ∧ portsBut n p q ∧ keepsBut [.ports, .out] p q))
    ∧ (trains → sound → x.gotStep = 3 → x.peerChanged = false → Completes (.trainingFrameSend n) s (fun q => sent q ∧ linkIsUp q n x.version
      ∧ (portOfPkg q n).lastPeer = x.peer ∧ (x.lstate = .negotiate → (portOfPkg q n).txSeq = 0 ∧ (portOfPkg q n).rxSeq = 0)
      ∧ portsBut n p q ∧ keepsBut [.ports, .out, .regs, .blocks, .alerts] p q))
    ∧ (trains → sound → x.gotStep = 3 → x.peerChanged = true → Completes (.trainingFrameSend n) s (fun q => linkIsUp q n x.version
      ∧ (portOfPkg q n).retry = [] ∧ hasEvent q (.lnk n) 26 ∧ hasEvent q (.drt (dieOfPort n)) 24))
    ∧ (trains → pairOk p (.lnk n) 0x088 = false → pairOk p (.drt 0) 0x090 = true → stateOf p (.lnk n) ≠ .off → Completes (.trainingFrameSend n) s (fun q => isIn q (.lnk n) .fault 0x03 ∧ hasEvent q (.lnk n) evCmpFail))
    ∧ (¬trains → Completes (.trainingFrameSend n) s (fun q => keepsBut [] p q)))
  ∧ (∀ (s : State) (n : Fin 32) (b : List Byte),
    let p := s.pkg
    let x := portOfPkg p n
    let trains := x.training = true
    let sound := pairOk p (.lnk n) 0x088 = true
    let v := commonVersion (ownVersions p n) (leField b 0 1)
    let step := leField b 2 1 % 4
    (trains → complOk 32 b = false → Completes (.trainingFrameReceive n b) s (fun q => gains 1 p q (.lnk n) 0x128 ∧ hasEvent q (.lnk n) evCmpFail
      ∧ keepsBut [.regs, .blocks, .alerts] p q))
    ∧ (trains → complOk 32 b = true → sound → v = 0 → x.noVersion = false → Completes (.trainingFrameReceive n b) s (fun q =>
        portOfPkg q n = { x with noVersion := true } ∧ hasEvent q (.lnk n) 25 ∧ portsBut n p q ∧ keepsBut [.ports, .blocks, .alerts] p q))
    ∧ (trains → complOk 32 b = true → sound → v = 0 → x.noVersion = true → Completes (.trainingFrameReceive n b) s (fun q => keepsBut [] p q))
    ∧ (trains → complOk 32 b = true → sound → v ≠ 0 →
        let took (q : Pkg) : Prop := (portOfPkg q n).version = v
          ∧ (portOfPkg q n).peer = some ⟨BitVec.ofNat 16 (leField b 4 2), leField b 3 1 % 32, (leField b 3 1).testBit 5, BitVec.ofNat 32 (leField b 8 4)⟩
          ∧ (portOfPkg q n).peerRx = BitVec.ofNat 16 (leField b 6 2) ∧ (portOfPkg q n).gotStep = max x.gotStep step
        (max x.gotStep step ≠ 3 ∨ x.sentStep ≠ 3 → Completes (.trainingFrameReceive n b) s (fun q => took q ∧ (portOfPkg q n).lstate = x.lstate
          ∧ portsBut n p q ∧ keepsBut [.ports] p q))
        ∧ (max x.gotStep step = 3 → x.sentStep = 3 → Completes (.trainingFrameReceive n b) s (fun q => took q ∧ linkIsUp q n v
          ∧ (x.lstate = .negotiate → ∀ c, c < 4 →
              nth (portOfPkg q n).credits.held c 0 = leField b (12 + 2 * c) 2 ∧ nth (portOfPkg q n).credits.returned c 0 = 0
              ∧ nth (portOfPkg q n).credits.got c 0 = x.occupancy c ∧ nth (portOfPkg q n).credits.freed c 0 = 0))))
    ∧ (¬trains → Completes (.trainingFrameReceive n b) s (fun q => keepsBut [] p q))
    ∧ (x.lstate ≠ .up ∨ x.version ≠ 2 → Completes (.auditFrameReceive n b) s (fun q => keepsBut [] p q))
    ∧ (x.lstate = .up → x.version = 2 → complOk 32 b = false → Completes (.auditFrameReceive n b) s (fun q => gains 1 p q (.lnk n) 0x128
        ∧ hasEvent q (.lnk n) evCmpFail ∧ keepsBut [.regs, .blocks, .alerts] p q))
    ∧ (x.lstate = .up → x.version = 2 → complOk 32 b = true → auditOk x b = true → Completes (.auditFrameReceive n b) s (fun q => keepsBut [] p q))
    ∧ (x.lstate = .up → x.version = 2 → complOk 32 b = true → auditOk x b = false → Completes (.auditFrameReceive n b) s (fun q =>
        linkRetrains p q n ∧ gains 1 p q (.lnk n) 0x158 ∧ hasEvent q (.lnk n) 22 ∧ (portOfPkg q n).retry = x.retry ∧ portsBut n p q
        ∧ keepsBut [.ports, .blocks, .regs, .alerts, .bellU] p q)))

/-- LINK_WORD_SEND on a link that is not DOWN sends the link word, once in every 64 ns. LINK_WORD_RECEIVE of a sound word on a link that is UP releases the frames its ack covers
and takes rx_map, and with a retrain request enters RETRAIN; a word that fails its complement changes nothing. FEC_LIMIT_EXCEEDED counts, and past the limit
takes the lane out, sets its event and relocks its ring. RETRY_RESTART at a marker, every 544 ns, sends the markers and every held frame again in order. TX_MAP_UPDATE sends
the markers of a marker instant and takes one lane out or back at each; the second lane out revokes the reservations. FRAME_TRANSMIT starts a frame when the
line is free: in a reserved slot sends the owning flow's first frame when it has room and units, a C1
frame without units waits with CREDIT_WAIT counted; otherwise it sends the first unreserved frame that fits. FRAME_RECEIVE on a link that is UP: a frame that
fails check 1 is counted and answered with nak when under retry; one out of sequence begins to discard or is dropped; one in sequence that passes is counted
and reaches the die router's input, or the package itself when link-local, or waits in the receive buffer while the router accepts none, and one that fails check 4 sets malformed; a sound training or audit frame is
taken as such. Where a condition does not hold nothing changes. -/
def Obligations.LinkWordsRetryAndFrames : Prop :=
  (∀ (s : State) (n : Fin 32),
    let p := s.pkg
    let x := portOfPkg p n
    (x.lstate ≠ .down → x.wordAt ≤ p.count → Completes (.linkWordSend n) s (fun q =>
      puts [.linkWord n (linkWordBytes x.rxSeq x.discarding x.retrainReq x.rxMap x.credits.freed)] p q
      ∧ portOfPkg q n = { x with wordAt := p.count + 64 } ∧ portsBut n p q
      ∧ (x.discarding = true → gains 1 p q (.lnk n) 0x130) ∧ (x.discarding = false → keepsBut [.out, .ports] p q) ∧ keepsBut [.out, .ports, .regs] p q))
    ∧ (x.lstate = .down ∨ p.count < x.wordAt → Completes (.linkWordSend n) s (fun q => keepsBut [] p q))
    ∧ (x.lstate = .up → x.restart = true → x.markAt ≤ p.count → firstDiff x.txMap (x.txRing &&& x.peerRx) = none → Completes (.retryRestart n) s (fun q =>
        puts (markersOf p n true ++ x.retry.map (fun h => .frame n (frameBytes x.version h.lseq h.frame))) p q
        ∧ portOfPkg q n = { x with restart := false, markAt := p.count + 544, markCount := (x.markCount + 1) % 256
                                   busyUntil := max p.count x.busyUntil + x.lineTicks ((x.retry.map (fun h => wireSize h.frame)).sum) }
        ∧ gains 1 p q (.lnk n) 0x138 ∧ gains x.retry.length p q (.lnk n) 0x140 ∧ portsBut n p q ∧ keepsBut [.ports, .regs, .out] p q))
    ∧ (x.lstate ≠ .up ∨ x.restart = false ∨ p.count < x.markAt → Completes (.retryRestart n) s (fun q => keepsBut [] p q)))
  ∧ (∀ (s : State) (n : Fin 32) (b : List Byte),
    let p := s.pkg
    let x := portOfPkg p n
    let kept := x.retry.filter (fun h => !acked (leField b 0 2) h)
    (x.lstate = .down ∨ complOk 16 b = false → Completes (.linkWordReceive n b) s (fun q => keepsBut [] p q))
    ∧ (x.lstate = .up → complOk 16 b = true → (leField b 2 1).testBit 1 = false → Completes (.linkWordReceive n b) s (fun q =>
        (portOfPkg q n).retry = kept ∧ (portOfPkg q n).peerRx = BitVec.ofNat 16 (leField b 4 2) ∧ (portOfPkg q n).lstate = .up
        ∧ (portOfPkg q n).restart = (x.restart || ((leField b 2 1).testBit 0 && !kept.isEmpty))
        ∧ (block q (.lnk n)).tout = (block p (.lnk n)).tout + BitVec.ofNat 64 (x.retry.length - kept.length) ∧ portsBut n p q
        ∧ keepsBut [.ports, .blocks] p q))
    ∧ (x.lstate = .up → complOk 16 b = true → (leField b 2 1).testBit 1 = true → Completes (.linkWordReceive n b) s (fun q =>
        linkRetrains p q n ∧ (portOfPkg q n).retry = kept ∧ portsBut n p q ∧ keepsBut [.ports, .blocks, .regs, .alerts, .bellU] p q)))
  ∧ (∀ (s : State) (n : Fin 32) (lane : Fin 16) (corrected uncorrectable : Nat),
    let p := s.pkg
    let e := seOfPort n
    let r := ringNo (portHalf n) true lane
    let v := bits (getReg p (.lnk n) 0x088) 15 8
    let limit := (if v = 0 then 38 else v) * 1024
    let counts (q : Pkg) : Prop := getReg q (.lnk n) (0x200 + 8 * lane.val)
        = BitVec.ofNat 32 (min (2 ^ 32 - 1) ((getReg p (.lnk n) (0x200 + 8 * lane.val)).toNat + corrected))
      ∧ getReg q (.lnk n) (0x204 + 8 * lane.val) = BitVec.ofNat 32 (min (2 ^ 32 - 1) ((getReg p (.lnk n) (0x204 + 8 * lane.val)).toNat + uncorrectable))
    ((ringOf p e r).state = .locked → (portOfPkg p n).lstate ≠ .down → corrected ≤ limit ∨ laneTested p n lane = true →
      Completes (.fecLimitExceeded n lane corrected uncorrectable) s (fun q => counts q ∧ keepsBut [.regs] p q))
    ∧ ((ringOf p e r).state = .locked → (portOfPkg p n).lstate ≠ .down → limit < corrected → laneTested p n lane = false →
      Completes (.fecLimitExceeded n lane corrected uncorrectable) s (fun q => counts q ∧ hasEvent q (.lnk n) 28
        ∧ bit (portOfPkg q n).fecOut lane.val = true ∧ (selOn p e = true → (ringOf q e r).state = .sweep)
        ∧ keepsBut [.sels, .ports, .regs, .blocks, .alerts, .out] p q))
    ∧ ((ringOf p e r).state ≠ .locked ∨ (portOfPkg p n).lstate = .down →
      Completes (.fecLimitExceeded n lane corrected uncorrectable) s (fun q => keepsBut [] p q)))
  ∧ (∀ (s : State) (n : Fin 32),
    let p := s.pkg
    let x := portOfPkg p n
    let want := x.txRing &&& x.peerRx
    let next : Port := { x with markAt := p.count + 544, markCount := (x.markCount + 1) % 256 }
    (x.lstate = .down ∨ p.count < x.markAt → Completes (.txMapUpdate n) s (fun q => keepsBut [] p q))
    ∧ (x.lstate ≠ .down → x.markAt ≤ p.count → x.lstate ≠ .up ∨ (firstDiff x.txMap want = none ∧ x.restart = false) →
        Completes (.txMapUpdate n) s (fun q => puts (markersOf p n false) p q ∧ portOfPkg q n = next ∧ portsBut n p q ∧ keepsBut [.ports, .out] p q))
    ∧ (∀ i, x.lstate = .up → x.markAt ≤ p.count → x.restart = false → firstDiff x.txMap want = some i →
        let m := withBit x.txMap i (bit want i)
        (bit want i = true → Completes (.txMapUpdate n) s (fun q => portOfPkg q n = { next with txMap := m } ∧ hasEvent q (.lnk n) 20 ∧ portsBut n p q
          ∧ (∀ l, l < 16 → bit x.txRing l = true → ∃ w, Out.marker n l w ∈ q.out ∧ bits w 31 16 = m.toNat)
          ∧ keepsBut [.ports, .blocks, .alerts, .out] p q))
        ∧ (bit want i = false → 14 < popcount 16 m.toNat → Completes (.txMapUpdate n) s (fun q => portOfPkg q n = { next with txMap := m }
          ∧ hasEvent q (.lnk n) 19 ∧ gains 1 p q (.lnk n) 0x168 ∧ portsBut n p q ∧ keepsBut [.ports, .blocks, .alerts, .regs, .out] p q))
        ∧ (bit want i = false → popcount 16 m.toNat ≤ 14 → Completes (.txMapUpdate n) s (fun q => (portOfPkg q n).txMap = m
          ∧ (portOfPkg q n).revoked = true ∧ hasEvent q (.lnk n) 19 ∧ (popcount 16 m.toNat = 14 → hasEvent q (.lnk n) 21)
          ∧ (x.revoked = false → hasEvent q (.prk n) 18) ∧ (8 ≤ popcount 16 m.toNat → (portOfPkg q n).lstate = .up)
          ∧ (popcount 16 m.toNat < 8 → linkRetrains p q n)))))
  ∧ (∀ (s : State) (n : Fin 32),
    let p := s.pkg
    let x := portOfPkg p n
    let mine := (slotOwner p n (slotOf p.bell)).bind (fun fl => (x.queue.map Queued.frame).find? (fun f => f.flow == fl && !sendsUnreserved p n f))
    let other := (x.queue.map Queued.frame).find? (fun f =>
      sendsUnreserved p n f && hasUnits x f && roomInRetry x f && decide (wireSize f ≤ roomFor p n f false))
    (x.lstate ≠ .up ∨ x.restart = true ∨ p.count < x.busyUntil ∨ x.queue = [] → Completes (.frameTransmit n) s (fun q => keepsBut [] p q))
    ∧ (x.lstate = .up → x.restart = false → x.busyUntil ≤ p.count → x.queue ≠ [] → slotsSound p n = false → stateOf p (.prk n) ≠ .off →
        Completes (.frameTransmit n) s (fun q => isIn q (.prk n) .fault 0x03 ∧ hasEvent q (.prk n) evCmpFail ∧ (portOfPkg q n).queue = x.queue))
    ∧ (x.lstate = .up → x.restart = false → x.busyUntil ≤ p.count → slotsSound p n = true →
        (∀ f, mine = some f → wireSize f ≤ roomFor p n f true → roomInRetry x f = true → hasUnits x f = true →
          Completes (.frameTransmit n) s (fun q => sentFrame p q n f))
        ∧ (∀ f, mine = some f → wireSize f ≤ roomFor p n f true → roomInRetry x f = true → hasUnits x f = false → f.cls = 1 →
          (departTick p n f.flow 1 + 8 * downBound p (dieOfPort n) f.flow ≤ f.due.toNat →
            Completes (.frameTransmit n) s (fun q => gains (8 - p.bell.toNat % 8) p q (.lnk n) 0x150 ∧ keepsBut [.regs] p q))
          ∧ (f.due.toNat < departTick p n f.flow 1 + 8 * downBound p (dieOfPort n) f.flow →
            Completes (.frameTransmit n) s (fun q => hasEvent q (.prk n) 19 ∧ gains 1 p q (.prk n) 0x110)))
        ∧ (∀ f, mine = some f → roomFor p n f true < wireSize f ∨ roomInRetry x f = false ∨ (hasUnits x f = false ∧ f.cls ≠ 1) →
          Completes (.frameTransmit n) s (fun q => keepsBut [] p q))
        ∧ (∀ f, mine = none → other = some f → Completes (.frameTransmit n) s (fun q => sentFrame p q n f))
        ∧ (mine = none → other = none → Completes (.frameTransmit n) s (fun q =>
            (portOfPkg q n).queue.map Queued.frame = x.queue.map Queued.frame ∧ portsBut n p q ∧ keepsBut [.ports] p q))))
  ∧ (∀ (s : State) (n : Fin 32) (b : List Byte) (frac : BitVec 4),
    let p := s.pkg
    let x := portOfPkg p n
    let k := wireKind b
    let pl := (b.drop 32).take (wireLen b)
    let ahead := (wireLseq b + 65536 - x.rxSeq) % 65536
    let f := frameOf p.bell b
    (∀ u, x.lstate ≠ .up → x.training = false ∨ k ≠ 2 → Completes (.frameReceive n b u frac) s (fun q => keepsBut [] p q))
    ∧ (x.lstate = .up → k ≤ 2 → Completes (.frameReceive n b true frac) s (fun q => gains 1 p q (.lnk n) 0x120 ∧ keepsBut [.regs] p q))
    ∧ (x.lstate = .up → 2 < k → Completes (.frameReceive n b true frac) s (fun q => gains 1 p q (.lnk n) 0x120
        ∧ portOfPkg q n = { x with discarding := true } ∧ portsBut n p q ∧ keepsBut [.regs, .ports] p q))
    ∧ (wireCheck1 2 b = true → wireCheck2 b = true → leField b (wireTrailer b) 2 = 0 → wireCheck4 b = true →
        (k = 2 → x.training = true → exec (.frameReceive n b false frac) s = exec (.trainingFrameReceive n pl) s)
        ∧ (k = 1 → x.lstate = .up → exec (.frameReceive n b false frac) s = exec (.auditFrameReceive n pl) s)
        ∧ (k = 0 → x.lstate = .up → exec (.frameReceive n b false frac) s = exec (.bellFrameReceive n pl frac) s))
    ∧ (x.lstate = .up → 2 < k → wireCheck1 x.version b = true →
        (wireCheck2 b = false → Completes (.frameReceive n b false frac) s (fun q => gains 1 p q (.lnk n) 0x128 ∧ hasEvent q (.lnk n) evCmpFail
          ∧ portOfPkg q n = { x with discarding := true } ∧ portsBut n p q ∧ keepsBut [.regs, .ports, .blocks, .alerts] p q))
        ∧ (wireCheck2 b = true → ahead ≠ 0 → Completes (.frameReceive n b false frac) s (fun q =>
          (ahead < 32768 → portOfPkg q n = { x with discarding := true } ∧ portsBut n p q ∧ keepsBut [.ports] p q)
          ∧ (32768 ≤ ahead → keepsBut [] p q)))
        ∧ (wireCheck2 b = true → ahead = 0 → wireCheck4 b = false → Completes (.frameReceive n b false frac) s (fun q =>
          (portOfPkg q n).rxSeq = (x.rxSeq + 1) % 65536 ∧ hasEvent q (.lnk n) 24 ∧ gains 1 p q (.lnk n) 0x148 ∧ portsBut n p q
          ∧ keepsBut [.ports, .regs, .blocks, .alerts, .records] p q))
        ∧ (wireCheck2 b = true → ahead = 0 → wireCheck4 b = true → Completes (.frameReceive n b false frac) s (fun q =>
          (portOfPkg q n).rxSeq = (x.rxSeq + 1) % 65536 ∧ gains 1 p q (.lnk n) 0x108 ∧ gains b.length p q (.lnk n) 0x118 ∧ portsBut n p q
          ∧ (carries p (.drt (dieOfPort n)) = false ∨ x.rxWait ≠ [] → (portOfPkg q n).rxbuf = x.rxbuf ++ [f] ∧ (portOfPkg q n).rxWait = x.rxWait ++ [f]
              ∧ keepsBut [.ports, .regs] p q)
          ∧ (carries p (.drt (dieOfPort n)) = true → x.rxWait = [] → (f.kind ≠ 3 ∨ ctlLocal f.off = false) → (portOfPkg q n).rxbuf = x.rxbuf ++ [f]
              ∧ (router q (dieOfPort n)).inq = (router p (dieOfPort n)).inq ++ [⟨f, some n⟩]
              ∧ (block q (.drt (dieOfPort n))).tin = (block p (.drt (dieOfPort n))).tin + 1 ∧ keepsBut [.ports, .routers, .regs, .blocks] p q)
          ∧ (carries p (.drt (dieOfPort n)) = true → x.rxWait = [] → f.kind = 3 → ctlLocal f.off = true → q.inbox = p.inbox ++ [⟨dieOfPort n, f, some n, p.count, none⟩]
              ∧ (portOfPkg q n).rxbuf = x.rxbuf ∧ keepsBut [.ports, .inbox, .regs] p q)))))

/-- CHIP_COMMIT while every DRT page is DISABLED, SLICE_COMMIT and PORT_EN_COMMIT, at a page that is not OFF, store their fields with the complement; a chip
commit otherwise sets chip_busy alone. RT_DATA_COMMIT of a complement that agrees and of no reserved port code stores the entry; a wrong complement sets
pair_err alone. FRAME_ROUTE takes the frame at the front of the router's input when its values pass their checks: a frame for this package is delivered to
its die, the payload of a command packet to a landing slot, or it is held in the port's buffer while none is free; a frame in slice goes to the queue of the port chosen, its failover, alt and forward counted; a frame out of slice or from a fenced chip is refused
with its count and answered out of its arrival port; a value that fails its complement check puts the router in FAULT. ROUTE_REVERT after the hold chooses
the primary again. CREDIT_HOLD_DROP discards the first frame that has waited too long. IDENTITY_FRAME_SEND queues the identity frame when due;
IDENTITY_FRAME_RECEIVE records a sound one. Where a condition does not hold nothing changes. -/
def Obligations.RoutersCommitRouteAndIdentify : Prop :=
  (∀ (s : State) (v : Word), stateOf s.pkg (.drt 0) ≠ .off →
    let p := s.pkg
    ((∀ d, stateOf p (.drt d) = .disabled) → Completes (.chipCommit v) s (fun q => getReg q (.drt 0) 0x090 = v &&& 0x0001FFFF#32
      ∧ getReg q (.drt 0) 0x094 = ~~~(v &&& 0x0001FFFF#32) ∧ (v &&& 0xFFFE0000#32 ≠ 0 → hasEvent q (.drt 0) evRsvdWrite)
      ∧ regsBut [(.drt 0, 0x090), (.drt 0, 0x094)] p q ∧ keepsBut [.regs, .blocks, .alerts] p q))
    ∧ (∀ d, stateOf p (.drt d) ≠ .disabled → Completes (.chipCommit v) s (onlyRaises (.drt 0) 26 p)))
  ∧ (∀ (s : State) (d : Fin 4), stateOf s.pkg (.drt d) ≠ .off →
    let p := s.pkg
    let g := Page.drt d
    (∀ tag : BitVec 6, Completes (.sliceCommit d tag) s (fun q => getReg q g 0x098 = tag.setWidth 32 ∧ getReg q g 0x09C = ~~~(tag.setWidth 32 : Word)
      ∧ regsBut [(g, 0x098), (g, 0x09C)] p q ∧ keepsBut [.regs] p q))
    ∧ (∀ m : BitVec 8, Completes (.portEnCommit d m) s (fun q => getReg q g 0x0A0 = m.setWidth 32 ∧ getReg q g 0x0A4 = ~~~(m.setWidth 32 : Word)
      ∧ (∀ n, dieOfPort n = d → bit m (portIdx n) = false → portOfPkg q n = { portOfPkg p n with usableFrom := none })
      ∧ (∀ n, dieOfPort n ≠ d ∨ bit m (portIdx n) = true → portOfPkg q n = portOfPkg p n)
      ∧ regsBut [(g, 0x0A0), (g, 0x0A4)] p q ∧ keepsBut [.regs, .ports] p q))
    ∧ (∀ c : Word,
      let v := getReg p g 0x144
      let i := bits (getReg p g 0x140) 15 0
      let prim := portCode (bits (entryVal p g 0 i) 5 0)
      (c ≠ ~~~v → Completes (.rtDataCommit d c) s (onlyRaises g evPairErr p))
      ∧ (c = ~~~v → (bit v 31 = true → bits v 5 0 ≠ 0x3F) → codeReserved (bits v 5 0) = false → codeReserved (bits v 11 6) = false →
          codeReserved (bits v 17 12) = false →
          Completes (.rtDataCommit d c) s (fun q => entryVal q g 0 i = v &&& 0x80FFFFFF#32 ∧ entryOk q g 0 i = true
            ∧ (∀ h t j, (h, t, j) ≠ (g, 0, i) → getEntry q h t j = getEntry p h t j)
            ∧ (∀ n, prim = some n → portOfPkg q n = { portOfPkg p n with moved := false }) ∧ (∀ n, prim ≠ some n → portOfPkg q n = portOfPkg p n)
            ∧ regsBut [(g, 0x140)] p q ∧ keepsBut [.regs, .tables, .ports, .blocks, .alerts] p q))))
  ∧ (∀ (s : State) (d : Fin 4), (router s.pkg d).inq = [] → let p := s.pkg
    (carries p (.drt d) = false ∨ (∀ n, dieOfPort n = d → (portOfPkg p n).rxWait = []) → Completes (.frameRoute d) s (fun q => keepsBut [] p q))
    ∧ (carries p (.drt d) = true → Completes (.frameRoute d) s (fun q => (∀ n, dieOfPort n = d → (portOfPkg q n).rxWait = [])
        ∧ (∀ n, dieOfPort n ≠ d → portOfPkg q n = portOfPkg p n) ∧ (∀ e, e ≠ d → router q e = router p e)
        ∧ (∀ r, r ∈ (router q d).inq ↔ ∃ n f, dieOfPort n = d ∧ f ∈ (portOfPkg p n).rxWait ∧ (f.kind = 3 → ctlLocal f.off = false) ∧ r = ⟨f, some n⟩)
        ∧ keepsBut [.ports, .routers, .inbox, .blocks] p q)))
  ∧ (∀ (s : State) (d : Fin 4) (ri : RouterIn) (rest : List RouterIn), (router s.pkg d).inq = ri :: rest →
    let p := s.pkg
    let f := ri.frame
    let g := Page.drt d
    let c := choosePort p (rtEntry p d f.dst) f.cls
    let went (q : Pkg) : Prop := (router q d).inq = rest ∧ (∀ e, e ≠ d → router q e = router p e) ∧ gains 1 p q g 0x180
      ∧ (block q g).tout = (block p g).tout + 1
    (lookupOk p d f = false → stateOf p g ≠ .off → Completes (.frameRoute d) s (fun q => isIn q g .fault 0x03 ∧ hasEvent q g evCmpFail
      ∧ (router q d).inq = ri :: rest))
    ∧ (∀ e, lookupOk p d f = true → portEnBad p d f = some e → stateOf p (.drt e) ≠ .off → Completes (.frameRoute d) s (fun q =>
        isIn q (.drt e) .fault 0x03 ∧ hasEvent q (.drt e) evCmpFail ∧ (router q d).inq = ri :: rest))
    ∧ (lookupOk p d f = true → portEnBad p d f = none → chipAssigned p = true → fenced p f.src = false → fenced p f.dst = false →
        (ri.arrival = none → candidateBars p f = false) → (∀ n, ri.arrival = some n → f.src ≠ ownChip p → inSlice p d f.src = true) →
        (f.dst = ownChip p → f.cls ≠ 1 ∨ (deliveryDie p f = d ∧ p.bell.toNat ≤ f.due.toNat) →
          (isCommand f = false → Completes (.frameRoute d) s (fun q => went q ∧ q.inbox = p.inbox ++ [⟨deliveryDie p f, f, ri.arrival, p.count, none⟩]
            ∧ (∀ n, ri.arrival ≠ some n → portOfPkg q n = portOfPkg p n) ∧ keepsBut [.inbox, .routers, .ports, .regs, .blocks] p q))
          ∧ (isCommand f = true → p.inbox = [] → let x : Delivered := ⟨deliveryDie p f, f, ri.arrival, p.count, none⟩
            Completes (.frameRoute d) s (fun q => went q ∧ (∀ n, ri.arrival ≠ some n → portOfPkg q n = portOfPkg p n)
              ∧ keepsBut [.inbox, .routers, .ports, .bobs, .regs, .blocks] p q
              ∧ (∀ k n, f.last = true → 64 < f.payload.length → landPlace p (landsAt x).val = some (k, n) → q.inbox = [{ x with slot := some (k, n) }]
                ∧ slotPayload q (k, n) = f.payload.drop 64 ∧ (∀ b, b ≠ .gateway k → bobOf q b = bobOf p b))
              ∧ (waitsForSlot f = true → f.last = false ∨ landPlace p (landsAt x).val = none → q.inbox = [x] ∧ q.bobs = p.bobs ∧ q.ports = p.ports)
              ∧ (waitsForSlot f = false → q.inbox = [x] ∧ q.bobs = p.bobs))))
        ∧ (f.dst = ownChip p → f.cls = 1 → deliveryDie p f = d → f.due.toNat < p.bell.toNat →
          Completes (.frameRoute d) s (fun q => q.inbox = p.inbox ∧ gains 1 p q g 0x180
            ∧ (enabled p g = true → ∃ r, (router q d).inq = rest ++ [r] ∧ r.arrival = none ∧ r.frame.kind = 3 ∧ r.frame.off = 3 ∧ r.frame.dst = f.src)))
        ∧ (f.dst ≠ ownChip p → inSlice p d f.dst = true → some c.1 ≠ ri.arrival → portOpen p c.1 = true →
          f.cls ≠ 1 ∨ (copyOk p c.1 (activeCopy p c.1) = true ∧ (portOfPkg p c.1).revoked = false ∧ departTest p d c.1 f = none ∧ departTest p (dieOfPort c.1) c.1 f = none) →
          Completes (.frameRoute d) s (fun q => went q ∧ (portOfPkg q c.1).queue = (portOfPkg p c.1).queue ++ [⟨f, none⟩]
            ∧ (block q (.prk c.1)).tin = (block p (.prk c.1)).tin + 1 ∧ (c.2.1 = true → gains 1 p q g 0x1A0) ∧ (c.2.2 = true → gains 1 p q g 0x198)
            ∧ (ri.arrival.isSome = true → gains 1 p q g 0x1A8) ∧ keepsBut [.routers, .ports, .regs, .blocks, .alerts] p q))
        ∧ (f.dst ≠ ownChip p → inSlice p d f.dst = true → some c.1 ≠ ri.arrival → portOpen p c.1 = false → (f.kind = 3) →
          Completes (.frameRoute d) s (fun q => went q ∧ (∀ n, (portOfPkg q n).queue = (portOfPkg p n).queue)
            ∧ keepsBut [.routers, .ports, .regs, .blocks, .alerts] p q)))
    ∧ (lookupOk p d f = true → portEnBad p d f = none → ri.arrival = none → candidateBars p f = true → passHolds p f.dst f = false →
        Completes (.frameRoute d) s (fun q => went q ∧ gains 1 p q ⟨0x1D, d.val⟩ 0x150 ∧ keepsBut [.routers, .regs, .blocks] p q))
    ∧ (∀ n, lookupOk p d f = true → portEnBad p d f = none → ri.arrival = some n → f.kind ≤ 7 → carries p (.prk n) = true →
        let back (q : Pkg) (st : Status) : Prop := went q ∧ (portOfPkg q n).queue = (portOfPkg p n).queue ++ [⟨respFrame p f st [] 0, none⟩]
          ∧ keepsBut [.routers, .ports, .regs, .blocks, .alerts] p q
        (fenced p f.src = true → passHolds p f.src f = false → Completes (.frameRoute d) s (fun q => back q Status.refusedFenced
          ∧ gains 1 p q ⟨0x1D, d.val⟩ 0x150))
        ∧ (fenced p f.src = false → chipAssigned p = true → f.src ≠ ownChip p → inSlice p d f.src = false → Completes (.frameRoute d) s (fun q =>
          back q Status.refusedSlice ∧ gains 1 p q g 0x188 ∧ hasEvent q g 20))
        ∧ (fenced p f.src = false → chipAssigned p = true → f.src ≠ ownChip p → inSlice p d f.src = true → f.dst ≠ ownChip p →
            inSlice p d f.dst = true → c.1 = n → Completes (.frameRoute d) s (fun q => back q Status.refusedRoute ∧ gains 1 p q g 0x190 ∧ hasEvent q g 21))))
  ∧ (∀ (s : State) (n : Fin 32),
    let p := s.pkg
    let x := portOfPkg p n
    let d := dieOfPort n
    let reverts := x.moved = true ∧ bit (getReg p (.drt d) 0x088) 0 = true ∧ usable p n 0 = true ∧ slotOf p.bell = 0
      ∧ ∃ r, x.usableFrom = some r ∧ r + revertHold p d ≤ roundNow p
    let sound := pairOk p (.drt 0) 0x090 = true ∧ pairOk p (.drt d) 0x098 = true ∧ pairOk p (.drt d) 0x0B0 = true
    let due := x.lstate = .up ∧ carries p (.prk n) = true ∧ ∀ r, x.identityAt = some r → r + 1024 ≤ roundNow p
    (reverts → pairOk p (.drt d) 0x088 = true → Completes (.routeRevert n) s (fun q => portOfPkg q n = { x with moved := false } ∧ hasEvent q (.drt d) 23 ∧ portsBut n p q
      ∧ keepsBut [.ports, .blocks, .alerts] p q))
    ∧ (¬reverts → x.usableFrom = none ∨ pairOk p (.drt d) 0x088 = true → Completes (.routeRevert n) s (fun q => keepsBut [] p q))
    ∧ (x.queue.find? (heldTooLong p n) ≠ none → pairOk p (.drt d) 0x088 = true → Completes (.creditHoldDrop n) s (fun q =>
        portOfPkg q n = { x with queue := dropFirst (heldTooLong p n) x.queue } ∧ hasEvent q (.drt d) 27 ∧ gains 1 p q (.drt d) 0x1B0
        ∧ (block q (.prk n)).tout = (block p (.prk n)).tout + 1 ∧ portsBut n p q ∧ keepsBut [.ports, .blocks, .regs, .alerts] p q))
    ∧ (x.queue.find? (heldTooLong p n) = none → x.queue = [] ∨ pairOk p (.drt d) 0x088 = true → Completes (.creditHoldDrop n) s (fun q => keepsBut [] p q))
    ∧ (due → sound → Completes (.identityFrameSend n) s (fun q =>
        portOfPkg q n = { x with identityAt := some (roundNow p), queue := x.queue ++ [⟨identityFrame p n, none⟩] }
        ∧ (block q (.prk n)).tin = (block p (.prk n)).tin + 1 ∧ portsBut n p q ∧ keepsBut [.ports, .blocks] p q))
    ∧ (¬due → Completes (.identityFrameSend n) s (fun q => keepsBut [] p q))
    ∧ (∀ y, p.inbox.find? (localFrom n 1) = some y →
        let b := y.frame.payload
        let job : Word := BitVec.ofNat 32 (leField b 8 4)
        Completes (.identityFrameReceive n) s (fun q => takes (localFrom n 1) y p q
          ∧ (complOk 32 b = true → pairOk p (.drt d) 0x0B0 = true → getReg q (.drt d) (0x200 + 8 * portIdx n) = job
              ∧ getReg q (.drt d) (0x204 + 8 * portIdx n) = BitVec.ofNat 32 (0x80000000 + leField b 12 1 % 64)
              ∧ (job ≠ getReg p (.drt d) 0x0B0 → hasEvent q (.drt d) 28) ∧ keepsBut [.inbox, .regs, .blocks, .alerts] p q)
          ∧ (complOk 32 b = false → keepsBut [.inbox] p q)))
    ∧ (p.inbox.find? (localFrom n 1) = none → Completes (.identityFrameReceive n) s (fun q => keepsBut [] p q)))

/-- With no such frame delivered to the die nothing changes, and a write, read or atomic of a job flow taken up after its due time ends late.arrived with
its late report and memory as it was. One to a row under a repair copy waits. COMMONS_WRITE_RECEIVE and COMMONS_READ_RECEIVE of a frame to DRAM that this package serves, on
an ENABLED commons unit out of quarantine: the bytes are written with the poison of the frame, or read with theirs, and answered done or done.poisoned; a
malformed read is answered failed.format; a hole is answered refused.unmapped and every frame to a unit that is barred with its status, memory as it was.
COMMONS_ATOMIC_RECEIVE from a chip of the domain: a new sequence with room is applied to the line, entered and answered with the old value; a sequence
already entered is answered from the ledger with memory as it was, or held while it is pending; one older than eight entries is refused.stale; a chip
outside the domain is answered refused.far_atomic. TWIN_ATOMIC_RECEIVE writes the new value, makes its twin entry and answers done; the twin section
serves one primary. TWIN_ACK_RECEIVE completes the pending entry done, or done.unmirrored with its event when the mirror refused. -/
def Obligations.CommonsAccessesServed : Prop :=
  (∀ (s : State) (d : Fin 4), let p := s.pkg
    (p.inbox.find? (isKind d 4) = none → Completes (.commonsWriteReceive d) s (fun q => keepsBut [] p q))
    ∧ (p.inbox.find? (isKind d 5) = none → Completes (.commonsReadReceive d) s (fun q => keepsBut [] p q))
    ∧ (p.inbox.find? (fun x => isKind d 6 x && !atomTwin x.frame) = none → Completes (.commonsAtomicReceive d) s (fun q => keepsBut [] p q))
    ∧ (p.inbox.find? (fun x => isKind d 6 x && atomTwin x.frame) = none → Completes (.twinAtomicReceive d) s (fun q => keepsBut [] p q))
    ∧ (p.inbox.find? (isTwinResp d) = none → Completes (.twinAckReceive d) s (fun q => keepsBut [] p q))
    ∧ (∀ x, p.inbox.find? (isKind d 4) = some x → pastDue p x.frame = false → dramHeld p x.frame.off (accessLen x.frame) = true →
        Completes (.commonsWriteReceive d) s (fun q => keepsBut [] p q))
    ∧ (∀ x, p.inbox.find? (isKind d 5) = some x → pastDue p x.frame = false → dramHeld p x.frame.off (accessLen x.frame) = true →
        Completes (.commonsReadReceive d) s (fun q => keepsBut [] p q)))
  ∧ (∀ (s : State) (d : Fin 4) (x : Delivered), let p := s.pkg
    let f := x.frame
    let n := f.payload.length
    let counted (q : Pkg) : Prop := (block q (cmnDie d)).tin = (block p (cmnDie d)).tin + 1 ∧ (block q (cmnDie d)).tout = (block p (cmnDie d)).tout + 1
    p.inbox.find? (isKind d 4) = some x →
      (pastDue p f = true → Completes (.commonsWriteReceive d) s (fun q => takes (isKind d 4) x p q ∧ tellsLate p q d f ∧ keepsBut [.inbox, .routers, .blocks] p q))
      ∧ (pastDue p f = false → dramHeld p f.off (accessLen f) = false →
      (arriveBar p d = Status.done → dramServes p f.off n true → Completes (.commonsWriteReceive d) s (fun q => takes (isKind d 4) x p q
        ∧ answers p q d f Status.done [] 0 ∧ counted q ∧ memIs q (writeLocal p f.off f.payload (maskTag f.off n f.poison))
        ∧ keepsBut [.inbox, .routers, .blocks, .regs, .mem, .poison, .lost] p q))
      ∧ (arriveBar p d = Status.done → rangeOf f.off = .hole → Completes (.commonsWriteReceive d) s (fun q => takes (isKind d 4) x p q
        ∧ answers p q d f Status.refusedUnmapped [] 0 ∧ counted q ∧ keepsBut [.inbox, .routers, .blocks, .regs, .alerts] p q))
      ∧ (arriveBar p d ≠ Status.done → Completes (.commonsWriteReceive d) s (fun q => takes (isKind d 4) x p q
        ∧ answers p q d f (arriveBar p d) [] 0 ∧ counted q ∧ keepsBut [.inbox, .routers, .blocks] p q))))
  ∧ (∀ (s : State) (d : Fin 4) (x : Delivered), let p := s.pkg
    let f := x.frame
    let n := leField f.payload 0 2
    let formed := f.payload.length = 8 ∧ leField f.payload 2 6 = 0 ∧ 4 ≤ n ∧ n ≤ 2048 ∧ n % 4 = 0
    p.inbox.find? (isKind d 5) = some x →
      (pastDue p f = true → Completes (.commonsReadReceive d) s (fun q => takes (isKind d 5) x p q ∧ tellsLate p q d f ∧ keepsBut [.inbox, .routers, .blocks] p q))
      ∧ (pastDue p f = false → dramHeld p f.off (accessLen f) = false →
      (arriveBar p d = Status.done → formed → dramServes p f.off n false → Completes (.commonsReadReceive d) s (fun q => takes (isKind d 5) x p q
        ∧ answers p q d f (if readMask p f.off n = 0 then Status.done else Status.donePoisoned) (readLocal p f.off n) (readMask p f.off n)
        ∧ keepsBut [.inbox, .routers, .blocks, .regs] p q))
      ∧ (arriveBar p d = Status.done → ¬formed → Completes (.commonsReadReceive d) s (fun q => takes (isKind d 5) x p q
        ∧ answers p q d f Status.failedFormat [] 0 ∧ keepsBut [.inbox, .routers, .blocks] p q))
      ∧ (arriveBar p d ≠ Status.done → Completes (.commonsReadReceive d) s (fun q => takes (isKind d 5) x p q
        ∧ answers p q d f (arriveBar p d) [] 0 ∧ keepsBut [.inbox, .routers, .blocks] p q))))
  ∧ (∀ (s : State) (d : Fin 4) (x : Delivered), let p := s.pkg
    let f := x.frame
    let t := fun x => isKind d 6 x && !atomTwin x.frame
    let n := if atomWide f then 8 else 4
    let k := (f.src, atomDie f)
    let l := ownEntries p d k
    let old := leNat (readLocal p f.off n)
    let new := atomNew (atomOpc f) (8 * n) old (atomOperand f).toNat (atomCompare f).toNat
    p.inbox.find? t = some x →
      (pastDue p f = true → Completes (.commonsAtomicReceive d) s (fun q => takes t x p q ∧ tellsLate p q d f ∧ keepsBut [.inbox, .routers, .blocks] p q))
      ∧ (pastDue p f = false → dramHeld p f.off (accessLen f) = false → arriveBar p d = Status.done → enabled p (.ledg d) = true →
      (inDomain p (cmnDie d) f.src = false → Completes (.commonsAtomicReceive d) s (fun q => takes t x p q
        ∧ answers p q d f Status.refusedFarAtomic (atomReply 0 false (atomSeq f) false false) 0 ∧ keepsBut [.inbox, .routers, .blocks] p q))
      ∧ (inDomain p (cmnDie d) f.src = true → atomPayloadOk f = true → atomFormOk (atomOpc f) f.off (atomWide f) = true → dramServes p f.off n true →
        (l.find? (fun e => e.seq == atomSeq f) = none → l.length < 8 → localPoisoned p f.off n = false → mirrorOf p (cmnDie d) f.off = none →
          Completes (.commonsAtomicReceive d) s (fun q => takes t x p q
            ∧ answers p q d f Status.done (atomReply (BitVec.ofNat 64 old) (atomFetch f) (atomSeq f) false false) 0
            ∧ ownEntries q d k = l ++ [⟨atomSeq f, BitVec.ofNat 64 old, Status.done, false, none, 0, 0, 0, 0⟩] ∧ gains 1 p q (.ledg d) 0x100
            ∧ memIs q (writeLocal p f.off (leBytes n new) noTag) ∧ keepsBut [.inbox, .routers, .blocks, .regs, .ledgers, .mem, .poison, .lost] p q))
        ∧ (l.find? (fun e => e.seq == atomSeq f) = none → l.length < 8 → localPoisoned p f.off n = true →
          Completes (.commonsAtomicReceive d) s (fun q => takes t x p q
            ∧ answers p q d f Status.failedPoison (atomReply 0 false (atomSeq f) false false) 0 ∧ keepsBut [.inbox, .routers, .blocks] p q))
        ∧ (∀ e, l.find? (fun e => e.seq == atomSeq f) = some e → e.pending = false → Completes (.commonsAtomicReceive d) s (fun q => takes t x p q
            ∧ answers p q d f e.status (atomReply e.old (atomFetch f) (atomSeq f) true false) 0 ∧ gains 1 p q (.ledg d) 0x108
            ∧ keepsBut [.inbox, .routers, .blocks, .regs] p q))
        ∧ (∀ e, l.find? (fun e => e.seq == atomSeq f) = some e → e.pending = true → Completes (.commonsAtomicReceive d) s (fun q => takes t x p q
            ∧ ledgerOf q d = { ledgerOf p d with held := (ledgerOf p d).held ++ [f] } ∧ keepsBut [.inbox, .ledgers, .blocks] p q))
        ∧ (∀ m, l.find? (fun e => e.seq == atomSeq f) = none → 8 ≤ l.length → lowestEntry l = some m → seqLess m.seq (atomSeq f) = false →
          Completes (.commonsAtomicReceive d) s (fun q => takes t x p q
            ∧ answers p q d f Status.refusedStale (atomReply 0 false (atomSeq f) false true) 0 ∧ gains 1 p q (.ledg d) 0x110 ∧ hasEvent q (.ledg d) 16
            ∧ keepsBut [.inbox, .routers, .blocks, .regs, .alerts] p q)))))
  ∧ (∀ (s : State) (d : Fin 4) (x : Delivered), let p := s.pkg
    let f := x.frame
    let t := fun x => isKind d 6 x && atomTwin x.frame
    let n := if atomWide f then 8 else 4
    let no := atomReply 0 false (atomSeq f) false false
    let k := (BitVec.ofNat 16 (leField f.payload 2 2), atomDie f)
    p.inbox.find? t = some x → pastDue p f = false → dramHeld p f.off (accessLen f) = false → arriveBar p d = Status.done → enabled p (.ledg d) = true → atomPayloadOk f = true →
      atomFormOk (atomOpc f) f.off (atomWide f) = true → dramServes p f.off n true →
      ((ledgerOf p d).primary = none ∨ (ledgerOf p d).primary = some f.src → Completes (.twinAtomicReceive d) s (fun q => takes t x p q
        ∧ answers p q d f Status.done no 0 ∧ (ledgerOf q d).primary = some f.src ∧ gains 1 p q (.ledg d) 0x120
        ∧ (∃ e, e ∈ Map.getD (ledgerOf q d).twin k [] ∧ e.seq = atomSeq f ∧ e.old = atomCompare f ∧ e.status = Status.done)
        ∧ memIs q (writeLocal p f.off (leBytes n (atomOperand f).toNat) noTag)
        ∧ keepsBut [.inbox, .routers, .blocks, .regs, .ledgers, .mem, .poison, .lost] p q))
      ∧ (∀ c, (ledgerOf p d).primary = some c → c ≠ f.src → Completes (.twinAtomicReceive d) s (fun q => takes t x p q
        ∧ answers p q d f Status.refusedBusy no 0 ∧ hasEvent q (.ledg d) 18 ∧ keepsBut [.inbox, .routers, .blocks, .alerts] p q)))
  ∧ (∀ (s : State) (d : Fin 4) (x : Delivered), let p := s.pkg
    let f := x.frame
    p.inbox.find? (isTwinResp d) = some x →
      (pendingTwin p f.seq = none → Completes (.twinAckReceive d) s (fun q => takes (isTwinResp d) x p q ∧ keepsBut [.inbox] p q))
      ∧ (∀ e k n st, pendingTwin p f.seq = some (e, k, n) → st = (if respStatus f = Status.done then Status.done else Status.doneUnmirrored) → Completes (.twinAckReceive d) s (fun q => takes (isTwinResp d) x p q
        ∧ ownEntries q e k = (ownEntries p e k).map (fun y => if y.seq = n.seq then { y with pending := false, request := none, status := st } else y)
        ∧ (respStatus f ≠ Status.done → hasEvent q (.ledg e) 17)
        ∧ (∀ r, respStatus f = Status.done → n.request = some r →
            (∀ h, h ∈ (ledgerOf p e).held → ¬(h.src = k.1 ∧ atomDie h = k.2 ∧ atomSeq h = n.seq)) →
            answers p q e r Status.done (atomReply n.old (atomFetch r) n.seq false false) 0)
        ∧ (respStatus f = Status.done → keepsBut [.inbox, .routers, .blocks, .regs, .ledgers] p q))))

/-- COMMONS_RESPONSE_RECEIVE of a sequence that waits ends its request with the response's status: a load's data reach the issuer's store, an atomic's
value the result register; a stale reply is counted alone, and with no such frame nothing changes. REPLY_DEADLINE before the deadline changes nothing; past
it a load ends failed.dead_target with its event and count, a store unknown.no_ack with its count. ATOM_WINDOW_RELEASE with room takes the next sequence of
the window and sends the atomic, without room it changes nothing. ATOM_LIMIT_EXPIRY past the limit ends a sent atomic unknown.no_reply, its sequence pinned,
and a waiting one refused.busy; before it nothing changes. FLAG_STORE_RELEASE of a held flag store: it stays held while an earlier store is open, ends
failed.order after a failed one, and goes on otherwise. LQ_CMD_GO on a page that is not OFF answers the entry of the key, or none, with lq_done.
CMN_TBL_WRITE on a DISABLED page stores the entry with its complement; on another page that is not OFF it sets tbl_locked alone, and a wrong complement
sets pair_err alone. -/
def Obligations.CommonsRequestsEndAndWait : Prop :=
  (∀ (s : State) (d : Fin 4), s.pkg.inbox.find? (isCoreResp d) = none → Completes (.commonsResponseReceive d) s (fun q => keepsBut [] s.pkg q))
  ∧ (∀ (s : State) (d : Fin 4) (x : Delivered), let p := s.pkg
    let f := x.frame
    p.inbox.find? (isCoreResp d) = some x →
      (respStale f = true → Completes (.commonsResponseReceive d) s (fun q => takes (isCoreResp d) x p q ∧ gains 1 p q (cmnDie d) 0x148
        ∧ keepsBut [.inbox, .regs] p q))
      ∧ (∀ r, respStale f = false → reqBySeq p f.seq = some r → Completes (.commonsResponseReceive d) s (fun q => takes (isCoreResp d) x p q
        ∧ (∀ st o, r.kind = 5 → respStatus f = Status.done → rangeOf r.dest = .store st o → rangeAsleep p st o r.len = false →
            reqEnds p q r Status.done ∧ memIs q (writeLocal p r.dest f.payload (maskTag r.dest r.len f.poison))
            ∧ keepsBut [.inbox, .creqs, .insts, .blocks, .atomWins, .mem, .poison, .lost] p q)
        ∧ (r.kind = 4 → reqEnds p q r (respStatus f) ∧ keepsBut [.inbox, .creqs, .insts, .blocks, .atomWins, .ctxs] p q)
        ∧ (r.kind = 6 → respStatus f = Status.done → reqEnds p q r Status.done
            ∧ ((∃ i, i ∈ p.insts ∧ i.id = r.inst) → writesScalar (ctxOf p r.ctx) (ctxOf q r.ctx) r.dest (BitVec.ofNat 64 (leField f.payload 0 8)))
            ∧ keepsBut [.inbox, .creqs, .insts, .blocks, .atomWins, .ctxs] p q)
        ∧ (r.kind = 6 → respStatus f ≠ Status.done → reqEnds p q r (respStatus f) ∧ keepsBut [.inbox, .creqs, .insts, .blocks, .atomWins] p q))))
  ∧ (∀ (s : State) (q0 : Word) (r : CReq), let p := s.pkg
    reqBySeq p q0 = some r →
      (p.bell.toNat < r.deadline.toNat → Completes (.replyDeadline q0) s (fun q => keepsBut [] p q))
      ∧ (r.deadline.toNat ≤ p.bell.toNat → r.kind = 5 → Completes (.replyDeadline q0) s (fun q => reqEnds p q r Status.failedDeadTarget
        ∧ hasEvent q r.cmn 16 ∧ gains 1 p q r.cmn 0x120 ∧ (∀ a, a ∈ linesOf r.dest r.len → a / 64 ∈ q.poison)
        ∧ keepsBut [.creqs, .insts, .blocks, .regs, .alerts, .records, .atomWins, .mem, .poison] p q))
      ∧ (r.deadline.toNat ≤ p.bell.toNat → r.kind = 4 → Completes (.replyDeadline q0) s (fun q => reqEnds p q r Status.unknownNoAck
        ∧ gains 1 p q r.cmn 0x128 ∧ keepsBut [.creqs, .insts, .blocks, .regs, .ctxs, .atomWins] p q)))
  ∧ (∀ (s : State) (q0 : Word), let p := s.pkg
    reqBySeq p q0 = none → pendingTwin p q0 = none → Completes (.replyDeadline q0) s (fun q => keepsBut [] p q))
  ∧ (∀ (s : State) (d : Fin 4) (chip : Chip) (r : CReq), let p := s.pkg
    let a := atomWinOf p d chip
    p.creqs.find? (fun r => r.stage == .window && r.ctx.core.die == d && r.chip == chip) = some r →
      (windowRoom a = false → Completes (.atomWindowRelease d chip) s (fun q => keepsBut [] p q))
      ∧ (∀ due, windowRoom a = true → r.flag = false → chip ≠ ownChip p → inDomain p (cmnDie d) chip = true → r.kind = 6 → r.ledger = none → r.copies = 0 → r.flow = 0xFFF →
        enabled p (.drt d) = true → pairOk p (cmnDie d) 0x088 = true → admitCheck p d r.flow r.dueReq r.payloadLen = .ok due →
        Completes (.atomWindowRelease d chip) s (fun q => atomWinOf q d chip = { a with next := a.next + 1, outstanding := a.outstanding ++ [a.next] }
          ∧ (∃ x, x ∈ q.creqs ∧ x.id = r.id ∧ x.stage = .sent ∧ x.copies = 1 ∧ x.ledger = some a.next ∧ x.seq = p.nextSeq + 1)
          ∧ gains 1 p q r.cmn 0x110 ∧ keepsBut [.creqs, .atomWins, .regs, .blocks, .nextSeq, .routers] p q)))
  ∧ (∀ (s : State) (d : Fin 4) (chip : Chip), s.pkg.creqs.find? (fun r => r.stage == .window && r.ctx.core.die == d && r.chip == chip) = none →
    Completes (.atomWindowRelease d chip) s (fun q => keepsBut [] s.pkg q))
  ∧ (∀ (s : State) (id : Nat) (r : CReq), let p := s.pkg
    p.creqs.find? (fun r => r.id == id && r.kind == 6) = some r → pairOk p (cmnDie r.ctx.core.die) 0x088 = true →
      (p.bell.toNat < r.firstAt.toNat + atomLimit p r.ctx.core.die → Completes (.atomLimitExpiry id) s (fun q => keepsBut [] p q))
      ∧ (r.firstAt.toNat + atomLimit p r.ctx.core.die ≤ p.bell.toNat →
        (0 < r.copies → Completes (.atomLimitExpiry id) s (fun q => reqEnds p q r Status.unknownNoReply ∧ hasEvent q r.cmn 18 ∧ gains 1 p q r.cmn 0x138
          ∧ (∀ n, r.ledger = some n → (atomWinOf q r.ctx.core.die r.chip).pinned = (atomWinOf p r.ctx.core.die r.chip).pinned ++ [n])
          ∧ keepsBut [.creqs, .insts, .blocks, .regs, .alerts, .records, .nvPending, .atomWins] p q))
        ∧ (r.copies = 0 → r.stage = .window → Completes (.atomLimitExpiry id) s (fun q => reqEnds p q r Status.refusedBusy
          ∧ keepsBut [.creqs, .insts, .atomWins] p q))
        ∧ (r.copies = 0 → r.stage ≠ .window → Completes (.atomLimitExpiry id) s (fun q => keepsBut [] p q))))
  ∧ (∀ (s : State) (id : Nat), s.pkg.creqs.find? (fun r => r.id == id && r.kind == 6) = none →
    Completes (.atomLimitExpiry id) s (fun q => keepsBut [] s.pkg q))
  ∧ (∀ (s : State) (id : Nat) (r : CReq), let p := s.pkg
    p.creqs.find? (fun r => r.id == id && r.stage == .flagHeld) = some r → r.flag = true →
      (flagOpen p r = true → Completes (.flagStoreRelease id) s (fun q => keepsBut [] p q))
      ∧ (flagOpen p r = false → flagBad p r = true → Completes (.flagStoreRelease id) s (fun q => reqEnds p q r Status.failedOrder
        ∧ hasEvent q r.cmn 19 ∧ gains 1 p q r.cmn 0x158))
      ∧ (∀ due, flagOpen p r = false → flagBad p r = false → r.chip ≠ ownChip p → inDomain p (cmnDie r.ctx.core.die) r.chip = true → r.kind = 4 → r.copies = 0 → r.flow = 0xFFF →
        enabled p (.drt r.ctx.core.die) = true → pairOk p (cmnDie r.ctx.core.die) 0x088 = true → admitCheck p r.ctx.core.die r.flow r.dueReq r.payloadLen = .ok due →
        Completes (.flagStoreRelease id) s (fun q => (∃ x, x ∈ q.creqs ∧ x.id = id ∧ x.stage = .sent ∧ x.copies = 1) ∧ gains 1 p q r.cmn 0x108
          ∧ gains 1 p q r.cmn 0x118 ∧ keepsBut [.creqs, .regs, .blocks, .nextSeq, .routers] p q)))
  ∧ (∀ (s : State) (d sd : Fin 4), stateOf s.pkg (.ledg d) ≠ .off → let p := s.pkg
    let g := Page.ledg d
    let k := getReg p g 0x200
    let r := ledgerLookup p d (BitVec.ofNat 16 (bits k 31 16)) (BitVec.ofNat 16 (bits k 15 0)) sd.val (getReg p g 0x204)
    Completes (.lqCmdGo d sd) s (fun q =>
      (∀ e, r = some e → getReg q g 0x20C = BitVec.ofNat 32 (0xC0000000 + e.status.toNat) ∧ getReg64 q g 0x210 = e.old)
      ∧ (r = none → getReg q g 0x20C = 0x80000000#32 ∧ getReg64 q g 0x210 = 0) ∧ hasEvent q g 19
      ∧ regsBut [(g, 0x20C), (g, 0x210), (g, 0x214)] p q ∧ keepsBut [.regs, .blocks, .alerts] p q))
  ∧ (∀ (s : State) (i : Fin 5) (c : Word), stateOf s.pkg (.cmn i) ≠ .off → let p := s.pkg
    let g := Page.cmn i
    let v := getReg p g 0x204
    let t := bits (getReg p g 0x200) 30 29
    let k := bits (getReg p g 0x200) 9 0
    (c ≠ ~~~v → Completes (.cmnTblWrite i c) s (onlyRaises g evPairErr p))
    ∧ (∀ m, c = ~~~v → cmnEntryMask t k = some m →
        (stateOf p g ≠ .disabled → Completes (.cmnTblWrite i c) s (onlyRaises g 24 p))
        ∧ (stateOf p g = .disabled → Completes (.cmnTblWrite i c) s (fun q => entryVal q g t k = v &&& m ∧ entryOk q g t k = true
          ∧ (∀ h u j, h ≠ g → getEntry q h u j = getEntry p h u j) ∧ regsBut [(g, 0x200)] p q ∧ keepsBut [.regs, .tables, .blocks, .alerts] p q))))

/-- A chip in slice, not this package's own and not fenced, is fenced while the table holds fewer than 1,024 entries: by FENCE_REQ_WRITE with go (reason
0x2), by FENCE_NOTICE_RECEIVE of a sound notice with a defined reason, and at ROUND_JUDGEMENT by a neighbour whose every shared port has been silent for
silent_rounds rounds (reason 0x1): the entry is listed in every CMN page with its event, the ports to the chip lose PORT_EN, and its requests end. A full
table, and a notice that names the package itself, quarantine it: every ENABLED or DRAINING block goes to QUARANTINED, with the event and the report. A
request without go, for the own chip, for a chip out of slice or fenced already changes nothing, and so does a notice of such a chip or of a reserved reason
beyond being taken; one that fails its complement sets cmp_fail. FENCE_REANNOUNCE queues the whole table at each port that is due.
SAMPLER_PASS_SET and SAMPLER_PASS_CLEAR write the pass bit of the chip's entry alone. That the own chip is not fenced by its own request is the model's
reading (log entry 16). -/
def Obligations.FencesAndQuarantine : Prop :=
  let fences (p q : Pkg) (chip : Chip) (reason : Nat) : Prop := q.fences = p.fences ++ [⟨chip, reason, false⟩] ∧ (∀ g, g ∈ cmnPages → hasEvent q g 20)
    ∧ (∀ n, n ∈ portsTo p chip → bit (getReg q (.drt (dieOfPort n)) 0x0A0) (portIdx n) = false ∧ hasEvent q (.drt (dieOfPort n)) 24
      ∧ (portOfPkg q n).usableFrom = none)
    ∧ (∀ r, r ∈ q.creqs → r.chip = chip → r.stage = .gateway)
  let quarantines (p q : Pkg) : Prop := q.quarantined = true ∧ hasEvent q hubCmn 22 ∧ q.out.getLast? = some (.report 22 [(ownChip p).toNat])
    ∧ (∀ g, stateOf p g = .enabled ∧ pairOk p g 0x008 = true ∨ stateOf p g = .draining → stateOf q g = .quarantined)
  (∀ (s : State) (v : Word), stateOf s.pkg hubCmn ≠ .off → let p := s.pkg
    let chip : Chip := BitVec.ofNat 16 v.toNat
    let asks := bit v 31 = true ∧ chipInSlice p chip = true ∧ chip ≠ ownChip p
    (asks → fenced p chip = false → p.fences.length < 1024 → Completes (.fenceReqWrite v) s (fun q => fences p q chip 2))
    ∧ (asks → fenced p chip = false → p.fences.length < 1024 → portsTo p chip = [] → p.creqs = [] → p.bobs = [] → p.ledgers = [] → p.rv.job = none →
        noticePorts p = [] → Completes (.fenceReqWrite v) s (fun q => fences p q chip 2
          ∧ keepsBut [.fences, .regs, .blocks, .alerts, .records, .nvPending, .atomWins] p q))
    ∧ (asks → fenced p chip = false → 1024 ≤ p.fences.length → p.quarantined = false →
        Completes (.fenceReqWrite v) s (fun q => quarantines p q ∧ hasEvent q hubCmn 21 ∧ q.fences = p.fences))
    ∧ (¬asks ∨ fenced p chip = true → v &&& 0x7FFF0000#32 = 0 → Completes (.fenceReqWrite v) s (fun q => keepsBut [] p q)))
  ∧ (∀ (s : State) (n : Fin 32), s.pkg.inbox.find? (localFrom n 2) = none → Completes (.fenceNoticeReceive n) s (fun q => keepsBut [] s.pkg q))
  ∧ (∀ (s : State) (n : Fin 32) (x : Delivered), let p := s.pkg
    let b := x.frame.payload
    let chip : Chip := BitVec.ofNat 16 (leField b 0 2)
    let reason := leField b 4 1
    let sound := complOk 32 b = true ∧ 1 ≤ reason ∧ reason ≤ 3
    p.inbox.find? (localFrom n 2) = some x →
      (complOk 32 b = false → Completes (.fenceNoticeReceive n) s (fun q => takes (localFrom n 2) x p q ∧ hasEvent q hubCmn evCmpFail
        ∧ keepsBut [.inbox, .blocks, .alerts] p q))
      ∧ (sound → (chip ≠ ownChip p ∨ chipAssigned p = false) → chipInSlice p chip = true → fenced p chip = false → p.fences.length < 1024 →
          Completes (.fenceNoticeReceive n) s (fun q => takes (localFrom n 2) x p q ∧ fences p q chip reason))
      ∧ (sound → chip = ownChip p → chipAssigned p = true → p.quarantined = false →
          Completes (.fenceNoticeReceive n) s (fun q => takes (localFrom n 2) x p q ∧ quarantines p q))
      ∧ (complOk 32 b = true → reason = 0 ∨ 3 < reason ∨ ((chip ≠ ownChip p ∨ chipAssigned p = false) ∧ (chipInSlice p chip = false ∨ fenced p chip = true)) →
          Completes (.fenceNoticeReceive n) s (fun q => takes (localFrom n 2) x p q ∧ keepsBut [.inbox] p q)))
  ∧ (∀ (s : State) (chip : Chip), let p := s.pkg
    slotOf p.bell = 512 → (∀ r, p.bellU.judged = some r → r < roundNow p) → enabled p hubCmn = true → p.bellU.state = .unjoined → neighbours p = [chip] →
    fenced p chip = false → p.fences.length < 1024 → (∀ n, n ∈ portsTo p chip → (bellPort p n).arrived = false ∧ silentRounds p ≤ (bellPort p n).hbSilent + 1) →
    pairOk p hubCmn 0x090 = true →
    Completes .roundJudgement s (fun q => fences p q chip 1))
  ∧ (∀ s : State, let p := s.pkg
    let due (n : Fin 32) : Prop := n ∈ noticePorts p ∧ ((portOfPkg p n).fenceDue = true ∨ (roundNow p % 1024 = 0 ∧ slotOf p.bell = 0))
    Completes .fenceReannounce s (fun q =>
      (∀ n, due n → (portOfPkg q n).fenceDue = false ∧ ∃ l : List Queued, (portOfPkg q n).queue = (portOfPkg p n).queue ++ l
        ∧ l.map (fun e => e.frame.payload) = p.fences.map (fun e => fencePayload e.chip (ownChip p) 3 p.bell)
        ∧ (∀ e, e ∈ l → e.since = none ∧ e.frame.kind = 3 ∧ e.frame.off = 2 ∧ e.frame.dst = 0))
      ∧ (∀ n, ¬due n → portOfPkg q n = portOfPkg p n) ∧ keepsBut [.ports, .blocks] p q))
  ∧ (∀ (s : State) (chip : Chip), stateOf s.pkg hubCmn ≠ .off → let p := s.pkg
    Completes (.samplerPassSet chip) s (fun q => q.fences = p.fences.map (fun e => if e.chip = chip then { e with pass := true } else e)
      ∧ keepsBut [.fences] p q)
    ∧ Completes (.samplerPassClear chip) s (fun q => q.fences = p.fences.map (fun e => if e.chip = chip then { e with pass := false } else e)
      ∧ keepsBut [.fences] p q))

/-- With nothing delivered of its kind, or no open instance, each of these commands changes nothing. GRANT_RECEIVE holds the grant, COUNT_RECEIVE the count
of its instance. CHUNK_SEND of a transfer across the hub that may go delivers its pieces and its close and counts it; one on a flow without bell ends
refused.bell. CHUNK_DATA_RECEIVE adds the part, or ends one past its due time late.arrived, CHUNK_CLOSE_RECEIVE closes the transfer with what the close decides and answers it; a frame of no open
instance is counted as stale. CHUNK_CLOSE_RESPONSE and CHUNK_ACK_DEADLINE end the sent chunk with the answered status or unknown.no_ack. CHUNK_FOLD_DONE
folds the next rank's contribution. STAGE_DEADLINE closes what has not closed, TALLY_DEADLINE concludes the instance, both with the missing event.
DIGEST_RECEIVE takes a report, and the last one of the last stage sends the verdict to every die of the group; VERDICT_RECEIVE concludes the instance and
says which epoch, a failing one taints what was released early. EARLY_RELEASE ends a finished contributor done.early or worse. WELL_TBL_WRITE with no
instance open stores the entry with its complement; with one open it sets tbl_busy alone. -/
def Obligations.CollectivesMoveFoldAndConclude : Prop :=
  let others (d : Fin 4) (p q : Pkg) : Prop := ∀ e, e ≠ d → wellOf q e = wellOf p e
  (∀ (s : State) (d : Fin 4), let p := s.pkg
    (p.inbox = [] → (∀ e, (wellOf p e).insts = []) →
      Completes (.grantReceive d) s (keepsBut [] p) ∧ Completes (.countReceive d) s (keepsBut [] p) ∧ (∀ c, Completes (.chunkSend d c) s (keepsBut [] p))
      ∧ Completes (.chunkDataReceive d) s (keepsBut [] p) ∧ Completes (.chunkCloseReceive d) s (keepsBut [] p)
      ∧ Completes (.chunkCloseResponse d) s (keepsBut [] p) ∧ (∀ n, Completes (.chunkAckDeadline d n) s (keepsBut [] p))
      ∧ (∀ c, Completes (.chunkFoldDone d c) s (keepsBut [] p)) ∧ (∀ c, Completes (.stageDeadline d c) s (keepsBut [] p))
      ∧ Completes (.digestReceive d) s (keepsBut [] p) ∧ Completes (.verdictReceive d) s (keepsBut [] p)
      ∧ Completes (.earlyRelease d) s (keepsBut [] p) ∧ Completes (.tallyDeadline d) s (keepsBut [] p))
    ∧ (∀ x, p.inbox.find? (controlAt d 2) = some x → let b := x.frame.payload
        Completes (.grantReceive d) s (fun q => takes (controlAt d 2) x p q ∧ others d p q
          ∧ wellOf q d = { wellOf p d with grants := (wellOf p d).grants ++ [⟨ctlGroup b, ctlEpoch b, ctlStage b, x.frame.src, injDie x.frame.inj, ctlRank b,
              (leField b 2 2).testBit 10, leField b 8 2, leField b 10 2⟩] } ∧ keepsBut [.inbox, .wells] p q))
    ∧ (∀ x n, let t := fun x => controlAt d 5 x && (instAt p d (ctlGroup x.frame.payload) (ctlEpoch x.frame.payload)).isSome
        let b := x.frame.payload
        p.inbox.find? t = some x → instAt p d (ctlGroup b) (ctlEpoch b) = some n →
        Completes (.countReceive d) s (fun q => takes t x p q ∧ others d p q
          ∧ instAt q d (ctlGroup b) (ctlEpoch b) = some { n with counts := Map.put n.counts (x.frame.due.toNat / 2 ^ 40, ctlRank b) (leField b 8 2) }
          ∧ keepsBut [.inbox, .wells] p q)))
  ∧ (∀ (s : State) (d : Fin 4) (c : Nat) (x : Instance_) (rest : List Instance_) (g : Grp) (t : Transfer) (ts : List Transfer) (l : Load), let p := s.pkg
    (wellOf p d).insts = x :: rest → x.concluded = false → grpOf p d x.group = some g → transfersOf p d x g c = t :: ts → maySend p d x g t = true →
    loadOf p d x g t = some l → x.outOf t = none → x.coll ≠ 4 →
      (t.hub = true → Completes (.chunkSend d c) s (fun q =>
        (∃ fs : List Delivered, q.inbox = p.inbox ++ fs ∧ fs.length = l.parts.length + 1
          ∧ fs.map (fun v => v.frame.payload) = l.parts.map (fun y => y.2) ++ [closeOf p { x with outs := (x.outs ++ [⟨t.key, t.chip, t.die,
              rankInj p d g t.from_, chunkSeq x t.key, 0, false, keyDeadline x g t.key, 0, 0, none, if t.hub then 0 else (g.stg t.key.stage).flow, 0⟩]) } t l]
          ∧ (∀ v, v ∈ fs → v.die = t.die ∧ v.frame.kind = 7 ∧ v.frame.seq = chunkSeq x t.key))
        ∧ (∃ y o, instAt q d x.group x.epoch = some y ∧ o ∈ y.outs ∧ o.key = t.key ∧ o.seq = chunkSeq x t.key ∧ o.closeSent = true)
        ∧ (block q (.well d)).tin = (block p (.well d)).tin + 1 ∧ gains 1 p q (.well d) 0x108 ∧ others d p q
        ∧ keepsBut [.inbox, .wells, .regs, .blocks] p q))
      ∧ (t.hub = false → (g.stg t.key.stage).flow ≠ 0xFFF → bellAdmits p = false → Completes (.chunkSend d c) s (fun q =>
        puts [.item (.well d) (chunkSeq x t.key).toNat Status.refusedBell] p q ∧ hasEvent q (.well d) 17 ∧ others d p q
        ∧ keepsBut [.wells, .blocks, .alerts, .out] p q)))
  ∧ (∀ (s : State) (d : Fin 4) (v : Delivered), let p := s.pkg
    let f := v.frame
    let t := fun x => x.die == d && x.frame.kind == 7 && !x.frame.last
    let k := frameKey f
    (p.inbox.find? t = some v → pastDue p f = true → Completes (.chunkDataReceive d) s (fun q => takes t v p q ∧ tellsLate p q d f
      ∧ keepsBut [.inbox, .routers, .blocks] p q))
    ∧ (p.inbox.find? t = some v → pastDue p f = false → dramHeld p f.off (accessLen f) = false →
      (frameInst p d f = none → Completes (.chunkDataReceive d) s (fun q => takes t v p q ∧ gains 1 p q (.well d) 0x140 ∧ hasEvent q (.well d) 25
        ∧ keepsBut [.inbox, .regs, .blocks, .alerts] p q))
      ∧ (∀ n, frameInst p d f = some n → Completes (.chunkDataReceive d) s (fun q => takes t v p q ∧ others d p q
        ∧ instAt q d n.group n.epoch = some (n.addPart k (if f.flow = 0 then f.off else f.off % 0x1000000) f.payload) ∧ keepsBut [.inbox, .wells] p q)))
    ∧ (p.inbox.find? (closeReady p d) = some v →
      (frameInst p d f = none → Completes (.chunkCloseReceive d) s (fun q => takes (closeReady p d) v p q ∧ gains 1 p q (.well d) 0x140
        ∧ hasEvent q (.well d) 25 ∧ keepsBut [.inbox, .regs, .blocks, .alerts] p q))
      ∧ (∀ x g, frameInst p d f = some x → grpOf p d x.group = some g → let y := (x.inOf k).getD ⟨k, [], none, false, false⟩
        let st := closeStatus p x g f y
        y.closed = none →
          (k.dst = 0 ∨ x.concluded = false → Completes (.chunkCloseReceive d) s (fun q => (∃ z, instAt q d x.group x.epoch = some z
              ∧ z.closedOf k = some (if st = Status.done then BitVec.ofNat 16 (leField f.payload 12 2) else st))
            ∧ (st = Status.collectiveMissing → hasEvent q (.well d) 18 ∧ gains 1 p q (.well d) 0x130)
            ∧ (st = Status.collectiveDiverged → hasEvent q (.well d) 19 ∧ gains 1 p q (.well d) 0x138)
            ∧ (st = Status.done → gains 1 p q (.well d) 0x110)))
          ∧ (k.dst = 0 → Completes (.chunkCloseReceive d) s (fun q => (block q (.well d)).tin = (block p (.well d)).tin + 1
            ∧ (block q (.well d)).tout = (block p (.well d)).tout + 1 ∧ others d p q
            ∧ (f.flow = 0 → q.inbox = dropFirst (closeReady p d) p.inbox ++ [⟨injDie f.inj, respFrame p f st [] 0, none, p.count, none⟩])
            ∧ (f.flow ≠ 0 → takes (closeReady p d) v p q ∧ answers p q d f st [] 0) ∧ keepsBut [.inbox, .routers, .wells, .regs, .blocks, .alerts] p q)))))
  ∧ (∀ (s : State) (d : Fin 4) (x : Instance_) (o : ChunkOut), let p := s.pkg
    let ends (st : Status) (q : Pkg) : Prop := puts [.item (.well d) o.seq.toNat st] p q ∧ (Status.cls st ≠ 0 → hasEvent q (.well d) 17)
      ∧ (block q (.well d)).tout = (block p (.well d)).tout + 1 ∧ others d p q
      ∧ (∃ y z, instAt q d x.group x.epoch = some y ∧ z ∈ y.outs ∧ z.key = o.key ∧ z.ended = some st)
    (∀ v, let t := fun x => x.die == d && x.frame.kind == 8 && x.frame.due.toNat / 65536 % 16 == 7
      let f := v.frame
      p.inbox.find? t = some v → (wellOf p d).insts.findSome? (fun x => (x.outs.find? (fun o =>
        o.seq == f.seq && o.chip == f.src && o.ended.isNone && (f.flow != 0 || o.key.dst == f.off))).map (fun o => (x, o))) = some (x, o) →
      Completes (.chunkCloseResponse d) s (fun q => takes t v p q ∧ ends (BitVec.ofNat 16 f.due.toNat) q
        ∧ keepsBut [.inbox, .wells, .blocks, .alerts, .out] p q))
    ∧ (∀ n, (wellOf p d).insts.findSome? (fun x => (x.outs.find? (fun o =>
        o.seq == n && o.ended.isNone && decide (o.deadline.toNat + 65536 < p.bell.toNat))).map (fun o => (x, o))) = some (x, o) →
      Completes (.chunkAckDeadline d n) s (fun q => ends Status.unknownNoAck q ∧ keepsBut [.wells, .blocks, .alerts, .out] p q)))
  ∧ (∀ (s : State) (d : Fin 4) (c : Nat) (x : Instance_) (rest : List Instance_) (g : Grp) (v : List Byte × Bool × Bool × Status), let p := s.pkg
    let f := Map.getD x.folds (0, c) ⟨0, [], false, false, Status.done⟩
    (wellOf p d).insts = x :: rest → grpOf p d x.group = some g → x.coll = 1 ∨ x.coll = 2 → c < x.chunks g → homeDie p d g c = d → f.next < g.n 0 →
    contribution x g 0 c f.next = some v →
      Completes (.chunkFoldDone d c) s (fun q => (∃ y, instAt q d x.group x.epoch = some y
          ∧ Map.look y.folds (0, c) = some (f.take x.cfmt (chunkLen g x.elems c) v.1 v.2.1 v.2.2.1 v.2.2.2))
        ∧ (x.passThru = false → gains (if Status.cls v.2.2.2 = 0 then 1 else 0) p q (.well d) 0x118
            ∧ (block q (.well d)).tout = (block p (.well d)).tout + 1 ∧ others d p q ∧ keepsBut [.wells, .regs, .blocks] p q)
        ∧ (x.passThru = true → g.n 0 ≤ f.next + 1 → hasEvent q (.well d) 16)))
  ∧ (∀ (s : State) (d : Fin 4) (x : Instance_) (g : Grp), let p := s.pkg
    (wellOf p d).insts = [x] → grpOf p d x.group = some g →
      (∀ c, (∀ k, p.bell.toNat ≤ (keyDeadline x g k).toNat) → Completes (.stageDeadline d c) s (keepsBut [] p))
      ∧ (∀ c, x.concluded = false → Completes (.stageDeadline d c) s (fun q => ∀ k, k ∈ unitExpects p d x g c → (keyDeadline x g k).toNat < p.bell.toNat →
          (∃ y, instAt q d x.group x.epoch = some y ∧ (y.closedOf k).isSome = true) ∧ ((x.closedOf k).isSome = false → hasEvent q (.well d) 18)))
      ∧ (∀ c, x.contribs = [] → Completes (.stageDeadline d c) s (keepsBut [.wells, .regs, .blocks, .alerts] p))
      ∧ (x.concluded = true ∨ p.bell.toNat ≤ x.start.toNat + g.tally → Completes (.tallyDeadline d) s (keepsBut [] p))
      ∧ (x.concluded = false → x.start.toNat + g.tally < p.bell.toNat → (∃ k, k ∈ x.contribs ∧ k.gone = false) →
          Completes (.tallyDeadline d) s (fun q => hasEvent q (.well d) 18 ∧ gains 1 p q (.well d) 0x130 ∧ (∃ y, instAt q d x.group x.epoch = some y
            ∧ y.concluded = true ∧ y.claim = 0 ∧ ∀ k, k ∈ y.contribs → k.final.isSome = true) ∧ others d p q
            ∧ keepsBut [.wells, .regs, .blocks, .alerts, .mem, .poison, .lost, .mills] p q)))
  ∧ (∀ (s : State) (d : Fin 4) (v : Delivered) (x : Instance_) (g : Grp), let p := s.pkg
    let b := v.frame.payload
    let t := fun x => controlAt d 3 x && (instAt p d (ctlGroup x.frame.payload) (ctlEpoch x.frame.payload)).isSome
    let r : Report := ⟨ctlStage b, ctlRank b, BitVec.ofNat 64 (leField b 16 8), BitVec.ofNat 16 (leField b 12 2)⟩
    let y := { x with reports := x.reports ++ [r] }
    instAt p d (ctlGroup b) (ctlEpoch b) = some x → grpOf p d (ctlGroup b) = some g →
      (p.inbox.find? t = some v → (∀ e z k, z ∈ (wellOf p e).insts → k ∈ z.contribs → k.reported = true) →
        ((∃ z, z ∈ x.reports ∧ z.stage = r.stage ∧ z.rank = r.rank) → Completes (.digestReceive d) s (fun q => takes t v p q ∧ keepsBut [.inbox] p q))
        ∧ ((∀ z, z ∈ x.reports → ¬(z.stage = r.stage ∧ z.rank = r.rank)) → combined y g r.stage = none →
          Completes (.digestReceive d) s (fun q => takes t v p q ∧ instAt q d x.group x.epoch = some y ∧ others d p q ∧ keepsBut [.inbox, .wells] p q))
        ∧ (∀ dg st, (∀ z, z ∈ x.reports → ¬(z.stage = r.stage ∧ z.rank = r.rank)) → combined y g r.stage = some (dg, st) → r.stage = g.last →
          Completes (.digestReceive d) s (fun q => ∀ n, n < g.n 0 → ∃ z, z ∈ q.inbox ∧ z.die = rankDie p d g n
            ∧ z.frame.payload = controlPayload 4 1 0 x.group 0x3FF false (verdictOf st) x.epoch 0 0 st 0)))
      ∧ (p.inbox.find? (controlAt d 4) = some v → let pass := (leField b 2 2).testBit 11
        (ctlStage b = 0 → x.concluded = true → Completes (.verdictReceive d) s (fun q => takes (controlAt d 4) v p q ∧ keepsBut [.inbox] p q))
        ∧ (ctlStage b = 0 → x.concluded = false → (∃ k, k ∈ x.contribs ∧ k.gone = false) → Completes (.verdictReceive d) s (fun q =>
          takes (controlAt d 4) v p q ∧ hasEvent q (.well d) 21 ∧ getReg q (.well d) 0x098 = x.epoch
          ∧ (pass = false → bit x.word 68 = true → hasEvent q (.well d) 20 ∧ getReg q (.well d) 0x090 = x.epoch)
          ∧ (∃ y, instAt q d x.group x.epoch = some y ∧ y.concluded = true
            ∧ ∀ k, k ∈ y.contribs → k.final.isSome = true ∧ (pass = false → (∃ j, j ∈ x.contribs ∧ j.inst = k.inst ∧ j.final.isSome = true)
                ∨ k.final = some Status.collectiveDiverged)
              ∧ (pass = true → (∃ j, j ∈ x.contribs ∧ j.inst = k.inst ∧ j.final.isSome = true)
                ∨ k.final = some (Status.worst k.worst (if x.cfmt = true ∧ leField b 12 2 = Status.doneWsRange.toNat then Status.doneWsRange else Status.done))))
          ∧ keepsBut [.inbox, .wells, .regs, .blocks, .alerts, .records, .nvPending, .mem, .poison, .lost, .mills] p q))))
  ∧ (∀ (s : State) (d : Fin 4) (x : Instance_) (rest : List Instance_) (g : Grp) (k : Contrib) (ks : List Contrib), let p := s.pkg
    (wellOf p d).insts = x :: rest → grpOf p d x.group = some g → bit x.word 68 = true → x.contribs = k :: ks → k.final = none → k.gone = false →
    x.complete g k.rank = true → k.computed.isSome = true → (k.instr p).isSome = true →
      Completes (.earlyRelease d) s (fun q => (∃ y, instAt q d x.group x.epoch = some y
          ∧ ∀ j, j ∈ y.contribs → j.inst = k.inst → j.final = some (Status.worst Status.doneEarly k.worst) ∧ j.reported = true) ∧ others d p q
        ∧ keepsBut [.wells, .inbox, .mem, .poison, .lost, .mills] p q))
  ∧ (∀ (s : State) (d : Fin 4) (c : Word), stateOf s.pkg (.well d) ≠ .off → let p := s.pkg
    let g := Page.well d
    let a := getReg p g 0x200
    let v := getReg p g 0x204
    let t := bits a 30 29
    (c ≠ ~~~v → Completes (.wellTblWrite d c) s (onlyRaises g evPairErr p))
    ∧ (c = ~~~v → (wellOf p d).insts ≠ [] → Completes (.wellTblWrite d c) s (onlyRaises g 24 p))
    ∧ (c = ~~~v → (wellOf p d).insts = [] → (t = 0 ∧ bits a 11 0 < 2 ^ 9 ∧ (bits a 0 0 = 0 → bits v 25 23 ≠ 7)) ∨ t = 1 ∨ t = 2 →
        Completes (.wellTblWrite d c) s (fun q => (∃ m, entryVal q g t (bits a 11 0) = v &&& m ∧ (t = 2 → m = 0xFFFF03FF#32)
            ∧ (t = 0 → m = if bits a 0 0 = 0 then 0x8F8003FF#32 else 0x00FFFFFF#32)
            ∧ (t = 1 → m = if bits a 1 0 = 0 then 0xFFFFFC00#32 else if bits a 1 0 = 2 then 0x01FFFFFF#32 else 0x00FFFFFF#32)) ∧ entryOk q g t (bits a 11 0) = true
          ∧ (∀ h u j, (h, u, j) ≠ (g, t, bits a 11 0) → getEntry q h u j = getEntry p h u j) ∧ regsBut [(g, 0x200)] p q
          ∧ keepsBut [.regs, .tables, .blocks, .alerts] p q)))

/-- For each of the 36 rows that serve a command packet: where the first packet of the source is no sound command of the row's code the row changes
nothing. Else the packet is accepted and answered once on its path: with the status of the first check of R371 that fails, in the table's order; a replay of a
cached command with the reply kept, CMD_REPLAY counted; with refused.busy while 64 commands run, or while a manifest commit or withdrawal runs and the code
changes state; and in the recovery ROM with refused.offline for a code that it does not run. Nothing else of the package changes then.
COMMAND_BAD_HEADER counts and discards a packet whose hcrc fails, with its event; discards a reply of a code but 0x0041; answers an undefined code with
refused.version or failed.opcode; and leaves any other packet alone. CMD_FRAGMENT_TIMEOUT discards a first frame whose second has not come in 65,536 ticks, with
its count and event, and with no such frame nothing changes. REPLY_CACHE_EXPIRY drops the cache's entries of 1 s and more. -/
def Obligations.PacketsCheckedInOrder : Prop :=
  (∀ (s : State) (i : Instr) (src : CmdSrc) (code : Nat), servesCode i = some (src, code) → let p := s.pkg
    ((∀ pk path, ¬takesCmd p src code pk path) → Completes i s (fun q => keepsBut [] p q))
    ∧ (∀ pk path, takesCmd p src code pk path → let st := packetCheck p pk path
      (st ≠ Status.done → Completes i s (fun q => sendsReply [] p q pk path st (replyBytes p pk path st [] [])
        ∧ q.rv.cache = p.rv.cache ∧ cmdFrame src [] p q ∧ cmdRest [] p q))
      ∧ (∀ c, st = Status.done → cached p (keyOf pk path) = some c → Completes i s (fun q => sendsReply [] p q pk path Status.done c.reply
        ∧ gains 1 p q .reeve 0x120 ∧ q.rv = { p.rv with unsent := q.rv.unsent } ∧ cmdFrame src [] p q
        ∧ regsBut [(.reeve, 0x100), (.reeve, 0x104), (.reeve, 0x108), (.reeve, 0x10C), (.reeve, 0x120), (.reeve, 0x124)] p q))
      ∧ (st = Status.done → cached p (keyOf pk path) = none → 64 ≤ p.rv.runs.length ∨ (changesState code && manifestBusy p) = true →
        Completes i s (fun q => sendsReply [] p q pk path Status.refusedBusy (replyBytes p pk path Status.refusedBusy [] [])
          ∧ q.rv.cache = p.rv.cache ∧ cmdFrame src [] p q ∧ cmdRest [] p q))
      ∧ (passesChecks p pk path → p.boot.stage = .recovery → recoveryRuns code pk.arg2 = false →
        Completes i s (fun q => answered [] p q pk path Status.refusedOffline [] [] ∧ cmdFrame src [] p q ∧ cmdRest [] p q))))
  ∧ (∀ (s : State) (src : CmdSrc), takePacket s.pkg src = none → Completes (.commandBadHeader src) s (fun q => keepsBut [] s.pkg q))
  ∧ (∀ (s : State) (src : CmdSrc) (pk : Packet) (path : Nat) (r : Pkg), let p := s.pkg
    takePacket p src = some (pk, path, r) →
      (pk.hcrcOk = false → Completes (.commandBadHeader src) s (fun q => gains 1 p q .reeve 0x110 ∧ hasEvent q .reeve 19
        ∧ q.inbox = r.inbox ∧ q.pw = r.pw ∧ q.bobs = r.bobs ∧ q.ports = r.ports
        ∧ regsBut [(.reeve, 0x110), (.reeve, 0x114)] p q ∧ keepsBut [.inbox, .pw, .bobs, .ports, .regs, .blocks, .alerts] p q))
      ∧ (pk.hcrcOk = true → pk.flags % 2 = 1 → pk.code ≠ 0x41 → Completes (.commandBadHeader src) s (fun q => q.inbox = r.inbox ∧ q.pw = r.pw
        ∧ q.bobs = r.bobs ∧ q.ports = r.ports ∧ keepsBut [.inbox, .pw, .blocks, .bobs, .ports] p q))
      ∧ (pk.hcrcOk = true → pk.flags % 2 = 0 → cmdForm pk.code = none →
        let st := if pk.version = 2 then Status.failedOpcode else Status.refusedVersion
        Completes (.commandBadHeader src) s (fun q => sendsReply [] p q pk path st (replyBytes p pk path st [] []) ∧ cmdFrame src [] p q ∧ cmdRest [] p q))
      ∧ (pk.hcrcOk = true → (if pk.flags % 2 = 1 then pk.code = 0x41 else (cmdForm pk.code).isSome = true) →
        Completes (.commandBadHeader src) s (fun q => keepsBut [] p q)))
  ∧ (∀ s : State, let p := s.pkg
    let old (x : Delivered) : Bool := carriesPacket x && !x.frame.last && decide (x.at_ + 65536 ≤ p.count)
      && !(p.inbox.any (fun y => followsOn x y && decide (y.at_ < x.at_ + 65536)))
    (p.inbox.find? old = none → Completes .cmdFragmentTimeout s (fun q => keepsBut [] p q))
    ∧ (∀ x, p.inbox.find? old = some x → Completes .cmdFragmentTimeout s (fun q => takes old x p q ∧ gains 1 p q .reeve 0x118 ∧ hasEvent q .reeve 20
      ∧ (∀ n, x.arrival ≠ some n → portOfPkg q n = portOfPkg p n) ∧ (x.slot = none → q.bobs = p.bobs)
      ∧ (∀ k n, x.slot = some (k, n) → Map.look (bobOf q (.gateway k)).slots n = none ∧ (∀ b, b ≠ .gateway k → bobOf q b = bobOf p b))
      ∧ regsBut [(.reeve, 0x118), (.reeve, 0x11C)] p q ∧ keepsBut [.inbox, .regs, .blocks, .alerts, .ports, .bobs] p q)))
  ∧ (∀ s : State, let p := s.pkg
    Completes .replyCacheExpiry s (fun q => q.rv = { p.rv with cache := q.rv.cache }
      ∧ (∀ c, c ∈ q.rv.cache ↔ c ∈ p.rv.cache ∧ p.count < c.at_ + 1000000000) ∧ keepsBut [.rv] p q))

/-- A command that passes R371's checks and is run is answered once: IDENTIFY with PART_ID, DRT.CHIP, REEVE_STATUS and the Caselm version; TELEMETRY with 8
bytes for each of up to 256 ids (32 over I3C) and the snapshot's time; EVENT_READ with up to 32 records from a sequence on, of the ring or the non-volatile area, and
the next sequence; IMAGE_INFO with the running or the flash header; ATTEST_READ with up to 2,048 bytes of a report not older than 10 s; CERT_READ with a part of
certificate 0 to 3. IMAGE_BEGIN of at most 5,260,192 bytes opens staging, IMAGE_DATA and UNLOCK_DATA stage bytes within it. DEBUG_CHALLENGE keeps and sends 32
fresh bytes; ATTEST of a 32-byte nonce with the Alias RSA key and fewer than two reports under way adds a report under a new handle and sends its length and handle,
and is refused.busy otherwise. Operands out of range end failed.format with nothing else changed. Which figure of the latest snapshot a
telemetry item names, challenge bytes, signatures and certificates are free values (log entries 21 and 24). -/
def Obligations.PacketReadsAndStaging : Prop :=
  ∀ (s : State) (src : CmdSrc) (pk : Packet) (path : Nat), let p := s.pkg
    let ran (i : Instr) (st : Status) (args : List Nat) (payload : List Byte) (l : List Part) (P : Pkg → Prop) : Prop :=
      Completes i s (fun q => answered [] p q pk path st args payload ∧ cmdFrame src l p q ∧ cmdRest [] p q ∧ P q)
    let bad (i : Instr) : Prop := ran i Status.failedFormat [] [] [] (fun _ => True)
    let free (n : Nat) : List Byte := (List.range n).map (fun i => Config.freeByte (p.free + i))
    (runsCmd p src 0x01 pk path → ran (.identify src) Status.done
      [(getReg p .fuse 0x080).toNat + 2 ^ 32 * (chipReg p).toNat, (reeveStatus p).toNat, (getReg p .reeve 0x084).toNat] [] [] (fun _ => True))
    ∧ (runsCmd p src 0x02 pk path → let n := pk.payload.length / 4
      let ok := pk.payload.length % 4 = 0 ∧ n ≤ if path = 2 then 32 else 256
      (ok → ran (.telemetry src) Status.done [p.rv.snapshot.toNat] (teleValues p pk.payload n) [] (fun _ => True))
      ∧ (¬ok → bad (.telemetry src)))
    ∧ (runsCmd p src 0x03 pk path → let ok := 1 ≤ pk.arg1 ∧ pk.arg1 ≤ 32 ∧ pk.arg2 ≤ 1
      let rs := ((if pk.arg2 = 0 then p.records else p.nvRecords).filter (fun r => decide (pk.arg0 ≤ r.seq.toNat))).take pk.arg1
      (ok → ran (.eventRead src) Status.done [match rs.getLast? with | some r => r.seq.toNat + 1 | none => pk.arg0] (rs.flatMap recordBytesOf) [] (fun _ => True))
      ∧ (¬ok → bad (.eventRead src)))
    ∧ (runsCmd p src 0x10 pk path →
      (pk.arg0 ≤ 5260192 → ran (.imageBegin src) Status.done [] [] [.boot] (fun q => q.boot = { p.boot with staging := some ⟨pk.arg0, 0, [], []⟩ }))
      ∧ (5260192 < pk.arg0 → bad (.imageBegin src)))
    ∧ (runsCmd p src 0x11 pk path →
      (∀ x, p.boot.staging = some x → pk.arg0 + pk.payload.length ≤ x.total → ran (.imageData src) Status.done [] [] [.boot] (fun q =>
        q.boot = { p.boot with staging := some { x with written := x.written ++ [(pk.arg0, pk.payload.length)], bytes := (pk.arg0, pk.payload) :: x.bytes } }))
      ∧ ((∀ x, p.boot.staging = some x → x.total < pk.arg0 + pk.payload.length) → bad (.imageData src)))
    ∧ (runsCmd p src 0x13 pk path →
      (pk.arg0 = 0 → ran (.imageInfo src) Status.done [] p.boot.header [] (fun _ => True))
      ∧ (pk.arg0 = 1 → ran (.imageInfo src) Status.done [] (flashHeader p) [] (fun _ => True))
      ∧ (1 < pk.arg0 → bad (.imageInfo src)))
    ∧ (runsCmd p src 0x15 pk path → let live := p.boot.reports.find? (fun r => r.handle == pk.arg0 && decide (p.count < r.at_ + 10000000000))
      (∀ r, live = some r → ran (.attestRead src) Status.done [] ((r.bytes.drop pk.arg1).take 2048) [] (fun _ => True))
      ∧ (live = none → bad (.attestRead src)))
    ∧ (runsCmd p src 0x19 pk path →
      (pk.arg0 ≤ 3 → ran (.certRead src) Status.done [] ((List.range (min 2048 (Config.certLen pk.arg0 - pk.arg1))).map (fun i =>
        Config.certByte pk.arg0 (if pk.arg0 < 2 then 0 else p.boots.toNat) (pk.arg1 + i))) [] (fun _ => True))
      ∧ (3 < pk.arg0 → bad (.certRead src)))
    ∧ (runsCmd p src 0x17 pk path →
      (pk.arg0 + pk.payload.length ≤ 17312 → ran (.unlockData src) Status.done [] [] [.boot] (fun q =>
        q.boot.token.total = 17312 ∧ q.boot.token.written = p.boot.token.written ++ [(pk.arg0, pk.payload.length)]
        ∧ q.boot.token.bytes = (pk.arg0, pk.payload) :: p.boot.token.bytes ∧ q.boot = { p.boot with token := q.boot.token }))
      ∧ (17312 < pk.arg0 + pk.payload.length → bad (.unlockData src)))
    ∧ (runsCmd p src 0x16 pk path → ran (.debugChallenge src) Status.done [] (free 32) [.boot, .free] (fun q =>
        q.boot = { p.boot with challenge := some (free 32, p.count) } ∧ q.free = p.free + 32))
    ∧ (runsCmd p src 0x14 pk path → let h := p.boot.nextHandle
      let room := p.boot.aliasRsa = true ∧ (p.boot.reports.filter (fun r => decide (p.count < r.at_ + 300000000))).length < 2
      (pk.payload.length = 32 → room → Completes (.attest src) s (fun q => answered [.item .sec h Status.done] p q pk path Status.done [16928, h] []
        ∧ q.boot = { p.boot with reports := p.boot.reports ++ [⟨h, reportHead p pk.payload ++ free 16608, p.count⟩], nextHandle := h + 1 }
        ∧ q.free = p.free + 16608 ∧ (block q .sec).tin = (block p .sec).tin + 1 ∧ (block q .sec).tout = (block p .sec).tout + 1
        ∧ cmdFrame src [.boot, .free] p q ∧ cmdRest [.sec] p q))
      ∧ (pk.payload.length = 32 → ¬room → ran (.attest src) Status.refusedBusy [] [] [] (fun _ => True))
      ∧ (pk.payload.length ≠ 32 → bad (.attest src)))

/-- RESET_RELEASE of a held package starts the Hearth ROM, samples the straps, raises EN_HUB and notes a failed memory check. RECOVERY_ROM_START with HD
powered, or after a watchdog restart, closes the UDS: a flash image that passes R439 is booted, and else the ROM keeps control with the failed check, its event and
FAULT_N. CASELM_HANDOVER of a booting package starts Caselm: boot count, boot record with the cause, watchdog record, reloaded tables. In any other stage these three
change nothing. ALIAS_RSA_READY under Caselm gives SEC the key. UNLOCK_EXPIRY at the end of an unlock relocks with its event, ends a margin run and frees every halt.
IMAGE_COMMIT of a whole staged image that passes R439 puts it in the slot, takes the svn with arg0[0] and the revocations, and answers done; with arg0[1], or in the
recovery ROM, it resets the package, the image kept; nothing staged or a part of it ends failed.format, a failing check its status, and two bad writes failed.crc
with the slot lost. UNLOCK_COMMIT uses up the challenge and the token; of a token that passes it grants the scope for its duration, but no scope with bit 0, 2 or 4
while a manifest is in force. The signature outcomes, the read-back failures and the self-checks are operands. -/
def Obligations.BootImagesAndUnlocks : Prop :=
  (∀ (s : State) (sel : Bool) (addr : BitVec 3) (ok : Bool), let p := s.pkg
    let tap := (p.dbg.ir = 3 ∨ p.dbg.ir = 4 ∨ p.dbg.ir = 5) ∧ p.boot.scope.testBit 5 = false
    (p.boot.stage = .held → Completes (.resetRelease sel addr ok) s (fun q => q.boot = { p.boot with stage := .hearth, at_ := p.count }
      ∧ q.pw = { p.pw with memFail := !ok } ∧ q.pins.en = Map.put p.pins.en .hub p.count ∧ q.pins.mgmtSel = sel ∧ q.pins.addr = addr.toNat
      ∧ (ok = true → ¬tap → q.rg = p.rg) ∧ (ok = false → hasEvent q .hrth 16) ∧ keepsBut [.boot, .pw, .pins, .blocks, .alerts, .dbg] p q
      ∧ q.dbg = (if tap then { p.dbg with ir := 0xFF } else p.dbg) ∧ (tap → hasEvent q .dbg 18)))
    ∧ (p.boot.stage ≠ .held → Completes (.resetRelease sel addr ok) s (fun q => keepsBut [] p q)))
  ∧ (∀ (s : State) (c : SigChecks) (readable octal : Bool), let p := s.pkg
    let ready := p.boot.stage = .rom ∨ (p.boot.stage = .hearth ∧ p.pins.good.contains .hub = true)
    let k := (flashCheck p c readable).1
    let st := (flashCheck p c readable).2
    (ready → st = Status.done → Completes (.recoveryRomStart c readable octal) s (fun q => q.boot = { p.boot with stage := .booting, header := flashHeader p, octal := octal, udsOpen := false, lastCheck := k, lastStatus := st, at_ := p.count }
      ∧ puts [.item .sec k st] p q ∧ keepsBut [.boot, .blocks, .out] p q))
    ∧ (ready → st ≠ Status.done → Completes (.recoveryRomStart c readable octal) s (fun q => q.boot = { p.boot with stage := .recovery, octal := octal, udsOpen := false, lastCheck := k, lastStatus := st, at_ := p.count }
      ∧ puts [.item .sec k st] p q ∧ hasEvent q .sec (if st = Status.refusedRollback then 17 else 16) ∧ q.pins.fault = true
      ∧ keepsBut [.boot, .blocks, .out, .alerts, .regs, .records, .nvPending] p q))
    ∧ (¬ready → Completes (.recoveryRomStart c readable octal) s (fun q => keepsBut [] p q)))
  ∧ (∀ (s : State) (reload : List (Page × Nat × Nat × Word)) (failed : List Nat), let p := s.pkg
    (p.boot.stage = .booting → Completes (.caselmHandover reload failed) s (fun q => q.boots = p.boots + 1
      ∧ q.boot = { p.boot with stage := .caselm, at_ := p.count, aliasRsa := false } ∧ q.rv = { p.rv with wdogAt := p.count, snapAt := p.count }
      ∧ q.pw = { p.pw with trips := p.pw.trips.filter (· != 4) }
      ∧ (p.boot.flash.isSome = true → getReg q .reeve 0x084 = BitVec.ofNat 32 (leField p.boot.header 8 4))
      ∧ (∃ r, r ∈ q.nvPending ∧ r.type = 0 ∧ r.code = 0x0100 ∧ r.detail = [p.boot.cause, p.boot.count])
      ∧ (p.boot.cause = 0x05 → ∃ r, r ∈ q.nvPending ∧ r.type = 3 ∧ r.code = 16)
      ∧ (∀ g t i v, reload = [(g, t, i, v)] → getEntry q g t i = (v, ~~~v))
      ∧ (∀ g t i, (∀ v, (g, t, i, v) ∉ reload) → getEntry q g t i = getEntry p g t i)
      ∧ keepsBut [.boots, .boot, .rv, .pw, .regs, .blocks, .alerts, .records, .nvPending, .tables] p q))
    ∧ (p.boot.stage ≠ .booting → Completes (.caselmHandover reload failed) s (fun q => keepsBut [] p q)))
  ∧ (∀ s : State, let p := s.pkg
    (p.boot.stage = .caselm → Completes .aliasRsaReady s (fun q => q.boot = { p.boot with aliasRsa := true } ∧ keepsBut [.boot] p q))
    ∧ (p.boot.stage ≠ .caselm → Completes .aliasRsaReady s (fun q => keepsBut [] p q)))
  ∧ (∀ s : State, let p := s.pkg
    (∀ t, p.boot.unlockAt = some t → t ≤ p.count → Completes .unlockExpiry s (fun q => q.boot = { p.boot with scope := 0, unlockAt := none }
      ∧ hasEvent q .sec 19 ∧ q.dbg.halted = [] ∧ q.dbg.margin = none
      ∧ ((p.dbg.ir = 3 ∨ p.dbg.ir = 4 ∨ p.dbg.ir = 5) → p.boot.stage ≠ .held → q.dbg.ir = 0xFF ∧ hasEvent q .dbg 18)
      ∧ (p.dbg.margin = none → (∀ b, b < 4 → bit (getReg q .dbg (0x0A0 + 8 * b)) 31 = false) ∧ (∀ c, c ∈ q.ctxs → c.2.halted = false)
          ∧ keepsBut [.boot, .regs, .ctxs, .dbg, .rv, .blocks, .alerts] p q)))
    ∧ ((∀ t, p.boot.unlockAt = some t → p.count < t) → Completes .unlockExpiry s (fun q => keepsBut [] p q)))
  ∧ (∀ (s : State) (src : CmdSrc) (pk : Packet) (path : Nat) (c : SigChecks) (tries : Fin 3), let p := s.pkg
    let cmd := Instr.imageCommit src c tries
    let resets := pk.arg0.testBit 1 = true
    let bad (st : Status) : Prop := Completes cmd s (fun q => answered [] p q pk path st [] [] ∧ cmdFrame src [] p q ∧ cmdRest [] p q)
    runsCmd p src 0x12 pk path →
      (p.boot.staging = none → bad Status.failedFormat)
      ∧ (∀ x, p.boot.staging = some x → resets → p.serving = true → bad Status.refusedBusy)
      ∧ (∀ x, p.boot.staging = some x → ¬(resets ∧ p.serving = true) → x.whole = false → bad Status.failedFormat)
      ∧ (∀ x n st, p.boot.staging = some x → ¬(resets ∧ p.serving = true) → x.whole = true → imageCheck p x.all c = (n, st) →
        (st ≠ Status.done → Completes cmd s (fun q => answered [.item .sec n st] p q pk path st [] [] ∧ q.boot = { p.boot with lastStatus := st }
          ∧ hasEvent q .sec (if st = Status.refusedRollback then 17 else 16) ∧ cmdFrame src [.boot, .alerts] p q ∧ cmdRest [.sec] p q))
        ∧ (st = Status.done → tries = 2 → Completes cmd s (fun q => answered [.item .sec n st] p q pk path Status.failedCrc [] []
          ∧ q.boot = { p.boot with lastStatus := st, flash := some [] } ∧ cmdFrame src [.boot] p q ∧ cmdRest [.sec] p q))
        ∧ (st = Status.done → tries ≠ 2 → ¬resets → p.boot.stage = .caselm → Completes cmd s (fun q =>
          answered [.item .sec n st] p q pk path Status.done [] [] ∧ q.boot.flash = some x.all ∧ q.boot.staging = none
          ∧ q.boot.counter = (if pk.arg0.testBit 0 = true then max p.boot.counter (leField x.all 12 1) else p.boot.counter)
          ∧ (∀ k, k ∈ q.boot.revoked ↔ k ∈ p.boot.revoked ∨ (leField x.all 13 1 = 1 ∧ k < leField x.all 7 1))
          ∧ (∃ r, r ∈ q.nvPending ∧ r.code = 0x0122 ∧ r.detail = [leField x.all 8 4])
          ∧ cmdFrame src [.boot, .alerts, .records, .nvPending] p q))
        ∧ (st = Status.done → tries ≠ 2 → resets ∨ p.boot.stage = .recovery → Completes cmd s (fun q =>
          q.boot.stage = .held ∧ q.boot.cause = 0x08 ∧ q.boot.flash = some x.all ∧ q.boot.count = min 65535 (p.boot.count + 1) ∧ q.serving = false
          ∧ puts ([.item .sec n st, .item .reeve 0x12 Status.done]
              ++ (if path = 0 then [] else [.packet path (replyBytes p pk path Status.done [] [])])) p q))))
  ∧ (∀ (s : State) (src : CmdSrc) (pk : Packet) (path : Nat) (c : SigChecks), let p := s.pkg
    let cmd := Instr.unlockCommit src c
    let b := p.boot.token.all
    let whole := p.boot.token.whole = true ∧ p.boot.token.total = 17312
    let scope := leField b 88 2
    let guarded := p.serving = true ∧ (scope.testBit 0 = true ∨ scope.testBit 2 = true ∨ scope.testBit 4 = true)
    let spent (st : Status) : Boot := { p.boot with challenge := none, token := ⟨0, 0, [], []⟩, lastStatus := st }
    runsCmd p src 0x18 pk path →
      (∀ n st, (if p.boot.token.whole && p.boot.token.total == 17312 then tokenCheck p b c else (1, Status.failedFormat)) = (n, st) → st ≠ Status.done →
        Completes cmd s (fun q => answered [.item .sec n st] p q pk path st [] [] ∧ q.boot = spent st ∧ hasEvent q .sec 16
          ∧ cmdFrame src [.boot, .alerts] p q ∧ cmdRest [.sec] p q))
      ∧ (∀ n, whole → tokenCheck p b c = (n, Status.done) → guarded → Completes cmd s (fun q =>
        answered [.item .sec n Status.done] p q pk path Status.refusedBusy [] [] ∧ q.boot = spent Status.done ∧ cmdFrame src [.boot] p q ∧ cmdRest [.sec] p q))
      ∧ (∀ n, whole → tokenCheck p b c = (n, Status.done) → ¬guarded → let ticks := leField b 92 4 * 1000000000
        Completes cmd s (fun q => answered [.item .sec n Status.done] p q pk path Status.done [scope] []
          ∧ q.boot = { (spent Status.done) with scope := scope, ever := p.boot.ever ||| scope, unlockAt := some (p.count + ticks), unlockEnd := p.bell + BitVec.ofNat 64 ticks }
          ∧ hasEvent q .sec 18 ∧ (∃ r, r ∈ q.nvPending ∧ r.type = 2 ∧ r.code = 18 ∧ r.detail = [scope])
          ∧ q.dbg = (if (p.dbg.ir = 3 ∨ p.dbg.ir = 4 ∨ p.dbg.ir = 5) ∧ p.boot.stage ≠ .held ∧ scope.testBit 5 = false then { p.dbg with ir := 0xFF } else p.dbg)
          ∧ cmdFrame src [.boot, .alerts, .records, .nvPending, .dbg] p q)))

/-- MANIFEST_BEGIN of at most 64 MiB opens staging; MANIFEST_DATA lands its bytes in Caselm's region within the announced total and notes the range, and ends
failed.format outside it or with nothing staged, refused.offline where the gateway bobbin is not ENABLED. MANIFEST_COMMIT with a manifest in force is refused.busy; where
no margin run and no withdrawable scope stands in its way, it ends failed.manifest with the first failing check and its section, or applies the manifest: the job is
in force in phase 0, serving, and the commit runs until its swap; where the swap cannot be armed the job is dropped with check 5. MANIFEST_WITHDRAW stops every
context, takes the wells, the bobbins and the mills out of ENABLED, ends a phase change and a waiting start, and runs on. START at least 4 rounds ahead runs on until
its round; nearer it ends failed.format, once started or waiting refused.busy, and after a quarantine without an admission refused.sampler. What the
sections say is an operand (log entry 22). -/
def Obligations.ManifestsCommitWithdrawAndStart : Prop :=
  ∀ (s : State) (src : CmdSrc) (pk : Packet) (path : Nat), let p := s.pkg
    let turned (i : Instr) (st : Status) : Prop := Completes i s (fun q => answered [] p q pk path st [] [] ∧ cmdFrame src [] p q ∧ cmdRest [] p q)
    (runsCmd p src 0x20 pk path →
      (pk.arg0 ≤ 2 ^ 26 → Completes (.manifestBegin src) s (fun q => answered [] p q pk path Status.done [] []
        ∧ q.rv = { p.rv with cache := q.rv.cache, unsent := q.rv.unsent, staging := some ⟨pk.arg0, pk.arg1, [], []⟩ } ∧ cmdFrame src [] p q ∧ cmdRegs [] p q))
      ∧ (2 ^ 26 < pk.arg0 → turned (.manifestBegin src) Status.failedFormat))
    ∧ (runsCmd p src 0x21 pk path → let a := caselmBase + pk.arg0
      (p.rv.staging = none → turned (.manifestData src) Status.failedFormat)
      ∧ (∀ x, p.rv.staging = some x → x.total < pk.arg0 + pk.payload.length → turned (.manifestData src) Status.failedFormat)
      ∧ (∀ x, p.rv.staging = some x → pk.arg0 + pk.payload.length ≤ x.total → enabled p (.bob (.gateway pk.gateway)) = false → turned (.manifestData src) Status.refusedOffline)
      ∧ (∀ x, p.rv.staging = some x → pk.arg0 + pk.payload.length ≤ x.total → mayLand p pk a pk.payload →
        Completes (.manifestData src) s (fun q => answered [] p q pk path Status.done [] [] ∧ landed p q pk a pk.payload
          ∧ q.rv = { p.rv with cache := q.rv.cache, unsent := q.rv.unsent, staging := some { x with written := x.written ++ [(pk.arg0, pk.payload.length)] } }
          ∧ cmdFrame src [.mem, .poison, .lost, .mills] p q)))
    ∧ (∀ (m : Manifest) (fails : Option Nat), runsCmd p src 0x22 pk path → let p0 := { p with rv := { p.rv with moves := [] } }
      let clear := p.dbg.margin = none ∧ p.boot.scope &&& 0x15 = 0
      (p.rv.job.isSome = true → turned (.manifestCommit src m fails) Status.refusedBusy)
      ∧ (p.rv.job = none → clear → p.rv.staging = none → Completes (.manifestCommit src m fails) s (fun q =>
          answered [] p q pk path Status.failedManifest [1, 0] [] ∧ cmdFrame src [] p q ∧ cmdRest [] p q))
      ∧ (∀ x c n, p.rv.job = none → clear → p.rv.staging = some x → manifestCheck p0 x m fails = some (c, n) →
          Completes (.manifestCommit src m fails) s (fun q => answered [] p q pk path Status.failedManifest [c, n] []
            ∧ q.rv = { p0.rv with cache := q.rv.cache, unsent := q.rv.unsent } ∧ cmdFrame src [] p q ∧ cmdRegs [] p q))
      ∧ (∀ x, p.rv.job = none → clear → p.rv.staging = some x → manifestCheck p0 x m fails = none → let round := if pk.arg0 = 0 then roundNow p + 4 else pk.arg0
          Completes (.manifestCommit src m fails) s (fun q =>
            (q.serving = true ∧ q.rv.job = some (inForceOf p0 m) ∧ q.rv.phase = 0 ∧ q.rv.commitRound = some round ∧ q.rv.started = false ∧ q.rv.requests = []
              ∧ q.rv.runs = p.rv.runs ++ [runOf p pk path])
            ∨ (q.serving = false ∧ q.rv.job = none ∧ q.rv.commitRound = none ∧ q.rv.runs = p.rv.runs ∧ Out.item .reeve 0x22 Status.failedManifest ∈ q.out))))
    ∧ (runsCmd p src 0x23 pk path → Completes (.manifestWithdraw src) s (fun q =>
        q.rv.withdrawAt = some p.count ∧ q.rv.started = false ∧ q.rv.change = none ∧ q.rv.sampler = none ∧ q.rv.job = p.rv.job ∧ q.serving = p.serving
        ∧ q.rv.runs = p.rv.runs.filter (fun r => !(r.code == 0x50 || r.code == 0x24)) ++ [runOf p pk path]
        ∧ (∀ c, (ctxOf q c).state ≠ .running ∧ (ctxOf q c).state ≠ .waiting) ∧ (∀ g, g ∈ drainedPages → enabled q g = false)))
    ∧ (∀ j, runsCmd p src 0x24 pk path → p.rv.job = some j →
      (samplerHold p j.tag = true → turned (.startCmd src) Status.refusedSampler)
      ∧ (samplerHold p j.tag = false → pk.arg0 < roundNow p + 4 → turned (.startCmd src) Status.failedFormat)
      ∧ (samplerHold p j.tag = false → roundNow p + 4 ≤ pk.arg0 → p.rv.started = true ∨ p.rv.runs.any (fun x => x.code == 0x24) = true →
          turned (.startCmd src) Status.refusedBusy)
      ∧ (samplerHold p j.tag = false → roundNow p + 4 ≤ pk.arg0 → p.rv.started = false → p.rv.runs.any (fun x => x.code == 0x24) = false →
          Completes (.startCmd src) s (fun q => q.rv = { p.rv with runs := p.rv.runs ++ [runOf p pk path] } ∧ puts [] p q
            ∧ gains 1 p q .reeve 0x100 ∧ (block q .reeve).tin = (block p .reeve).tin + 1 ∧ (block q .reeve).tout = (block p .reeve).tout
            ∧ cmdFrame src [] p q ∧ cmdRegs [] p q)))

/-- LOAD of whole lines to job DRAM and READ of 64 to 2,048 bytes of it: out of form failed.format, into Caselm's region refused.private, without the
gateway bobbin refused.offline; else the payload lands, and the bytes are sent, done.poisoned with a poisoned line. REQUEST into a ring of the job with a free entry
lands its payload in the next entry, advances the head word and answers the request's sequence; no such ring or too long a payload ends failed.format, a full ring
refused.full. RESULT_ACK as a reply closes the result it names, the last one finishing its request; as a command it ends failed.opcode; any other packet is left.
LEDGER_QUERY answers the entry of the first die that holds the key, or none. FENCE fences a chip in slice that is neither fenced nor its own, and is answered done in
any case. MAINT_RESET with no manifest answers, fuses the spares in and resets the package with cause 0x4; with one it is refused.busy. -/
def Obligations.JobDataQueriesAndMaintenance : Prop :=
  ∀ (s : State) (src : CmdSrc) (pk : Packet) (path : Nat), let p := s.pkg
    let k := keyOf pk path
    let turned (i : Instr) (st : Status) : Prop := Completes i s (fun q => answered [] p q pk path st [] [] ∧ cmdFrame src [] p q ∧ cmdRest [] p q)
    (runsCmd p src 0x30 pk path → let n := pk.payload.length
      let form := pk.arg0 % 64 = 0 ∧ 0 < n ∧ n % 64 = 0 ∧ inDram pk.arg0 = true
      (¬form → turned (.loadCmd src) Status.failedFormat)
      ∧ (form → reachesCaselm pk.arg0 n = true → turned (.loadCmd src) Status.refusedPrivate)
      ∧ (form → reachesCaselm pk.arg0 n = false → enabled p (.bob (.gateway pk.gateway)) = false → turned (.loadCmd src) Status.refusedOffline)
      ∧ (form → reachesCaselm pk.arg0 n = false → mayLand p pk pk.arg0 pk.payload → Completes (.loadCmd src) s (fun q =>
          answered [] p q pk path Status.done [] [] ∧ landed p q pk pk.arg0 pk.payload ∧ q.rv = { p.rv with cache := q.rv.cache, unsent := q.rv.unsent }
          ∧ cmdFrame src [.mem, .poison, .lost, .mills] p q)))
    ∧ (runsCmd p src 0x31 pk path → let form := 64 ≤ pk.arg1 ∧ pk.arg1 ≤ 2048 ∧ inDram pk.arg0 = true
      (¬form → turned (.readCmd src) Status.failedFormat)
      ∧ (form → reachesCaselm pk.arg0 pk.arg1 = true → turned (.readCmd src) Status.refusedPrivate)
      ∧ (form → reachesCaselm pk.arg0 pk.arg1 = false → pairOk p (.memc 0) 0x090 = true → (checkAccess p (.reeve 0) pk.arg0 pk.arg1).2 = Status.done →
          Completes (.readCmd src) s (fun q =>
            answered [] p q pk path (if localPoisoned p pk.arg0 pk.arg1 = true then Status.donePoisoned else Status.done) [] (readLocal p pk.arg0 pk.arg1)
            ∧ q.rv = { p.rv with cache := q.rv.cache, unsent := q.rv.unsent } ∧ gains pk.arg1 p q (.memc (dramPlace (mapGib p) pk.arg0).1) 0x138 ∧ cmdFrame src [] p q)))
    ∧ (runsCmd p src 0x40 pk path →
      (jobRing p false pk.arg0 = none → turned (.requestCmd src) Status.failedFormat)
      ∧ (∀ g, jobRing p false pk.arg0 = some g → let n := Map.getD p.rv.accepted g.index 0
        let a := g.base + n % g.count * g.size
        let held := (p.rv.requests.filter (fun r => r.ring == g.index)).length
        (g.size < pk.payload.length → turned (.requestCmd src) Status.failedFormat)
        ∧ (pk.payload.length ≤ g.size → g.count ≤ held → turned (.requestCmd src) Status.refusedFull)
        ∧ (pk.payload.length ≤ g.size → held < g.count → enabled p (.bob (.gateway pk.gateway)) = false → turned (.requestCmd src) Status.refusedOffline)
        ∧ (pk.payload.length ≤ g.size → held < g.count → mayLand p pk a pk.payload → (checkAccess p (.reeve 0) g.head 8).2 = Status.done →
            writeBarred p g.head 8 = false → guestHolds p g.head 8 = false → Completes (.requestCmd src) s (fun q => answered [] p q pk path Status.done [n] []
              ∧ memIs q (writeLocal (writeLocal p a pk.payload noTag) g.head (leBytes 8 (n + 1)) noTag)
              ∧ q.rv = { p.rv with cache := q.rv.cache, unsent := q.rv.unsent, accepted := Map.put p.rv.accepted g.index (n + 1), requests := p.rv.requests ++ [⟨k, g.index, n⟩] }
              ∧ cmdFrame src [.mem, .poison, .lost, .mills] p q))))
    ∧ (runsCmd p src 0x41 pk path → turned (.resultAck src) Status.failedOpcode)
    ∧ (∀ r, takePacket p src = some (pk, path, r) → pk.hcrcOk = true → pk.code = 0x41 → pk.flags % 2 = 1 →
      let mine := p.rv.results.find? (fun r => r.key.path == path && r.key.id == pk.id && r.ring == pk.arg0 && r.seq == pk.arg1)
      (mine = none → Completes (.resultAck src) s (fun q => q.inbox = r.inbox ∧ q.pw = r.pw ∧ q.bobs = r.bobs ∧ q.ports = r.ports
        ∧ keepsBut [.inbox, .pw, .blocks, .bobs, .ports] p q))
      ∧ (∀ x, mine = some x → Completes (.resultAck src) s (fun q => q.inbox = r.inbox ∧ q.pw = r.pw ∧ q.bobs = r.bobs ∧ q.ports = r.ports
          ∧ keepsBut [.inbox, .pw, .blocks, .bobs, .ports, .rv] p q
          ∧ (x.last = false → q.rv = { p.rv with results := p.rv.results.erase x })
          ∧ (x.last = true → q.rv = { p.rv with results := p.rv.results.erase x, finished := p.rv.finished + 1, requests := p.rv.requests.filter (fun y => !(y.ring == x.ring && y.seq == x.seq)) }))))
    ∧ (takePacket p src = none → Completes (.resultAck src) s (fun q => keepsBut [] p q))
    ∧ (∀ r, takePacket p src = some (pk, path, r) → pk.hcrcOk = false ∨ pk.code ≠ 0x41 → Completes (.resultAck src) s (fun q => keepsBut [] p q))
    ∧ (runsCmd p src 0x60 pk path →
      let key (d : Fin 4) : Option LedgerEntry := ledgerLookup p d (BitVec.ofNat 16 pk.arg0) (BitVec.ofNat 16 (pk.arg0 / 65536)) pk.arg1 (BitVec.ofNat 32 pk.arg2)
      let entry (d : Fin 4) : Option LedgerEntry := if stateOf p (.ledg d) = .off then none else key d
      (4 ≤ pk.arg1 → turned (.ledgerQuery src) Status.failedFormat)
      ∧ (∀ d e, pk.arg1 < 4 → (∀ d', d' < d → entry d' = none) → entry d = some e → Completes (.ledgerQuery src) s (fun q =>
          answered [] p q pk path Status.done [1, e.old.toNat, e.status.toNat] [] ∧ q.rv = { p.rv with cache := q.rv.cache, unsent := q.rv.unsent } ∧ cmdFrame src [.alerts] p q))
      ∧ (pk.arg1 < 4 → (∀ d, entry d = none) → Completes (.ledgerQuery src) s (fun q =>
          answered [] p q pk path Status.done [0, 0, 0] [] ∧ q.rv = { p.rv with cache := q.rv.cache, unsent := q.rv.unsent } ∧ cmdFrame src [.alerts] p q)))
    ∧ (runsCmd p src 0x61 pk path → stateOf p hubCmn ≠ .off → let chip : Chip := BitVec.ofNat 16 pk.arg0
      let asks := chipInSlice p chip = true ∧ chip ≠ ownChip p
      (¬asks ∨ fenced p chip = true → turned (.fenceCmd src) Status.done)
      ∧ (asks → fenced p chip = false → p.fences.length < 1024 → Completes (.fenceCmd src) s (fun q => replies p q pk path Status.done [] []
          ∧ q.fences = p.fences ++ [⟨chip, 2, false⟩] ∧ (∀ g, g ∈ cmnPages → hasEvent q g 20)
          ∧ (∀ n, n ∈ portsTo p chip → bit (getReg q (.drt (dieOfPort n)) 0x0A0) (portIdx n) = false))))
    ∧ (runsCmd p src 0x70 pk path →
      (p.rv.job.isSome = true → turned (.maintReset src) Status.refusedBusy)
      ∧ (p.rv.job = none → Completes (.maintReset src) s (fun q => puts ([.item .reeve 0x70 Status.done]
            ++ (if path = 0 then [] else [.packet path (replyBytes p pk path Status.done [] [])])) p q
          ∧ q.boot.stage = .held ∧ q.boot.cause = 0x04 ∧ q.spares = (fuseSpares p).spares ∧ q.retired = p.retired
          ∧ q.rv.withdrawn = [] ∧ q.rv.rejections = [] ∧ q.nvRecords = p.nvRecords ∧ q.boot.flash = p.boot.flash)))

/-- SAMPLER_BEGIN under a job with no sampler makes the candidate join, or at the model sets the pass and enables the ports to the candidate that pass R307; with no
port it ends with reason 6; without a job, with a sampler, after three rejections, or at a third package it ends with the status of the rule. At the candidate STATE, RECORD
and DIGEST take the next sequence only: a gap ends the sampler with reason 1. STATE lands its bytes; RECORD lands in the journal ring, advances its head and ends with reason
5 past sampler_lag; DIGEST counts a clean step, ends with reason 8 after sampler_steps of them, and with reason 2, 3 or 4 on a failure, kept as a rejection. END
of the candidate named ends with reason 7. SAMPLER_REPORT sends the candidate's report after every 64 steps; as a packet it ends failed.opcode. PROMOTE at the
coordinator names the round 8 ahead, ADMIT takes it, and SAMPLER_ADMIT_ROUND at the round clears the fence entry and, at the candidate, the quarantine, with
its record. -/
def Obligations.SamplersJoinJudgeAndAdmit : Prop :=
  let ended (q : Pkg) (reason epoch first : Nat) : Prop := q.rv.sampler = none
    ∧ ∃ r, r ∈ q.nvPending ∧ r.type = 0 ∧ r.code = 0x0118 ∧ r.detail = [reason, epoch, first]
  let admits (p q : Pkg) (chip : Chip) : Prop := q.fences = p.fences.filter (fun f => f.chip != chip) ∧ q.rv.admission = none
    ∧ (chip ≠ ownChip p → q.quarantined = p.quarantined)
    ∧ (chip = ownChip p → q.quarantined = false ∧ (∀ g, stateOf p g = .quarantined → isIn q g .disabled 0x0A)
      ∧ ∃ r, r ∈ q.nvPending ∧ r.type = 0 ∧ r.code = 0x0115 ∧ r.detail = [(getReg p (.drt 0) 0x0B0).toNat, chip.toNat])
  (∀ (s : State) (src : CmdSrc) (pk : Packet) (path : Nat), let p := s.pkg
    let turned (i : Instr) (st : Status) : Prop := Completes i s (fun q => answered [] p q pk path st [] [] ∧ cmdFrame src [] p q ∧ cmdRest [] p q)
    (runsCmd p src 0x71 pk path → let cand : Chip := BitVec.ofNat 16 pk.arg0
      let model : Chip := BitVec.ofNat 16 (pk.arg0 / 65536)
      let new (joins : Bool) : Sampler := ⟨joins, cand, model, pk.arg1, 0, [], 0, pk.arg1, false, 0⟩
      (p.rv.job = none → turned (.samplerBegin src) Status.refusedNoJob)
      ∧ (p.rv.job.isSome = true → p.rv.sampler.isSome = true → turned (.samplerBegin src) Status.refusedBusy)
      ∧ (p.rv.job.isSome = true → p.rv.sampler = none → ownChip p = cand → beginBarred p.rv.rejections = true → turned (.samplerBegin src) Status.refusedBusy)
      ∧ (p.rv.job.isSome = true → p.rv.sampler = none → ownChip p = cand → beginBarred p.rv.rejections = false → Completes (.samplerBegin src) s (fun q =>
          answered [] p q pk path Status.done [] [] ∧ q.rv = { p.rv with cache := q.rv.cache, unsent := q.rv.unsent, sampler := some (new true) } ∧ cmdFrame src [] p q ∧ cmdRegs [] p q))
      ∧ (∀ j n, p.rv.job = some j → p.rv.sampler = none → ownChip p = model → cand ≠ model → n ∈ portsTo p cand → topologyOk p j.sec n = true →
          stateOf p (.drt (dieOfPort n)) ≠ .off → Completes (.samplerBegin src) s (fun q => replies p q pk path Status.done [] []
            ∧ q.rv.sampler = some (new false) ∧ q.fences = p.fences.map (fun e => if e.chip = cand then { e with pass := true } else e)
            ∧ bit (getReg q (.drt (dieOfPort n)) 0x0A0) (portIdx n) = true))
      ∧ (p.rv.job.isSome = true → p.rv.sampler = none → ownChip p = model → cand ≠ model → portsTo p cand = [] → Completes (.samplerBegin src) s (fun q =>
          replies p q pk path Status.done [] [] ∧ ended q 6 pk.arg1 0 ∧ (∀ e, e ∈ q.fences → e.chip = cand → e.pass = false)))
      ∧ (p.rv.job.isSome = true → p.rv.sampler = none → ownChip p ≠ cand → ownChip p ≠ model → turned (.samplerBegin src) Status.failedFormat))
    ∧ ((∀ x, p.rv.sampler = some x → x.joins = false) → (runsCmd p src 0x72 pk path → turned (.samplerState src) Status.failedFormat)
      ∧ (runsCmd p src 0x73 pk path → turned (.samplerRecord src) Status.failedFormat)
      ∧ (∀ own spot, runsCmd p src 0x74 pk path → turned (.samplerDigest src own spot) Status.failedFormat))
    ∧ (∀ x, p.rv.sampler = some x → x.joins = true →
      (runsCmd p src 0x72 pk path → pk.arg1 ≠ x.nextSeq → Completes (.samplerState src) s (fun q => replies p q pk path Status.done [] [] ∧ ended q 1 x.epoch 0))
      ∧ (runsCmd p src 0x72 pk path → pk.arg1 = x.nextSeq → enabled p (.bob (.gateway pk.gateway)) = false →
          Completes (.samplerState src) s (fun q => replies p q pk path Status.refusedOffline [] [] ∧ ended q 1 x.epoch 0))
      ∧ (runsCmd p src 0x72 pk path → pk.arg1 = x.nextSeq → mayLand p pk pk.arg0 pk.payload → Completes (.samplerState src) s (fun q =>
          answered [] p q pk path Status.done [] [] ∧ landed p q pk pk.arg0 pk.payload
          ∧ q.rv = { p.rv with cache := q.rv.cache, unsent := q.rv.unsent, sampler := some { x with nextSeq := x.nextSeq + 1 } } ∧ cmdFrame src [.mem, .poison, .lost, .mills] p q))
      ∧ (runsCmd p src 0x73 pk path → pk.arg1 ≠ x.nextSeq → Completes (.samplerRecord src) s (fun q => replies p q pk path Status.done [] [] ∧ ended q 1 x.epoch 0))
      ∧ (runsCmd p src 0x73 pk path → pk.arg1 = x.nextSeq → journalRing p = none → Completes (.samplerRecord src) s (fun q =>
          replies p q pk path Status.failedFormat [] [] ∧ ended q 1 x.epoch 0))
      ∧ (∀ g, runsCmd p src 0x73 pk path → pk.arg1 = x.nextSeq → journalRing p = some g → let head := leNat (readLocal p g.head 8)
          let a := g.base + (if g.count = 0 then 0 else head % g.count) * g.size
          let l := if x.journal.contains pk.arg0 then x.journal else x.journal ++ [pk.arg0]
          mayLand p pk a (pk.payload.take g.size) → (checkAccess p (.reeve 0) g.head 8).2 = Status.done → writeBarred p g.head 8 = false → guestHolds p g.head 8 = false →
          Completes (.samplerRecord src) s (fun q => replies p q pk path Status.done [] []
            ∧ memIs q (writeLocal (writeLocal p a (pk.payload.take g.size) noTag) g.head (leBytes 8 (head + 1)) noTag)
            ∧ (l.length ≤ policyOf p 0x12 → q.rv.sampler = some { x with nextSeq := x.nextSeq + 1, journal := l })
            ∧ (policyOf p 0x12 < l.length → ended q 5 x.epoch 0)))
      ∧ (∀ own spot, runsCmd p src 0x74 pk path →
          (pk.arg2 ≠ x.nextSeq → Completes (.samplerDigest src own spot) s (fun q => replies p q pk path Status.done [] [] ∧ ended q 1 x.epoch 0))
          ∧ (∀ n, pk.arg2 = x.nextSeq → (∀ e, e ∈ p.rg.blocks → e.2.state = .fault → stateOf p e.1 = .fault) → stepFails p (BitVec.ofNat 64 pk.arg1) own pk.payload spot = some n → Completes (.samplerDigest src own spot) s (fun q =>
              replies p q pk path Status.done [] [] ∧ ended q n pk.arg0 (if n = 4 then firstByteDiff pk.payload spot else 0)
              ∧ q.rv.rejections = p.rv.rejections ++ [p.count]))
          ∧ (pk.arg2 = x.nextSeq → stepFails p (BitVec.ofNat 64 pk.arg1) own pk.payload spot = none → Completes (.samplerDigest src own spot) s (fun q =>
              replies p q pk path Status.done [] [] ∧ q.rv.rejections = p.rv.rejections
              ∧ (policyOf p 0x10 ≤ x.clean + 1 → ended q 8 pk.arg0 0)
              ∧ (x.clean + 1 < policyOf p 0x10 → q.rv.sampler = some { x with nextSeq := x.nextSeq + 1, epoch := pk.arg0, journal := x.journal.filter (fun e => e != pk.arg0), clean := x.clean + 1 })))))
    ∧ (runsCmd p src 0x75 pk path → let cand : Chip := BitVec.ofNat 16 pk.arg0
      (∀ x, p.rv.sampler = some x → x.candidate = cand → Completes (.samplerEnd src) s (fun q => replies p q pk path Status.done [] [] ∧ ended q 7 x.epoch 0))
      ∧ ((∀ x, p.rv.sampler = some x → x.candidate ≠ cand) → turned (.samplerEnd src) Status.failedFormat))
    ∧ (runsCmd p src 0x76 pk path → turned (.samplerReport (some src)) Status.failedOpcode)
    ∧ (runsCmd p src 0x77 pk path →
      (p.rv.job = none → turned (.samplerPromote src) Status.refusedNoJob)
      ∧ (∀ j, p.rv.job = some j → j.coordinator ≠ ownChip p → turned (.samplerPromote src) Status.failedFormat)
      ∧ (∀ j, p.rv.job = some j → j.coordinator = ownChip p → Completes (.samplerPromote src) s (fun q => replies p q pk path Status.done [] []
          ∧ q.rv.admission = some ⟨BitVec.ofNat 16 pk.arg0, roundNow p + 8⟩ ∧ q.fences = p.fences ∧ q.quarantined = p.quarantined)))
    ∧ (runsCmd p src 0x78 pk path → let chip : Chip := BitVec.ofNat 16 pk.arg0
      (roundNow p < pk.arg1 → Completes (.samplerAdmit src) s (fun q => answered [] p q pk path Status.done [] []
        ∧ q.rv = { p.rv with cache := q.rv.cache, unsent := q.rv.unsent, admission := some ⟨chip, pk.arg1⟩ } ∧ cmdFrame src [] p q ∧ cmdRegs [] p q))
      ∧ (pk.arg1 ≤ roundNow p → Completes (.samplerAdmit src) s (fun q => replies p q pk path Status.done [] [] ∧ admits p q chip))))
  ∧ (∀ s : State, let p := s.pkg
    (∀ x, p.rv.sampler = some x → x.joins = true → x.reported + 64 ≤ x.clean → Completes (.samplerReport none) s (fun q =>
      puts [.packet 1 (packetBytes false false 0x76 0 0 (BitVec.ofNat 32 x.epoch) 0 [x.clean, 0, x.epoch] 0 p.bell [])] p q
      ∧ q.rv = { p.rv with sampler := some { x with reported := x.clean } } ∧ keepsBut [.rv, .out] p q))
    ∧ ((∀ x, p.rv.sampler = some x → x.joins = false ∨ x.clean < x.reported + 64) → Completes (.samplerReport none) s (fun q => keepsBut [] p q))
    ∧ (∀ a, p.rv.admission = some a → a.round ≤ roundNow p → Completes .samplerAdmitRound s (fun q => admits p q a.chip
      ∧ (a.chip ≠ ownChip p → keepsBut [.fences, .rv] p q)
      ∧ keepsBut [.fences, .rv, .quarantined, .blocks, .alerts, .regs, .records, .nvPending] p q))
    ∧ ((∀ a, p.rv.admission = some a → roundNow p < a.round) → Completes .samplerAdmitRound s (fun q => keepsBut [] p q)))

/-- PHASE_CHANGE with both rounds far enough ahead, no change in progress and a phase of the job opens the change with that phase's reshard entries and runs on; a
change in progress is refused.busy, a late round refused.phase_late, an unknown phase failed.format. PHASE_STOP_OLD before Rₐ − 2 changes nothing; from then on it
stops every context, and once no well is open it moves on to the windows. PHASE_RESHARD_POST from Rₐ on, once the ports have swapped, posts the entries of this
package on its bobbins and loads the new phase. PHASE_READY at the coordinator takes the report; PHASE_VERDICT takes the first verdict, and after a fail the second one:
a pass starts the new phase two rounds later, a fail ends the change failed.reshard. PHASE_VERDICT_MISSING at Rᵦ − 4 without a verdict quarantines the package and
ends the change. PHASE_START_NEW when due, in the new phase, starts its first step with the next epoch and answers the command; RESHARD_RETRY after a fail verdict
posts failed entries again, on flow 0xFFF, twice at most. Out of their time these change nothing. -/
def Obligations.PhaseChangesStopReshardAndStart : Prop :=
  (∀ (s : State) (src : CmdSrc) (pk : Packet) (path : Nat), let p := s.pkg
    let turned (i : Instr) (st : Status) : Prop := Completes i s (fun q => answered [] p q pk path st [] [] ∧ cmdFrame src [] p q ∧ cmdRest [] p q)
    (∀ j, runsCmd p src 0x50 pk path → p.rv.job = some j → let late := pk.arg1 < roundNow p + 200 ∨ pk.arg2 < pk.arg1 + 200
      (p.rv.change.isSome = true → turned (.phaseChange src) Status.refusedBusy)
      ∧ (p.rv.change = none → late → turned (.phaseChange src) Status.refusedPhaseLate)
      ∧ (p.rv.change = none → ¬late → j.phases ≤ pk.arg0 → turned (.phaseChange src) Status.failedFormat)
      ∧ (p.rv.change = none → ¬late → pk.arg0 < j.phases → let es := match j.reshard.find? (fun t => t.1 == pk.arg0) with | some t => t.2 | none => []
        Completes (.phaseChange src) s (fun q => puts [] p q
          ∧ q.rv = { p.rv with change := some ⟨pk.arg0, pk.arg1, pk.arg2, 0, es, none, none, 0, [], 0, []⟩, runs := p.rv.runs ++ [runOf p pk path] }
          ∧ q.ctxs = p.ctxs ∧ q.mem = p.mem ∧ q.wins = p.wins)))
    ∧ (runsCmd p src 0x51 pk path →
      (p.rv.change = none → turned (.phaseReady src) Status.failedPhase)
      ∧ (∀ c j, p.rv.change = some c → p.rv.job = some j → j.coordinator ≠ ownChip p → turned (.phaseReady src) Status.failedPhase)
      ∧ (∀ c j, p.rv.change = some c → p.rv.job = some j → j.coordinator = ownChip p → Completes (.phaseReady src) s (fun q =>
          answered [] p q pk path Status.done [] []
          ∧ q.rv = { p.rv with cache := q.rv.cache, unsent := q.rv.unsent, change := some { c with reports := c.reports ++ [(pk.requester, pk.arg0, pk.payload.isEmpty)] } }
          ∧ cmdFrame src [] p q ∧ cmdRegs [] p q)))
    ∧ (runsCmd p src 0x52 pk path → let took (c : PhaseChange) : Prop := Completes (.phaseVerdict src) s (fun q => answered [] p q pk path Status.done [] []
        ∧ q.rv = { p.rv with cache := q.rv.cache, unsent := q.rv.unsent, change := some c } ∧ cmdFrame src [] p q ∧ cmdRegs [] p q)
      (p.rv.change = none → turned (.phaseVerdict src) Status.failedPhase)
      ∧ (∀ c, p.rv.change = some c →
        (c.verdict = none → took { c with verdict := some (pk.arg0 == 1) })
        ∧ (c.verdict = some true → took c)
        ∧ (c.verdict = some false → pk.arg0 = 1 → took { c with second := some (roundNow p + 2) })
        ∧ (c.verdict = some false → pk.arg0 ≠ 1 → Completes (.phaseVerdict src) s (fun q => q.rv.change = none ∧ q.rv.started = false
            ∧ (∀ r, r ∈ q.rv.runs → r.code ≠ 0x50)
            ∧ ∃ r, r ∈ q.nvPending ∧ r.code = 0x0119 ∧ r.status = Status.failedReshard ∧ r.detail.head? = some c.phase)))))
  ∧ (∀ s : State, let p := s.pkg
    (p.rv.change = none ∨ p.rv.job = none → Completes .phaseStopOld s (fun q => keepsBut [] p q) ∧ Completes .phaseReshardPost s (fun q => keepsBut [] p q)
      ∧ Completes .phaseStartNew s (fun q => keepsBut [] p q))
    ∧ (p.rv.change = none → Completes .phaseVerdictMissing s (fun q => keepsBut [] p q) ∧ Completes .reshardRetry s (fun q => keepsBut [] p q)))
  ∧ (∀ (s : State) (c : PhaseChange) (j : InForce), let p := s.pkg
    let idle := ∀ d, (wellOf p d).insts = []
    p.rv.change = some c → p.rv.job = some j →
      (roundNow p + 2 < c.ra ∨ 2 ≤ c.stage ∨ (c.stage = 1 ∧ ¬idle) → Completes .phaseStopOld s (fun q => keepsBut [] p q))
      ∧ (c.ra ≤ roundNow p + 2 → c.stage = 0 → Completes .phaseStopOld s (fun q => (∃ ws, (windowEntries p c = [] → ws = c.wins)
              ∧ q.rv.change = some { c with wins := ws, stage := if (List.finRange 4).all (fun d => (wellOf p d).insts.isEmpty) then 2 else 1 })
          ∧ (∀ x, (ctxOf q x).state ≠ .running ∧ (ctxOf q x).state ≠ .waiting) ∧ q.rv.job = p.rv.job
          ∧ (stepOver p j = false → ∀ r, r ∈ p.rv.requests → lastGiven q r = true)))
      ∧ (c.ra ≤ roundNow p + 2 → c.stage = 1 → idle → Completes .phaseStopOld s (fun q => (∃ ws, q.rv = { p.rv with change := some { c with wins := ws, stage := 2 } } ∧ (windowEntries p c = [] → ws = c.wins)
            ∧ (∀ w, w ∈ ws → w ∈ c.wins ∨ ∃ e, e ∈ c.entries ∧ e.window = true ∧ e.dst = ownChip p ∧ w.1 = e.src ∧ w.2.1 = e.die))
          ∧ (windowEntries p c = [] → keepsBut [.rv] p q)))
      ∧ (roundNow p < c.ra ∨ (c.stage ≠ 2 ∧ c.stage ≠ 3) ∨ (c.stage = 2 ∧ swapsOver p = false) → Completes .phaseReshardPost s (fun q => keepsBut [] p q))
      ∧ (c.ra ≤ roundNow p → (c.stage = 2 ∧ swapsOver p = true) ∨ c.stage = 3 → Completes .phaseReshardPost s (fun q =>
          (∃ es : List Reshard, q.rv.change = some { c with entries := es, stage := 3 } ∧ es.length = c.entries.length)
          ∧ (c.entries = [] → c.stage = 3 → keepsBut [.rv] p q)
          ∧ (∀ e b l d, c.entries = [e] → e.src = ownChip p → e.post = none → e.status = none → liveBobs p e.die = b :: l →
              offer (nextTag p).1 b none 0 (descBytes 4 5 e.flow 1 e.len e.srcOff (e.dst.toNat * 2 ^ 48 + e.dstOff) (nextTag p).2) = .yes d →
              q.rv.change = some { c with entries := [{ e with post := some (b, (nextTag p).2) }], stage := 3 } ∧ q.rv.nextTag = p.rv.nextTag + 1)
          ∧ (∀ e, c.entries = [e] → e.src = ownChip p → e.post = none → e.status = none → liveBobs p e.die = [] →
              q.rv.change = some { c with entries := [{ e with status := some Status.refusedOffline }], stage := 3 }))))
  ∧ (∀ (s : State) (c : PhaseChange), let p := s.pkg
    p.rv.change = some c →
      (c.verdict.isSome = true ∨ roundNow p + 4 < c.rb → Completes .phaseVerdictMissing s (fun q => keepsBut [] p q))
      ∧ (c.verdict = none → c.rb ≤ roundNow p + 4 → Completes .phaseVerdictMissing s (fun q => q.quarantined = true ∧ q.rv.change = none ∧ q.rv.started = false
          ∧ (∀ r, r ∈ p.rv.runs → r.code = 0x50 → Out.item .reeve 0x50 Status.failedReshard ∈ q.out)
          ∧ ∃ r, r ∈ q.nvPending ∧ r.code = 0x0119 ∧ r.status = Status.failedReshard ∧ r.detail.head? = some c.phase))
      ∧ (c.verdict ≠ some false ∨ c.second.isSome = true ∨ roundNow p < c.rb + 2 → Completes .reshardRetry s (fun q => keepsBut [] p q))
      ∧ (c.verdict = some false → c.second = none → c.rb + 2 ≤ roundNow p → Completes .reshardRetry s (fun q =>
          (∃ es : List Reshard, q.rv.change = some { c with entries := es } ∧ es.length = c.entries.length ∧ q.rv.runs = p.rv.runs)
          ∧ (∀ e, c.entries = [e] → mine p e = false ∨ 2 ≤ e.tries ∨ e.status = some Status.done → keepsBut [.rv] p q ∧ q.rv = p.rv)
          ∧ (∀ e b l d, c.entries = [e] → mine p e = true → e.tries < 2 → e.status = some Status.failedLink → liveBobs p e.die = b :: l →
              offer (nextTag p).1 b none 0 (descBytes 4 5 0xFFF 1 e.len e.srcOff (e.dst.toNat * 2 ^ 48 + e.dstOff) (nextTag p).2) = .yes d →
              q.rv.change = some { c with entries := [{ e with tries := e.tries + 1, post := some (b, (nextTag p).2), status := none }] }))))
  ∧ (∀ (s : State) (c : PhaseChange) (j : InForce) (st : Status), let p := s.pkg
    let passed := c.verdict = some true ∧ c.rb + 2 ≤ roundNow p
    let second := ∃ r, c.second = some r ∧ r ≤ roundNow p
    p.rv.change = some c → p.rv.job = some j →
      (¬passed ∧ ¬second ∨ p.rv.phase ≠ c.phase → Completes .phaseStartNew s (fun q => keepsBut [] p q))
      ∧ (p.rv.phase = c.phase → passed ∨ second →
        st = (if c.verdict = some true ∧ c.rb + 2 ≤ roundNow p then (if c.entries.any (fun e => e.status == some Status.doneUnmirrored) then Status.doneUnmirrored else Status.done) else Status.doneRetried) →
        Completes .phaseStartNew s (fun q => q.rv.change = none ∧ q.rv.epoch = (p.rv.epoch + 1) % 2 ^ 32 ∧ q.rv.phase = p.rv.phase
          ∧ q.rv.runs = p.rv.runs.filter (fun r => !(r.code == 0x50)) ∧ (∀ r, r ∈ p.rv.runs → r.code = 0x50 → Out.item .reeve 0x50 st ∈ q.out))))

/-- Each when due, and otherwise changing nothing. WATCHDOG_RESTART restarts the count and WATCHDOG_EXPIRY quarantines the package, drops what Reeve ran and starts the
recovery ROM. RESULT_POLL answers a commit whose swap is over and sends the entries published; RESULT_RESEND sends a result of 1 ms again, up to 8 times, and then
closes it unknown.no_ack with its record; the first two commit the chip number of the configuration area once the routers are DISABLED. TELEMETRY_SNAPSHOT takes the time; a balance that fails is recorded and drains its block, the second within 24 h holding it
DISABLED. NV_RECORD_WRITE keeps the oldest waiting record, or after two failures counts and reports it. CASELM_FAULT_POLICY retires a core in FAULT, drains and
retests one with a mismatch, takes a failing store's core or cluster out, retires a mill in FAULT, and records the tables of a stack whose repair log overflowed. STEP_START begins the first step at the round start names and
later ones at a round boundary with every task stopped, each with a new epoch; a failed step runs again up to rerun_limit times and then fails its requests.
TASK_REPLACE moves the tasks of a core out of service to a free one, or reports that there is none. -/
def Obligations.CaselmWorksByItself : Prop :=
  let quiet (p : Pkg) : Prop := p.rv.job = none ∧ p.rv.commitRound = none ∧ p.rv.withdrawAt = none ∧ p.rv.change = none ∧ p.rv.sampler = none
    ∧ (p.boot.chip = none ∨ chipAssigned p = true)
  let chipDue (p : Pkg) (c : Chip) : Prop := p.boot.chip = some c ∧ chipAssigned p = false ∧ ∀ d, stateOf p (.drt d) = .disabled
  let recorded (q : Pkg) (type code : Nat) (st : Status) (detail : List Nat) : Prop := ∃ r, q.records.getLast? = some r ∧ r.type = type ∧ r.code = code
    ∧ r.status = st ∧ r.detail = detail
  (∀ s : State, let p := s.pkg
    (caselmRuns p = false ∨ p.count < p.rv.wdogAt + 1000000 → Completes .watchdogRestart s (fun q => keepsBut [] p q))
    ∧ (caselmRuns p = true → p.rv.wdogAt + 1000000 ≤ p.count → Completes .watchdogRestart s (fun q => q.rv.wdogAt = p.count
        ∧ (quiet p → q.rv = { p.rv with wdogAt := p.count } ∧ keepsBut [.rv] p q)
        ∧ (∀ c, chipDue p c → p.rv.job = none → p.rv.withdrawAt = none → p.rv.commitRound = none → p.rv.change = none → p.rv.sampler = none →
          getReg q (.drt 0) 0x090 = BitVec.ofNat 32 (2 ^ 16 + c.toNat) ∧ keepsBut [.rv, .regs] p q)))
    ∧ (wdogRuns p = false ∨ pairOk p .reeve 0x088 = true ∧ p.count < p.rv.wdogAt + wdogLimit p → Completes .watchdogExpiry s (fun q => keepsBut [] p q))
    ∧ (wdogRuns p = true → pairOk p .reeve 0x088 = true → p.rv.wdogAt + wdogLimit p ≤ p.count → Completes .watchdogExpiry s (fun q => q.quarantined = true ∧ hasEvent q .reeve 16
        ∧ gains 1 p q .reeve 0x138 ∧ q.boot = { p.boot with stage := .rom, at_ := p.count, cause := 0x05 } ∧ q.serving = false ∧ q.rv.job = none
        ∧ q.rv.runs = [] ∧ q.rv.cache = [] ∧ q.rv.change = none ∧ q.dbg.halted = [] ∧ (∀ x, x ∈ p.rv.runs → Out.item .reeve x.code Status.failedDisabled ∈ q.out))))
  ∧ (∀ (s : State) (l : List ResultEntry), let p := s.pkg
    (caselmRuns p = false ∨ p.count < p.rv.pollAt + 20000 → Completes (.resultPoll l) s (fun q => keepsBut [] p q))
    ∧ (caselmRuns p = true → p.rv.pollAt + 20000 ≤ p.count →
      (quiet p → Completes (.resultPoll l) s (fun q => q.rv = { p.rv with pollAt := p.count } ∧ keepsBut [.rv] p q))
      ∧ (∀ r, l = [] → p.boot.chip = none ∨ chipAssigned p = true → p.rv.commitRound = some r → p.rv.withdrawAt = none → p.rv.change = none → p.rv.sampler = none → swapsOver p = true → swapDone p r = true →
          Completes (.resultPoll l) s (fun q => q.rv.commitRound = none ∧ q.rv.runs = p.rv.runs.filter (fun x => !(x.code == 0x22))
            ∧ (∀ x, x ∈ p.rv.runs → x.code = 0x22 → Out.item .reeve 0x22 Status.done ∈ q.out) ∧ ∃ x, x ∈ q.nvPending ∧ x.type = 0 ∧ x.code = 0x0101))
      ∧ (∀ e g r, l = [e] → p.rv.job.isSome = true → p.boot.chip = none ∨ chipAssigned p = true → p.rv.commitRound = none → p.rv.withdrawAt = none → p.rv.change = none → p.rv.sampler = none → jobRing p true e.ring = some g →
          0 < g.count → Map.getD p.rv.taken g.index 0 < leNat (readLocal p g.head 8) → g.index ≠ policyOf p 0x13 →
          p.rv.requests.find? (fun r => r.ring == e.reqRing && r.seq == e.reqSeq) = some r → lastGiven p r = false →
          let n := Map.getD p.rv.taken g.index 0
          let a := g.base + n % g.count * g.size
          let len := min e.len g.size
          let st := if localPoisoned p a len then Status.donePoisoned else Status.done
          Completes (.resultPoll l) s (fun q => q.rv.taken = Map.put p.rv.taken g.index (n + 1)
            ∧ q.rv.results = p.rv.results ++ [⟨r.key, r.ring, r.seq, e.last, st, readLocal p a len, p.count, 0⟩]
            ∧ (r.key.path ≠ 0 → ∃ b, puts [.packet r.key.path b] p q)))))
  ∧ (∀ s : State, let p := s.pkg
    let due (r : ResultOut) : Bool := decide (r.at_ + 1000000 ≤ p.count)
    (p.rv.results.find? due = none → Completes .resultResend s (fun q => keepsBut [] p q))
    ∧ (∀ r, p.rv.results.find? due = some r →
      (r.resends < 8 → Completes .resultResend s (fun q => (r.key.path ≠ 0 → ∃ b, puts [.packet r.key.path b] p q)
        ∧ q.rv = { p.rv with unsent := q.rv.unsent, results := p.rv.results.map (fun x => if x = r then { r with at_ := p.count, resends := r.resends + 1 } else x) }
        ∧ keepsBut [.rv, .out, .routers, .blocks] p q))
      ∧ (8 ≤ r.resends → Completes .resultResend s (fun q => recorded q 0 0x0117 Status.unknownNoAck [r.ring, r.seq] ∧ q.rv.results = p.rv.results.erase r
        ∧ (r.last = true → q.rv.finished = p.rv.finished + 1) ∧ keepsBut [.rv, .regs, .blocks, .alerts, .records] p q))))
  ∧ (∀ (s : State) (l : List (Page × Nat × Nat × Nat)), let p := s.pkg
    let due := caselmRuns p = true ∧ p.rv.snapAt + 10000000 ≤ p.count ∧ slotOf p.bell = 0
    (¬due → Completes (.telemetrySnapshot l) s (fun q => keepsBut [] p q))
    ∧ (due → l = [] → Completes (.telemetrySnapshot l) s (fun q => q.rv = { p.rv with snapshot := p.bell, snapAt := p.count, figures := teleFigures p } ∧ keepsBut [.rv, .free] p q))
    ∧ (∀ g a b c, due → l = [(g, a, b, c)] → let old := recent p (Map.getD p.rv.audits g [])
        Completes (.telemetrySnapshot l) s (fun q => q.rv = { p.rv with snapshot := p.bell, snapAt := p.count, figures := teleFigures p, audits := Map.put p.rv.audits g (old ++ [p.count]) }
          ∧ enabled q g = false ∧ (∃ r, r ∈ q.records ∧ r.type = g.type ∧ r.code = 0x0110 ∧ r.detail = [a, b, c])
          ∧ (old ≠ [] → bits (getReg q g 0x008) 1 0 = 0 ∧ Out.report 0x0110 [a, b, c] ∈ q.out))))
  ∧ (∀ (s : State) (ok again : Bool), let p := s.pkg
    (p.nvPending = [] → Completes (.nvRecordWrite ok again) s (fun q => keepsBut [] p q))
    ∧ (∀ r l, p.nvPending = r :: l →
      (ok = true ∨ again = true → Completes (.nvRecordWrite ok again) s (fun q => q.nvPending = l ∧ getReg q .reeve 0x094 = r.seq
        ∧ (p.nvRecords.length < 131072 → q.nvRecords = p.nvRecords ++ [r]) ∧ (131072 ≤ p.nvRecords.length → q.nvRecords = p.nvRecords.drop 1024 ++ [r])
        ∧ regsBut [(.reeve, 0x094)] p q ∧ keepsBut [.nvPending, .nvRecords, .regs] p q))
      ∧ (ok = false → again = false → Completes (.nvRecordWrite ok again) s (fun q => q.nvPending = l ∧ gains 1 p q .reeve 0x130 ∧ hasEvent q .reeve 18
        ∧ recorded q 3 18 0 [r.seq.toNat] ∧ keepsBut [.nvPending, .regs, .blocks, .alerts, .records] p q))))
  ∧ (∀ s : State, let p := s.pkg
    (∀ t, caselmRuns p = false → Completes (.caselmFaultPolicy t) s (fun q => keepsBut [] p q))
    ∧ (caselmRuns p = true →
      (∀ c, stateOf p (.core c) = .fault → p.retired.contains c = false → Completes (.caselmFaultPolicy (.core c)) s (fun q =>
          q.retired = p.retired ++ [c] ∧ bit (block q (.core c)).evt 17 = false ∧ Out.report 0x0116 [c.die.val, c.slot] ∈ q.out
          ∧ ∃ r, r ∈ q.nvPending ∧ r.code = 0x0116 ∧ r.status = Status.failedEngine ∧ r.detail = [c.slot]))
      ∧ (∀ c, stateOf p (.core c) = .enabled → p.rv.retest.contains c = false → bit (block p (.core c)).evt 16 = true →
          Completes (.caselmFaultPolicy (.core c)) s (fun q => q.rv = { p.rv with retest := p.rv.retest ++ [c] } ∧ enabled q (.core c) = false
            ∧ bit (block q (.core c)).evt 16 = false))
      ∧ (∀ c, stateOf p (.core c) = .enabled → p.rv.retest.contains c = true → (recent p (Map.getD p.rv.faults c [])).length < 2 →
          Completes (.caselmFaultPolicy (.core c)) s (fun q =>
            q.rv = { p.rv with retest := p.rv.retest.erase c, faults := Map.put p.rv.faults c (recent p (Map.getD p.rv.faults c []) ++ [p.count]) }
            ∧ q.retired = p.retired ∧ keepsBut [.rv, .regs, .blocks, .alerts, .records] p q))
      ∧ (∀ c, stateOf p (.core c) = .enabled → p.rv.retest.contains c = true → 2 ≤ (recent p (Map.getD p.rv.faults c [])).length → p.retired.contains c = false →
          Completes (.caselmFaultPolicy (.core c)) s (fun q => q.retired = p.retired ++ [c] ∧ enabled q (.core c) = false))
      ∧ (∀ st, (∀ b, b < st.banks → bankErrs p st b true < 2 ∧ bankErrs p st b false < 16) →
          Completes (.caselmFaultPolicy (.store st)) s (fun q => keepsBut [] p q))
      ∧ (∀ c b, b < StoreId.banks (.core c) → 2 ≤ bankErrs p (.core c) b true ∨ 16 ≤ bankErrs p (.core c) b false → p.retired.contains c = false →
          Completes (.caselmFaultPolicy (.store (.core c))) s (fun q => q.retired = p.retired ++ [c]))
      ∧ (∀ d i b, b < StoreId.banks (.cluster d i) → 2 ≤ bankErrs p (.cluster d i) b true ∨ 16 ≤ bankErrs p (.cluster d i) b false →
          p.rv.withdrawn.contains (d, i) = false → Completes (.caselmFaultPolicy (.store (.cluster d i))) s (fun q =>
          q.rv = { p.rv with withdrawn := p.rv.withdrawn ++ [(d, i)] } ∧ puts [.report 0x0116 [d.val, i.val]] p q
          ∧ keepsBut [.rv, .regs, .blocks, .alerts, .records, .nvPending, .out] p q))
      ∧ (∀ m, stateOf p (.mill m) = .fault → bits (getReg p (.mill m) 0x008) 1 0 ≠ 0 → Completes (.caselmFaultPolicy (.mill m)) s (fun q =>
          ∃ r, r ∈ q.nvPending ∧ r.type = 0x17 ∧ r.code = 0x0116 ∧ r.status = Status.failedMill ∧ r.detail = [m.stack.val, m.mill.val]))
      ∧ (∀ m, enabled p (.mill m) = true → bit (block p (.mill m)).evt 17 = true → Completes (.caselmFaultPolicy (.mill m)) s (fun q =>
          enabled q (.mill m) = false ∧ bit (block q (.mill m)).evt 17 = false))
      ∧ (∀ n, bit (block p (.memc n)).evt 26 = false → Completes (.caselmFaultPolicy (.stack n)) s (fun q => keepsBut [] p q))
      ∧ (∀ n, bit (block p (.memc n)).evt 26 = true → Completes (.caselmFaultPolicy (.stack n)) s (fun q =>
          bit (block q (.memc n)).evt 26 = false
          ∧ (∀ t i v c, t ≤ 2 → ((.memc n, t, i), (v, c)) ∈ p.rg.tables → ((.memc n, t, i), v) ∈ q.boot.tables)
          ∧ (∀ kv, kv ∈ p.boot.tables → kv.1.1 ≠ .memc n → kv ∈ q.boot.tables)
          ∧ q.boot = { p.boot with tables := q.boot.tables } ∧ blocksBut [.memc n] p q ∧ keepsBut [.boot, .blocks, .alerts] p q))))
  ∧ (∀ (s : State) (ends : Nat) (copied : Bool), let p := s.pkg
    (p.rv.job = none ∨ slotOf p.bell ≠ 0 ∨ manifestBusy p = true → Completes (.stepStart ends copied) s (fun q => keepsBut [] p q))
    ∧ (∀ j, p.rv.job = some j → slotOf p.bell = 0 → manifestBusy p = false → let waits := p.rv.runs.find? (fun r => r.code == 0x24)
      let may := stepOver p j = true ∧ changeAllows p ends = true ∧ p.rv.posted.any (fun x => !x.restore) = false
      let noCopy := ∀ x, modelOf p = some x → x.first ≠ (p.rv.epoch + 1) % 2 ^ 32 ∨ x.copied = true
      (p.rv.started = false → (∀ r, waits = some r → roundNow p < r.arg0) → Completes (.stepStart ends copied) s (fun q => keepsBut [] p q))
      ∧ (∀ r, p.rv.started = false → waits = some r → r.arg0 ≤ roundNow p → Completes (.stepStart ends copied) s (fun q => q.rv.started = true
          ∧ q.rv.epoch = (p.rv.epoch + 1) % 2 ^ 32 ∧ q.rv.runs = p.rv.runs.filter (fun x => !(x.code == 0x24)) ∧ Out.item .reeve 0x24 Status.done ∈ q.out))
      ∧ (p.rv.started = true → ¬may → Completes (.stepStart ends copied) s (fun q => keepsBut [] p q))
      ∧ (p.rv.started = true → may → noCopy →
        (stepStatus p j = Status.done → Completes (.stepStart ends copied) s (fun q => q.rv = { p.rv with mirrored := 0, reruns := 0, epoch := (p.rv.epoch + 1) % 2 ^ 32 }))
        ∧ (stepStatus p j ≠ Status.done → p.rv.reruns < policyOf p 0x01 → Completes (.stepStart ends copied) s (fun q =>
            q.rv = { p.rv with mirrored := 0, reruns := p.rv.reruns + 1, epoch := (p.rv.epoch + 1) % 2 ^ 32 }))
        ∧ (stepStatus p j ≠ Status.done → policyOf p 0x01 ≤ p.rv.reruns → Completes (.stepStart ends copied) s (fun q => q.rv.reruns = 0
            ∧ q.rv.epoch = (p.rv.epoch + 1) % 2 ^ 32 ∧ ∀ r, r ∈ p.rv.requests → lastGiven q r = true)))))
  ∧ (∀ (s : State) (core : CoreId), let p := s.pkg
    let stays := p.rv.job = none ∨ placeOf p core = none ∨ caselmRuns p = false ∨ (∃ old, placeOf p core = some old ∧ coreTakes p old = true)
      ∨ (∃ j, p.rv.job = some j ∧ stepOver p j = false)
    (stays → Completes (.taskReplace core) s (fun q => keepsBut [] p q))
    ∧ (∀ old, ¬stays → placeOf p core = some old →
      (freeCore p old = none → Completes (.taskReplace core) s (fun q => puts [.report 0x300F [old.die.val, old.slot]] p q
        ∧ recorded q 0 0x0116 Status.failedCapacity [old.die.val, old.slot] ∧ keepsBut [.out, .regs, .blocks, .alerts, .records] p q))
      ∧ (∀ c, freeCore p old = some c → Completes (.taskReplace core) s (fun q => q.rv = { p.rv with moves := Map.put p.rv.moves core c }
        ∧ recorded q 0 0x0112 0 [core.die.val, core.slot, old.slot, c.slot]))))

/-- While Caselm does not run, and with nothing to do, both change nothing. CASELM_MIRROR_RESTORE first takes a restore that has ended: it is compared with its source and
logged, and a range whose move ended done but disagrees, or done.poisoned, is reported lost and kept as exposed. Else, of the poisoned lines that the stack's oldest log entry reports, the
next run of lines with an unexposed mirror is posted to the bobbin and kept as posted; with no run left to restore and none posted the rest is reported lost and the entry is popped.
REMIRROR_COPY first takes a copy that has ended: done takes its granules out of the exposure record. Else, at a step boundary with every context IDLE and bytes left
in the boundary's remirror_bytes, it posts the next exposed extent whose partner is reachable to its bobbin. A bobbin with no room for a posting leaves all as it
was; one that refuses it counts that. -/
def Obligations.RestoresAndRemirrorCopies : Prop :=
  (∀ (s : State) (n : Fin 12) (b : BobId) (agrees : Bool), let p := s.pkg
    let base := n.val * 2 ^ 36
    let lines := (reportedLines p n).filter (fun x => poisoned p (base + x))
    let all := lineRuns (lines.map (localOffset (mapGib p) n))
    let runs := all.filter (fun u =>
      !p.rv.posted.any (fun x => x.restore && decide (x.off ≤ u.1) && decide (u.1 < x.off + x.len)))
    let next := runs.find? (fun u => (mirrorFor p u.1).isSome && !isExposed p u.1)
    (caselmRuns p = false → Completes (.caselmMirrorRestore n b agrees) s (fun q => keepsBut [] p q))
    ∧ (∀ r x st, caselmRuns p = true → reapFirst p true = some (r, x, st) → Completes (.caselmMirrorRestore n b agrees) s (fun q =>
        q.rv.posted = p.rv.posted.erase x ∧ q.bobs = r.bobs
        ∧ (∃ e, q.records.getLast? = some e ∧ e.type = 0 ∧ e.code = 0x0114 ∧ e.status = st ∧ e.detail = [x.off, x.len, if agrees = true then 1 else 0])
        ∧ (st = Status.done ∧ agrees = true ∨ st ≠ Status.done ∧ st ≠ Status.donePoisoned → q.out = p.out ∧ q.rv.exposed = p.rv.exposed)
        ∧ (st = Status.done ∧ agrees = false ∨ st = Status.donePoisoned → puts [.report 0x0114 [x.off, x.len]] p q)
        ∧ keepsBut [.bobs, .rv, .regs, .blocks, .alerts, .records, .out] p q))
    ∧ (caselmRuns p = true → reapFirst p true = none →
      (logHolds p n = false → Completes (.caselmMirrorRestore n b agrees) s (fun q => keepsBut [] p q))
      ∧ (logHolds p n = true → next = none → runs.length < all.length → Completes (.caselmMirrorRestore n b agrees) s (fun q => keepsBut [] p q))
      ∧ (logHolds p n = true → next = none → runs.length = all.length → Completes (.caselmMirrorRestore n b agrees) s (fun q =>
          puts (runs.map (fun u => .report 0x0114 [u.1, u.2])) p q
          ∧ (∀ e l, (stackOf p n).log = e :: l → (stackOf q n).log = l ∧ ∃ r, q.records.getLast? = some r ∧ r.type = 0x16 ∧ r.inst = n.val
              ∧ r.code = (if bits e.1 30 28 ≥ 3 then 19 else 18) ∧ r.detail = [e.1.toNat, e.2.toNat])
          ∧ ((stackOf p n).log = [] → ueHeld p n = true → bit (block q (.memc n)).evt 17 = false ∧ (Page.memc n, 17) ∉ q.rg.alerts)
          ∧ ((stackOf p n).log = [] → ueHeld p n = false → ∀ i, Map.look p.rv.restoring n = some i →
              Map.look q.rv.restoring n = (if i + 1 < 2 ^ 24 then some (i + 1) else none) ∧ q.rg = p.rg)
          ∧ q.mem = p.mem ∧ q.bobs = p.bobs ∧ q.rv.posted = p.rv.posted))
      ∧ (∀ u m, logHolds p n = true → next = some u → mirrorFor p u.1 = some m →
        let tag := (nextTag p).2
        let bytes := descBytes 5 4 m.flow 1 u.2 (m.partner.toNat * 2 ^ 48 + u.1) u.1 tag
        (∀ d, offer (nextTag p).1 b none 0 bytes = .yes d → Completes (.caselmMirrorRestore n b agrees) s (fun q =>
          q.rv = { p.rv with nextTag := p.rv.nextTag + 1, posted := p.rv.posted ++ [⟨b, tag, u.1, u.2, m.partner, true⟩] }
          ∧ (∃ e, (bobOf q b).descs = (bobOf p b).descs ++ [{ d with order := e }]) ∧ q.mem = p.mem ∧ q.poison = p.poison ∧ q.out = p.out))
        ∧ (offer (nextTag p).1 b none 0 bytes = .no Status.refusedFull → Completes (.caselmMirrorRestore n b agrees) s (fun q => keepsBut [] p q)))))
  ∧ (∀ (s : State) (b : BobId), let p := s.pkg
    let left := (policyOf p 0x20 - p.rv.mirrored) / 65536
    let free (e : Nat × Nat) : Bool := !p.rv.posted.any (fun x => !x.restore && decide (x.off / 65536 < e.1 + e.2) && decide (e.1 < (x.off + x.len) / 65536))
      && (match mirrorFor p (e.1 * 65536) with | some m => reachable p b.die m.partner | none => false)
    (caselmRuns p = false → Completes (.remirrorCopy b) s (fun q => keepsBut [] p q))
    ∧ (∀ r x st, caselmRuns p = true → reapFirst p false = some (r, x, st) → Completes (.remirrorCopy b) s (fun q => q.bobs = r.bobs
        ∧ q.rv = { p.rv with posted := p.rv.posted.erase x, exposed := if st = Status.done then p.rv.exposed.flatMap (extentLess (x.off / 65536) (x.len / 65536)) else p.rv.exposed }
        ∧ keepsBut [.bobs, .rv] p q))
    ∧ (caselmRuns p = true → reapFirst p false = none →
      (p.rv.job = none → Completes (.remirrorCopy b) s (fun q => keepsBut [] p q))
      ∧ (∀ j, p.rv.job = some j →
        (stepOver p j = false ∨ contextsIdle p = false ∨ left = 0 ∨ p.rv.exposed.find? free = none → Completes (.remirrorCopy b) s (fun q => keepsBut [] p q))
        ∧ (∀ e m, stepOver p j = true → contextsIdle p = true → 0 < left → p.rv.exposed.find? free = some e → mirrorFor p (e.1 * 65536) = some m →
          let n := min (min (min e.2 left) (m.first + m.granules - e.1)) 65535
          let a := e.1 * 65536
          let tag := (nextTag p).2
          let bytes := descBytes 4 5 m.flow n 65536 a (m.partner.toNat * 2 ^ 48 + a) tag
          (∀ d, offer (nextTag p).1 b none 0 bytes = .yes d → Completes (.remirrorCopy b) s (fun q =>
            q.rv = { p.rv with nextTag := p.rv.nextTag + 1, posted := p.rv.posted ++ [⟨b, tag, a, n * 65536, m.partner, false⟩], mirrored := p.rv.mirrored + n * 65536 }
            ∧ (∃ i, (bobOf q b).descs = (bobOf p b).descs ++ [{ d with order := i }]) ∧ q.mem = p.mem ∧ q.out = p.out))
          ∧ (∀ st, offer (nextTag p).1 b none 0 bytes = .no st → Completes (.remirrorCopy b) s (fun q =>
              (st = Status.refusedFull → keepsBut [] p q) ∧ (st ≠ Status.refusedFull → gains 1 p q (.bob b) 0x120 ∧ hasEvent q (.bob b) evDescFailed)
              ∧ keepsBut [.regs, .blocks, .alerts] p q))))))

/-- A commit of PWR_REQ and the POWER command decide by R415: a request that cannot be armed leaves its status in PWR_LAST with req_refused, an armed one waits for its
round. POWER_TRANSITION_START and P2_EXIT_START begin it at slot 0 of that round, the entry by draining every ENABLED block of the domains it cuts, the exit by changing the
dies that are on at once. DOMAIN_CUT saves the next drained domain to its slot and cuts it, or holds it in retention when asked, or when the save fails, with
retain_forced. POWER_STATE_REACHED with nothing left ends the transition with its event; P4 raises PDN_READY, and a latched wake starts the exit at once.
P1_AUTO_ENTER moves an idle die to P1. WAKE_DETECT holds packets in Hearth, 16 of them, then PAUSE; an enabled source starts the exit from P3, is latched during an entry,
and counted during an exit. DOMAIN_RESTORE powers the next domain up, its pages DISABLED; HD starts the boot chain. Out of their turn they change nothing. -/
def Obligations.PowerTransitionsEnterAndExit : Prop :=
  let last (q : Pkg) (st : Status) (mask reached : Nat) : Prop := getReg q .pwr 0x098 = BitVec.ofNat 32 (st.toNat * 65536 + mask * 16 + reached)
  let begun (t : Transition) (p : Pkg) : Prop := t.running = false ∧ roundCome p t.round = true
  let exits (q : Pkg) (mask now : Nat) (left : List Domain) : Prop := q.pw.trans = some ⟨0, mask, 0, true, true, left, now⟩ ∧ q.pw.wake = none
  let hubFirst (p : Pkg) : List Domain := [Domain.hub] ++ (List.finRange 4).map Domain.die ++ ((List.finRange 12).map Domain.stack).filter (fun d => p.pw.cut.contains d)
  (∀ (s : State) (v : Word), let p := s.pkg
    let armed : Transition := ⟨bits v 2 0, bits v 7 4, bits v 31 8, false, false, [], p.count⟩
    (stateOf p .pwr = .off → Completes (.pwrReqCommit v) s (fun q => keepsBut [] p q))
    ∧ (∀ st, stateOf p .pwr ≠ .off → pwrDecide p (bits v 2 0) (bits v 7 4) (bits v 31 8) = some st → Completes (.pwrReqCommit v) s (fun q =>
        last q st (bits v 7 4) (if st = Status.done then bits v 2 0 else 0) ∧ hasEvent q .pwr 17 ∧ (5 ≤ bits v 2 0 → hasEvent q .pwr evPairErr ∧ hasEvent q .pwr evRsvdWrite) ∧ regsBut [(.pwr, 0x098)] p q ∧ keepsBut [.regs, .blocks, .alerts] p q))
    ∧ (stateOf p .pwr ≠ .off → pwrDecide p (bits v 2 0) (bits v 7 4) (bits v 31 8) = none → Completes (.pwrReqCommit v) s (fun q =>
        q.pw = { p.pw with trans := some armed } ∧ getReg q .pwr 0x090 = v &&& 0xFFFFFFF7#32 ∧ getReg q .pwr 0x094 = ~~~(v &&& 0xFFFFFFF7#32)
        ∧ (block q .pwr).tin = (block p .pwr).tin + 1 ∧ (bit v 3 = true → hasEvent q .pwr 6) ∧ regsBut [(.pwr, 0x090), (.pwr, 0x094)] p q
        ∧ keepsBut [.pw, .regs, .blocks, .alerts] p q)))
  ∧ (∀ (s : State) (src : CmdSrc) (pk : Packet) (path : Nat), let p := s.pkg
    let target := pk.arg0 % 8
    let mask := pk.arg0 / 256 % 16
    let round := (if pk.arg1 = 0 then roundNow p + 4 else pk.arg1) % 2 ^ 24
    runsCmd p src 0x04 pk path →
      (∀ st, pwrDecide p target mask round = some st → Completes (.powerCmd src) s (fun q => answered [] p q pk path st [] [] ∧ last q st mask (if st = Status.done then target else 0)
        ∧ hasEvent q .pwr 17 ∧ q.rv = { p.rv with cache := q.rv.cache, unsent := q.rv.unsent } ∧ cmdFrame src [.alerts] p q))
      ∧ (pwrDecide p target mask round = none → Completes (.powerCmd src) s (fun q => q.rv = { p.rv with runs := p.rv.runs ++ [runOf p pk path] } ∧ puts [] p q
        ∧ q.pw.trans = some ⟨target, mask, round, false, false, [], p.count⟩ ∧ cmdFrame src [.pw] p q)))
  ∧ (∀ s : State, let p := s.pkg
    p.pw.trans = none → Completes .powerTransitionStart s (fun q => keepsBut [] p q) ∧ Completes .p2ExitStart s (fun q => keepsBut [] p q)
      ∧ Completes .powerStateReached s (fun q => keepsBut [] p q) ∧ (∀ d ok, Completes (.domainCut d ok) s (fun q => keepsBut [] p q)
      ∧ Completes (.domainRestore d ok) s (fun q => keepsBut [] p q)))
  ∧ (∀ (s : State) (t : Transition), let p := s.pkg
    let drains : List Domain := if t.target = 2 then (maskDies t.dies).flatMap (fun k => [.die k, .optics k])
      else (List.finRange 4).flatMap (fun k => [.die k, .optics k]) ++ [.hub]
    p.pw.trans = some t →
      (¬(begun t p ∧ 2 ≤ t.target) → Completes .powerTransitionStart s (fun q => keepsBut [] p q))
      ∧ (begun t p → t.target = 3 → pairOk p .pwr 0x088 = false → stateOf p .pwr ≠ .off → Completes .powerTransitionStart s (fun q => isIn q .pwr .fault 0x03
          ∧ hasEvent q .pwr evCmpFail ∧ q.pw = p.pw))
      ∧ (begun t p → 2 ≤ t.target → (t.target = 3 → pairOk p .pwr 0x088 = true) → Completes .powerTransitionStart s (fun q =>
          q.pw = { p.pw with trans := some { t with running := true, left := entryCuts p t, start := p.count }, forced := false } ∧ gains 1 p q .pwr 0x100
          ∧ (∀ d g, d ∈ drains → g ∈ domainPages d → enabled p g = true → pairOk p g 0x008 = true → isIn q g .draining 0x06)
          ∧ q.rv.runs = p.rv.runs.filter (fun r => !(r.code == 0x04)) ∧ (∀ r, r ∈ p.rv.runs → r.code = 0x04 → Out.item .reeve 0x04 Status.done ∈ q.out)))
      ∧ (¬(begun t p ∧ t.target < 2) → Completes .p2ExitStart s (fun q => keepsBut [] p q))
      ∧ (begun t p → t.target < 2 → let off := (maskDies t.dies).filter (fun d => dieState p d == 2)
          Completes .p2ExitStart s (fun q => gains 1 p q .pwr 0x100 ∧ (∀ d, d ∈ maskDies t.dies → dieState p d ≠ 2 → dieState q d = t.target)
            ∧ (off = [] → q.pw.trans = none ∧ last q Status.done t.dies t.target ∧ hasEvent q .pwr 16 ∧ Out.item .pwr t.target Status.done ∈ q.out)
            ∧ (off ≠ [] → q.pw.trans = some { t with running := true, exit := true, left := off.map Domain.die, start := p.count })
            ∧ (∀ r, r ∈ p.rv.runs → r.code = 0x04 → Out.item .reeve 0x04 Status.done ∈ q.out)))
      ∧ (∀ d ok, let turn := t.running = true ∧ t.exit = false ∧ t.left.head? = some d ∧ drained p d = true ∧ (∀ k, d = .die k → drained p (.optics k) = true)
          let saves := d = .hub ∨ ∃ k, d = .die k
          let forced := saves ∧ (ok = false ∨ p.pw.memFail = true)
          let holds := forced ∨ (saves ∧ bit (pwrCfg p) 22 = true)
          (¬turn → Completes (.domainCut d ok) s (fun q => keepsBut [] p q))
          ∧ (turn → saves → pairOk p .pwr 0x088 = false → stateOf p .pwr ≠ .off → Completes (.domainCut d ok) s (fun q => isIn q .pwr .fault 0x03
            ∧ hasEvent q .pwr evCmpFail ∧ q.pw = p.pw))
          ∧ (turn → (saves → pairOk p .pwr 0x088 = true) → Completes (.domainCut d ok) s (fun q => q.pw.trans = some { t with left := t.left.drop 1 }
            ∧ (∀ g, g ∈ domainPages d → stateOf q g = .off) ∧ (holds → d ∈ q.pw.kept) ∧ (¬holds → d ∈ q.pw.cut)
            ∧ (forced → hasEvent q .pwr 20 ∧ gains 1 p q .pwr 0x118 ∧ q.pw.forced = true ∧ q.pw.forcedDue = true)
            ∧ (saves → ok = true → (Map.look q.pw.slots d).isSome = true) ∧ (saves → ok = false → Map.look q.pw.slots d = none)
            ∧ Map.look q.pins.en d = none ∧ d ∉ q.pins.good)))
      ∧ (∀ d ok, let turn := t.running = true ∧ t.exit = true ∧ t.left.head? = some d
          (¬turn → Completes (.domainRestore d ok) s (fun q => keepsBut [] p q))
          ∧ (turn → Completes (.domainRestore d ok) s (fun q => q.pw.trans = some { t with left := t.left.drop 1 }
            ∧ (∀ g, g ∈ domainPages d → stateOf p g = .off → stateOf q g = .disabled) ∧ d ∉ q.pw.cut ∧ d ∉ q.pw.kept ∧ d ∈ q.pins.good
            ∧ (∀ k, d = .die k → dieState q k = 0)
            ∧ (d = .hub → q.pw.p3 = false ∧ q.boot = { p.boot with stage := .hearth, at_ := p.count, cause := if p.pw.trips.contains 4 then 0x06 else 0x07 })
            ∧ (∀ x, Map.look p.pw.slots d = some x → p.pw.kept.contains d = false → ok = false → hasEvent q .pwr 21 ∧ d ∈ q.pw.slotFail)))))
  ∧ (∀ (s : State) (t : Transition), let p := s.pkg
    let atEnd := t.running = true ∧ t.left = []
    p.pw.trans = some t →
      (¬atEnd ∨ (t.exit = true ∧ t.dies = 0 ∧ p.boot.stage ≠ .caselm) → Completes .powerStateReached s (fun q => keepsBut [] p q))
      ∧ (atEnd → t.exit = true → t.dies ≠ 0 ∨ p.boot.stage = .caselm → Completes .powerStateReached s (fun q => q.pw.trans = none
          ∧ (∀ d, d ∈ maskDies t.dies → dieState q d = t.target) ∧ last q Status.done t.dies 0 ∧ hasEvent q .pwr 16
          ∧ puts [.item .pwr t.target Status.done] p q
          ∧ (p.pw.forcedDue = true → p.boot.stage = .caselm → q.pw.forcedDue = false ∧ ∃ r, q.records.getLast? = some r ∧ r.type = 0x05 ∧ r.code = 20)
          ∧ (p.pw.forcedDue = false → keepsBut [.pw, .regs, .blocks, .alerts, .out] p q) ∧ keepsBut [.pw, .regs, .blocks, .alerts, .out, .records] p q))
      ∧ (atEnd → t.exit = false → Completes .powerStateReached s (fun q => last q Status.done t.dies (min t.target 3) ∧ hasEvent q .pwr 16
          ∧ Out.item .pwr t.target Status.done ∈ q.out
          ∧ (t.target = 2 → ∀ d, d ∈ maskDies t.dies → dieState q d = 2) ∧ (t.target ≠ 2 → q.pw.p3 = true)
          ∧ (p.pw.wake = none → q.pw.trans = none ∧ (t.target = 4 → q.pins.pdnReady = true ∧ ∃ r, r ∈ q.nvPending ∧ r.type = 0x05 ∧ r.code = 16 ∧ r.detail = [4]))
          ∧ (∀ w, p.pw.wake = some w → hasEvent q .pwr 19 ∧ gains 1 p q .pwr 0x110 ∧ gains 1 p q .pwr 0x100
              ∧ exits q (if t.target = 2 then t.dies else 0) p.count (if t.target = 2 then (maskDies t.dies).map Domain.die else hubFirst p)))))
  ∧ (∀ (s : State) (d : Fin 4), let p := s.pkg
    let us := bits (pwrCfg p) 31 24
    let may := bit (pwrCfg p) 23 = true ∧ dieState p d = 0 ∧ dieIdle p d = true ∧ p.pw.cut.contains (.die d) = false
      ∧ Map.getD p.pw.idleAt d 0 + (if us = 0 then 100 else us) * 1000 ≤ p.count
    (may → pairOk p .pwr 0x088 = true → Completes (.p1AutoEnter d) s (fun q => q.pw = { p.pw with die := Map.put p.pw.die d 1 } ∧ keepsBut [.pw] p q))
    ∧ (¬may → pairOk p .pwr 0x088 = true → Completes (.p1AutoEnter d) s (fun q => keepsBut [] p q)))
  ∧ (∀ (s : State) (w : WakeSource), let p := s.pkg
    let sound := w = .cooled ∨ pairOk p .hrth 0x088 = true ∧ pairOk p .hrth 0x090 = true
    let wakes := wakeEnabled p w = true ∧ sound
    let logged (q : Pkg) : Prop := getReg q .hrth 0x098 = BitVec.ofNat 32 ((wakeCode w).1 * 2 ^ 24 + (wakeCode w).2 * 2 ^ 16)
      ∧ getReg64 q .hrth 0x0A0 = BitVec.ofNat 64 p.count ∧ hasEvent q .pwr 18 ∧ gains 1 p q .pwr 0x108
    (∀ b, w = .mgmt b → hearthHolds p = true → p.pw.held.length < 16 → Completes (.wakeDetect w) s (fun q => q.pw.held = p.pw.held ++ [b]))
    ∧ (∀ b, w = .mgmt b → hearthHolds p = true → 16 ≤ p.pw.held.length → Completes (.wakeDetect w) s (fun q => puts [.pause false] p q ∧ hasEvent q .hrth 17))
    ∧ (∀ b, w = .i3c b → hearthHolds p = true → p.pw.heldI3c = none → Completes (.wakeDetect w) s (fun q => q.pw.heldI3c = some b))
    ∧ (∀ b, w = .i3c b → hearthHolds p = true → p.pw.heldI3c.isSome = true → Completes (.wakeDetect w) s (fun q => puts [.pause true] p q))
    ∧ (∀ n, w = .burst n ∨ w = .light n → p.pw.p3 = false → dieState p (dieOfPort n) = 2 → Completes (.wakeDetect w) s (fun q => hasEvent q (.sel (seOfPort n)) 24))
    ∧ ((∀ b, w ≠ .mgmt b ∧ w ≠ .i3c b) ∨ hearthHolds p = false → (∀ n, w = .burst n ∨ w = .light n → p.pw.p3 = true ∨ dieState p (dieOfPort n) ≠ 2) → sound → ¬wakes ∨ (p.pw.trans = none ∧ p.pw.p3 = false) ∨ (∃ t, p.pw.trans = some t ∧ t.running = false) →
        Completes (.wakeDetect w) s (fun q => keepsBut [] p q))
    ∧ (wakes → p.pw.trans = none → p.pw.p3 = true → Completes (.wakeDetect w) s (fun q => logged q ∧ gains 1 p q .pwr 0x100 ∧ exits q 0 p.count (hubFirst p) ∧ q.pins.pdnReady = false))
    ∧ (∀ t, wakes → p.pw.trans = some t → t.running = true → t.exit = true → Completes (.wakeDetect w) s (fun q => gains 1 p q .pwr 0x108 ∧ q.pw.trans = some t))
    ∧ (∀ t, wakes → p.pw.trans = some t → t.running = true → t.exit = false → p.pw.wake = none → Completes (.wakeDetect w) s (fun q =>
        logged q ∧ q.pw.wake = some (wakeCode w) ∧ q.pw.trans = some t))
    ∧ (∀ t x, wakes → p.pw.trans = some t → t.running = true → t.exit = false → p.pw.wake = some x → Completes (.wakeDetect w) s (fun q =>
        q.pw.wake = some x ∧ q.pw.trans = some t)))

/-- SENSOR_SAMPLE of a page that is on and of its whole set of sensors keeps the readings, drops the sensors that fail R424 for good, each with its record, and takes the
maximum. At or above the threshold the duty falls by the first step or by one, never under the floor; cooled by the hysteresis for the hold time it rises by one; between
it stays; with throttling off it is 16/16. Leaving and regaining 16/16 set their events, throttled time is counted, and THERM_N follows. The hub counts and reports crossing
its threshold. A trip of a die or of the hub cuts it with no drain, its pages OFF, recorded, FAULT_N asserted; a stack's trip sends its MEMC page to FAULT with
cause 0x7, and at 110 °C its rail goes and its contents with it; a selvage trip sends SEL to FAULT. TRIP_COOLED powers a tripped die up again, or starts the exit after
a hub trip; STACK_TRIP_CLEAR clears a stack 10 s cool and ENABLED again. Otherwise they change nothing. -/
def Obligations.SensorsThrottleAndTrips : Prop :=
  let recorded (q : Pkg) (g : Page) (code : Nat) : Prop := ∃ r, r ∈ q.nvPending ∧ r.type = g.type ∧ r.inst = g.inst ∧ r.code = code
  (∀ (s : State) (i : Fin 5) (l : List Int), let p := s.pkg
    let g := Page.thrm i
    let size := if i.val = 4 then 12 else 32
    let x := thermalOf p i
    let alive := (List.range size).filter (fun k => !x.failed.contains k)
    let new := alive.filter (fun k => readingFails (median2 (alive.map (fun k => nth l k 0))) (nth l k 0))
    let top := hottest (x.failed ++ new) 0 l (-4096, 0)
    let base : Thermal := { x with readings := l, failed := x.failed ++ new, tmax := top.1, hot := top.2 }
    let cfg := getReg p g 0x088
    let thr : Int := (bits cfg 31 24 * 16 : Nat)
    let cool : Int := thr - (bits cfg 19 16 * 16 : Nat)
    pairOk p g 0x088 = true → (l.length ≠ size ∨ stateOf p g = .off → Completes (.sensorSample i l) s (fun q => keepsBut [] p q))
    ∧ (l.length = size → stateOf p g ≠ .off → Completes (.sensorSample i l) s (fun q => (∀ k, k ∈ new → hasEvent q g 20)
        ∧ keepsBut [.pw, .regs, .blocks, .alerts, .records] p q))
    ∧ (∀ d : Fin 4, l.length = size → stateOf p g ≠ .off → i.val = d.val → let duty := Map.getD p.pw.thermal d 16
      let goes (duty' : Nat) (above : Bool) (coolAt : Option Nat) : Prop := Completes (.sensorSample i l) s (fun q =>
        q.pw = { p.pw with thermal := Map.put p.pw.thermal d duty', sensors := Map.put p.pw.sensors i { base with above := above, coolAt := coolAt } }
        ∧ (duty = 16 → duty' < 16 → hasEvent q g 16) ∧ (duty < 16 → duty' = 16 → hasEvent q g 17) ∧ gains (if duty < 16 then 10000 else 0) p q g 0x200
        ∧ (duty' < 16 → q.pins.therm = true))
      (bit cfg 0 = false → goes 16 false none)
      ∧ (bit cfg 0 = true → thr ≤ top.1 → goes (max (bits cfg 15 12 + 1) (duty - if x.above then 1 else bits cfg 23 20)) true none)
      ∧ (bit cfg 0 = true → top.1 < thr → cool < top.1 → goes duty false none)
      ∧ (bit cfg 0 = true → top.1 < thr → top.1 ≤ cool → let since := x.coolAt.getD p.count
        (since + bits cfg 11 8 * 1000000 ≤ p.count → goes (min 16 (duty + 1)) false (some p.count))
        ∧ (p.count < since + bits cfg 11 8 * 1000000 → goes duty false (some since))))
    ∧ (l.length = size → stateOf p g ≠ .off → i.val = 4 → Completes (.sensorSample i l) s (fun q =>
        q.pw = { p.pw with sensors := Map.put p.pw.sensors i { base with above := decide (thr ≤ top.1) } }
        ∧ (thr ≤ top.1 → q.pins.therm = true) ∧ (thr ≤ top.1 → x.above = false → hasEvent q g 18 ∧ gains 1 p q g 0x208))))
  ∧ (∀ (s : State) (d : Fin 4), let p := s.pkg
    let down := p.pw.cut.contains (.die d) = true ∨ p.pw.kept.contains (.die d) = true
    (down → lossFresh p (.die d) = false → Completes (.tripComputeDie d) s (fun q => keepsBut [] p q))
    ∧ (down → lossFresh p (.die d) = true → Completes (.tripComputeDie d) s (fun q => (⟨d.val, by omega⟩ : Fin 5) ∈ q.pw.trips
        ∧ hasEvent q ⟨0x06, d.val⟩ 19 ∧ q.pins.fault = true ∧ recorded q ⟨0x06, d.val⟩ 19 ∧ Map.look q.pins.again (.die d) = none
        ∧ lossFresh q (.die d) = false ∧ q.mem = p.mem ∧ q.stores = p.stores))
    ∧ (¬down → Completes (.tripComputeDie d) s (fun q => (∀ g, g ∈ domainPages (.die d) ++ domainPages (.optics d) → stateOf q g = .off)
        ∧ Domain.die d ∈ q.pw.cut ∧ (⟨d.val, by omega⟩ : Fin 5) ∈ q.pw.trips ∧ hasEvent q ⟨0x06, d.val⟩ 19 ∧ q.pins.fault = true
        ∧ Map.look q.pins.en (.die d) = none ∧ (p.serving = true → q.quarantined = true) ∧ recorded q ⟨0x06, d.val⟩ 19)))
  ∧ (∀ s : State, let p := s.pkg
    (p.pw.cut.contains .hub = true → lossFresh p .hub = false → Completes .tripHub s (fun q => keepsBut [] p q))
    ∧ (p.pw.cut.contains .hub = true → lossFresh p .hub = true → Completes .tripHub s (fun q => (4 : Fin 5) ∈ q.pw.trips ∧ q.pins.fault = true
        ∧ Map.look q.pins.again .hub = none ∧ q.records = p.records ∧ keepsBut [.pw, .pins] p q))
    ∧ (p.pw.cut.contains .hub = false → Completes .tripHub s (fun q => (∀ g, g ∈ domainPages .hub → stateOf q g = .off)
        ∧ Domain.hub ∈ q.pw.cut ∧ (∀ d, Domain.die d ∈ q.pw.cut) ∧ (4 : Fin 5) ∈ q.pw.trips ∧ q.pw.p3 = true ∧ q.pw.trans = none ∧ q.pw.wake = none
        ∧ q.pins.fault = true ∧ q.boot.stage = .hearth ∧ recorded q .hrth 19)))
  ∧ (∀ (s : State) (n : Fin 12), let p := s.pkg
    let g := Page.memc n
    let x := stackOf p n
    (x.tripped = true → lossFresh p (.stack n) = false → Completes (.tripStack n) s (fun q => keepsBut [] p q))
    ∧ (x.tripped = true → lossFresh p (.stack n) = true → Completes (.tripStack n) s (fun q => stackOf q n = x ∧ q.pins.fault = true
        ∧ ((block p g).cause = 0x06 → (block q g).cause = 0x07) ∧ recorded q g 2 ∧ lossFresh q (.stack n) = false ∧ q.mem = p.mem))
    ∧ (x.tripped = false → Completes (.tripStack n) s (fun q => stackOf q n = { x with tripped := true, coolAt := none } ∧ q.pins.fault = true
        ∧ (stateOf p g ≠ .off → isIn q g .fault 0x07) ∧ recorded q g 2 ∧ q.mem = p.mem))
    ∧ (x.tripped = false ∨ x.railCut = true → Completes (.tripStackRailCut n) s (fun q => keepsBut [] p q))
    ∧ (x.tripped = true → x.railCut = false → Completes (.tripStackRailCut n) s (fun q => (stackOf q n).tripped = true ∧ (stackOf q n).railCut = true
        ∧ (∀ k, stateOf q (.mill ⟨n, k⟩) = .off) ∧ Domain.stack n ∈ q.pw.cut ∧ Map.look q.pins.en (.stack n) = none
        ∧ (∀ a, a < 2 ^ 36 → memByte q (n.val * 2 ^ 36 + a) = 0 ∧ poisoned q (n.val * 2 ^ 36 + a) = true) ∧ recorded q g 2))
    ∧ (∀ t, x.coolAt = some t → x.tripped = true → t + 10000000000 ≤ p.count → enabled p g = true → Completes (.stackTripClear n) s (fun q =>
        stackOf q n = { x with tripped := false, railCut := false, coolAt := none } ∧ (∀ m, m ≠ n → stackOf q m = stackOf p m)
        ∧ q.rv = (if x.railCut = true ∧ p.rv.job.isSome = true then { p.rv with restoring := Map.put p.rv.restoring n 0 } else p.rv) ∧ keepsBut [.stackUnits, .rv] p q))
    ∧ ((∀ t, x.coolAt = some t → ¬(x.tripped = true ∧ t + 10000000000 ≤ p.count ∧ enabled p g = true)) → Completes (.stackTripClear n) s (fun q => keepsBut [] p q)))
  ∧ (∀ (s : State) (e : Fin 16), let p := s.pkg
    let g := Page.sel e
    let down := stateOf p g = .off ∨ isIn p g .fault 0x07
    (down → Completes (.tripSelvage e) s (fun q => keepsBut [] p q))
    ∧ (¬down → Completes (.tripSelvage e) s (fun q => isIn q g .fault 0x07 ∧ q.pins.fault = true ∧ recorded q g 2)))
  ∧ (∀ (s : State) (i : Fin 5) (ok : Bool), let p := s.pkg
    (p.pw.trips.contains i = false → Completes (.tripCooled i ok) s (fun q => keepsBut [] p q))
    ∧ (p.pw.trips.contains i = true → i.val < 4 → p.pw.p3 = true → Completes (.tripCooled i ok) s (fun q => keepsBut [] p q))
    ∧ (∀ d : Fin 4, p.pw.trips.contains i = true → i.val = d.val → p.pw.p3 = false → Completes (.tripCooled i ok) s (fun q => dieState q d = 0
        ∧ i ∉ q.pw.trips ∧ Domain.die d ∉ q.pw.cut ∧ Domain.die d ∈ q.pins.good
        ∧ (∀ g, g ∈ domainPages (.die d) ++ domainPages (.optics d) → stateOf p g = .off → stateOf q g = .disabled)))
    ∧ (p.pw.trips.contains i = true → i.val = 4 → p.pw.trans = none → p.pw.p3 = true → Completes (.tripCooled i ok) s (fun q =>
        getReg q .hrth 0x098 = BitVec.ofNat 32 (5 * 2 ^ 24) ∧ hasEvent q .pwr 18
        ∧ ∃ t, q.pw.trans = some t ∧ t.running = true ∧ t.exit = true ∧ t.left.head? = some .hub)))

/-- MODULE_OUT takes a module out of service with its event and counts, for good after three failed trainings in 1 s; a link under its minimum goes DOWN, its page to FAULT
with cause 0x9. MODULE_IN puts an enabled module in service, the link UP at its minimum. STITCH_MESSAGE_RECEIVE on an UP link counts flits, discards a malformed message,
takes the credits of any other, ends a stream message as an item and takes a coherence message from a guest as the answer to its oldest snoop (the model's choice,
log entry 50); SNOOP_TIMEOUT 2 µs after an unanswered one poisons the lines held modified and takes the thimble to FAULT. A fitted guest's record that matches its fuses admits it, any other record or none in 100 ms rejects it for good. Windows open and
close on command, an inbound one to DRAM below Caselm's region only. A guest access at an ENABLED page is held while a bucket is empty; else it is refused.thimble
when its kind is not allowed or no window holds it, and its read, write, atomic, snoop, interrupt or mailbox access is done and answered; a quarantined, draining or
closed page refuses, holds, or ends it refused.offline. OUTBOUND_GUEST_ACCESS passes a window's access to the guest and its answer back, or unknown.no_ack at the
deadline. A snoop unanswered poisons the lines held modified; a doorbell tells the reader; a DOWN guest link ends every access in flight failed.link. -/
def Obligations.StitchLinksAndGuests : Prop :=
  (∀ (s : State) (l : StitchId) (m : Fin 16) (bad : Bool) (n : Nat), let p := s.pkg
    let g := Page.stch l
    let x := stitchOf p l
    let away := linkModules l ≤ m.val ∨ stateOf p g = .off
    let recent := (Map.getD x.fails m.val []).filter (fun t => decide (p.count < t + 1000000000))
    let fails := if bad = true then p.count :: recent else recent
    let mods := if x.mods.testBit m.val = true then x.mods - 2 ^ m.val else x.mods
    (away → Completes (.moduleOut l m bad n) s (fun q => keepsBut [] p q))
    ∧ (¬away → Completes (.moduleOut l m bad n) s (fun q => (stitchOf q l).mods = mods ∧ Map.getD (stitchOf q l).fails m.val [] = fails
        ∧ (3 ≤ fails.length → (stitchOf q l).gone.testBit m.val = true)
        ∧ (n ≠ 0 → gains n p q g 0x118 ∧ gains n p q g 0x110 ∧ hasEvent q g 19)
        ∧ (x.mods.testBit m.val = true → gains 1 p q g 0x120 ∧ hasEvent q g 16)
        ∧ (x.mods.testBit m.val = true → x.lstate = 2 → popcount 16 mods < linkMinimum l → (stitchOf q l).lstate = 0 ∧ isIn q g .fault 0x09 ∧ hasEvent q g 18)
        ∧ (x.mods.testBit m.val = false → n = 0 → keepsBut [.stitches] p q)
        ∧ (x.lstate ≠ 2 → keepsBut [.stitches, .regs, .blocks, .alerts] p q)))
    ∧ (let may := ¬away ∧ inService p g = true ∧ x.gone.testBit m.val = false ∧ x.mods.testBit m.val = false
      let comes := may ∧ pairOk p g 0x088 = true ∧ bit (getReg p g 0x088) m.val = true
      (may → pairOk p g 0x088 = false → Completes (.moduleIn l m) s (fun q => isIn q g .fault 0x03 ∧ hasEvent q g evCmpFail))
      ∧ (¬comes → ¬(may ∧ pairOk p g 0x088 = false) → Completes (.moduleIn l m) s (fun q => keepsBut [] p q))
      ∧ (comes → Completes (.moduleIn l m) s (fun q => hasEvent q g 17 ∧ (stitchOf q l).mods = x.mods + 2 ^ m.val
          ∧ (stitchOf q l).lstate = (if linkMinimum l ≤ popcount 16 (x.mods + 2 ^ m.val) then 2 else if x.lstate = 0 then 1 else x.lstate)
          ∧ keepsBut [.stitches, .blocks, .alerts, .thims] p q))))
  ∧ (∀ (s : State) (l : StitchId) (h : DWord), let p := s.pkg
    let g := Page.stch l
    let x := stitchOf p l
    let lines := bits h 13 8
    let malformed := 5 ≤ bits h 2 0 ∨ bits h 63 48 + bits h 15 0 ≠ 0xFFFF ∨ 33 < lines ∨ bits h 15 14 ≠ 0 ∨ bits h 47 43 ≠ 0
    (x.lstate ≠ 2 → Completes (.stitchMessageReceive l h) s (fun q => keepsBut [] p q))
    ∧ (x.lstate = 2 → Completes (.stitchMessageReceive l h) s (fun q => gains ((8 + 64 * lines + 255) / 256) p q g 0x108
        ∧ (malformed → stitchOf q l = { x with malformed := x.malformed + 1 } ∧ keepsBut [.regs, .stitches] p q)
        ∧ (¬malformed → (∀ c, Map.getD (stitchOf q l).credits c 0 = Map.getD x.credits c 0 + if c = bits h 42 40 then bits h 39 32 else 0)
            ∧ (stitchOf q l) = { x with credits := (stitchOf q l).credits } ∧ ∀ m, m ≠ l → stitchOf q m = stitchOf p m)
        ∧ (¬malformed → bits h 2 0 = 4 → puts [.item g (bits h 31 16) Status.done] p q ∧ keepsBut [.regs, .blocks, .out, .stitches] p q)
        ∧ (∀ n, ¬malformed → bits h 2 0 = 1 → l = .guest n → thimOf q n = { thimOf p n with snoops := (thimOf p n).snoops.drop 1 }
            ∧ (∀ m, m ≠ n → thimOf q m = thimOf p m) ∧ keepsBut [.regs, .stitches, .thims] p q)
        ∧ (¬malformed → bits h 2 0 ≠ 4 → (bits h 2 0 ≠ 1 ∨ ∀ n, l ≠ .guest n) → keepsBut [.regs, .stitches] p q))))
  ∧ (∀ (s : State) (g : Fin 2) (b : List Byte), let p := s.pkg
    let waits := stateOf p (.thim g) = .enabling ∧ siteFitted p g = true
    let fused := (List.range 12).flatMap (fun i => leBytes 4 (getReg p .fuse (0x100 + 0x40 * g.val + 4 * i)).toNat)
    let same := leField b 0 1 = bits (getReg p .fuse 0x080) 15 8 ∧ leField b 1 1 = g.val ∧ (b.drop 16).take 48 = fused
    let late := (stitchOf p (.guest g)).lstate = 2 ∧ (thimOf p g).upAt + 100000000 ≤ p.count
    let rejects (q : Pkg) : Prop := isIn q (.thim g) .fault 0x09 ∧ hasEvent q (.thim g) 16 ∧ (thimOf q g).rejected = true ∧ (thimOf q g).admitted = false
      ∧ ∃ r, r ∈ q.nvPending ∧ r.type = 0x0B ∧ r.inst = g.val ∧ r.code = 16
    (¬waits → Completes (.guestIdentityRecord g b) s (fun q => keepsBut [] p q))
    ∧ (waits → same → p.rg.undo.contains (.thim g) = false → Completes (.guestIdentityRecord g b) s (fun q => stateOf q (.thim g) = .enabled
        ∧ thimOf q g = { thimOf p g with admitted := true } ∧ keepsBut [.thims, .blocks, .alerts] p q))
    ∧ (waits → ¬same → Completes (.guestIdentityRecord g b) s rejects)
    ∧ (¬(waits ∧ late) → Completes (.guestIdTimeout g) s (fun q => keepsBut [] p q))
    ∧ (waits → late → Completes (.guestIdTimeout g) s rejects)
    ∧ (siteFitted p g = false → Completes (.guestAlert g) s (fun q => keepsBut [] p q))
    ∧ (siteFitted p g = true → Completes (.guestAlert g) s (fun q => (∃ r, q.records.getLast? = some r ∧ r.type = 0x0B ∧ r.code = 0x0123 ∧ r.detail = [g.val])
        ∧ keepsBut [.regs, .blocks, .alerts, .records] p q)))
  ∧ (∀ (s : State) (g : Fin 2) (w : Fin 32), let p := s.pkg
    let x := thimOf p g
    let refused (q : Pkg) : Prop := gains 1 p q hubCmn 0x168 ∧ hasEvent q hubCmn 4 ∧ keepsBut [.regs, .blocks, .alerts] p q
    (stateOf p (.thim g) = .off → Completes (.thimWinOpen g w) s refused ∧ Completes (.thimWinClose g w) s refused)
    ∧ (stateOf p (.thim g) ≠ .off → let sound := bit (thimWctl p g w.val) 31 = true ∨ thimPbase p g w.val + thimSize p g w.val ≤ 0x00BFC0000000
      ((Map.look x.wins w.val).isSome = true ∨ inService p (.thim g) = false → Completes (.thimWinOpen g w) s (fun q => keepsBut [] p q))
      ∧ (Map.look x.wins w.val = none → inService p (.thim g) = true → ¬sound → Completes (.thimWinOpen g w) s (onlyRaises (.thim g) 18 p))
      ∧ (Map.look x.wins w.val = none → inService p (.thim g) = true → sound → Completes (.thimWinOpen g w) s (fun q => thimOf q g = { x with wins := Map.put x.wins w.val 1 } ∧ keepsBut [.thims] p q))
      ∧ (Map.look x.wins w.val ≠ some 1 → Completes (.thimWinClose g w) s (fun q => keepsBut [] p q))
      ∧ (Map.look x.wins w.val = some 1 → Completes (.thimWinClose g w) s (fun q => keepsBut [.thims] p q
          ∧ (x.out = [] → Map.look (thimOf q g).wins w.val = none) ∧ (x.out ≠ [] → Map.look (thimOf q g).wins w.val = some 2)))))
  ∧ (∀ (s : State) (g : Fin 2) (id off : Nat) (op : GuestOp), let p := s.pkg
    let pg := Page.thim g
    let cfg := getReg p pg 0x088
    let fill := fillBuckets p g
    let spent : Thimble := { fill with reqs := fill.reqs - 1000, lines := fill.lines - 1000 * ((opLen op + 63) / 64) }
    let cmd := Instr.guestAccess g id off op
    let refused (st : Status) (q : Pkg) : Prop := puts [.guest g id st []] p q ∧ gains 1 p q pg 0x108 ∧ hasEvent q pg 17
      ∧ keepsBut [.thims, .regs, .blocks, .alerts, .out] p q
    let keep (l : List GuestAcc) (q : Pkg) : Prop := thimOf q g = { (if enabled p pg = true then fill else thimOf p g) with held := l ++ [⟨id, off, op, p.count⟩] }
    let through := enabled p pg = true ∧ thimPairsOk p g = true ∧ bucketEmpty p g fill = false ∧ fill.held = []
    let allowed := ∃ i, opAllow op = some i ∧ bit cfg i = true
    (stateOf p pg = .quarantined → Completes cmd s (refused Status.refusedQuarantined))
    ∧ (enabled p pg = true → thimPairsOk p g = false → Completes cmd s (fun q => isIn q pg .fault 0x03 ∧ hasEvent q pg evCmpFail))
    ∧ (enabled p pg = true → thimPairsOk p g = true → bucketEmpty p g fill = true ∨ fill.held ≠ [] → Completes cmd s (fun q => keep fill.held q ∧ hasEvent q pg 21
        ∧ keepsBut [.thims, .blocks, .alerts] p q))
    ∧ (stateOf p pg ≠ .quarantined → enabled p pg = false → (Map.look p.rg.drains pg).isSome = true → Completes cmd s (fun q => keep (thimOf p g).held q ∧ keepsBut [.thims] p q))
    ∧ (stateOf p pg ≠ .quarantined → enabled p pg = false → Map.look p.rg.drains pg = none → Completes cmd s (refused Status.refusedOffline))
    ∧ (through → ¬allowed → Completes cmd s (refused Status.refusedThimble))
    ∧ (through → allowed → op = .interrupt → Completes cmd s (fun q => puts [.guest g id Status.done []] p q ∧ hasEvent q pg 20 ∧ gains 1 p q pg 0x100 ∧ thimOf q g = spent))
    ∧ (∀ o n, through → allowed → op = .read n → rangeOf off = .page pg o → 0xC00 ≤ o → n ≠ 4 ∨ o % 4 ≠ 0 → Completes cmd s (refused Status.refusedUnmapped))
    ∧ (∀ o b, through → allowed → op = .write b → rangeOf off = .page pg o → 0xC00 ≤ o → b.length ≠ 4 ∨ o % 4 ≠ 0 → Completes cmd s (refused Status.refusedUnmapped))
    ∧ (∀ o, through → allowed → op = .read 4 → rangeOf off = .page pg o → 0xC00 ≤ o → o % 4 = 0 → Completes cmd s (fun q =>
        puts [.guest g id Status.done (leBytes 4 (getReg p pg o).toNat)] p q ∧ thimOf q g = spent ∧ keepsBut [.thims, .regs, .out] p q))
    ∧ (∀ o b, through → allowed → op = .write b → b.length = 4 → rangeOf off = .page pg o → 0xC00 ≤ o → o < 0xE00 → o % 4 = 0 →
        (bit (getReg p pg 0x098) ((o - 0xC00) / 64) = true → Completes cmd s (refused Status.refusedBusy))
        ∧ (bit (getReg p pg 0x098) ((o - 0xC00) / 64) = false → Completes cmd s (fun q => puts [.guest g id Status.done []] p q
            ∧ getReg q pg o = BitVec.ofNat 32 (leNat b) ∧ keepsBut [.thims, .regs, .out] p q)))
    ∧ (through → allowed → op ≠ .interrupt → (∀ h o, rangeOf off ≠ .page h o) →
      (thimFind p g false (opPerm op) off (opLen op) = none → Completes cmd s (refused Status.refusedThimble))
      ∧ (∀ w, thimFind p g false (opPerm op) off (opLen op) = some w → let a := thimPbase p g w + (off - thimGbase p g w)
        pairOk p (.memc 0) 0x090 = true → (checkAccess p (.guest g) a (opLen op)).2 = Status.done →
          (∀ n, op = .read n → let st := if localPoisoned p a n = true then Status.donePoisoned else Status.done
            Completes cmd s (fun q => puts [.item pg id st, .guest g id st (readLocal p a n)] p q ∧ thimOf q g = spent ∧ gains 1 p q pg 0x100
              ∧ keepsBut [.thims, .regs, .blocks, .out] p q))
          ∧ (∀ b, op = .write b → Completes cmd s (fun q => memIs q (writeLocal p a b noTag)
              ∧ thimOf q g = { spent with dir := spent.dir.filter (fun e => !(linesOf a b.length).contains (e.1 * 64)) } ∧ gains 1 p q pg 0x100
              ∧ (∀ h, h ≠ g → rangeOf a = .dram → (thimOf q h).dir = (thimOf p h).dir.filter (fun e => !(linesOf a b.length).contains (e.1 * 64))
                  ∧ (thimOf q h).snoops = (thimOf p h).snoops ++ (guestLines p h a b.length).map (fun e => (e.1, e.2, p.count)))
              ∧ ((∀ h, h ≠ g → guestLines p h a b.length = []) → puts [.item pg id Status.done, .guest g id Status.done []] p q)))
          ∧ (∀ opc wide x c r old new, op = .atomic opc wide x c → guestHolds p a 8 = false → atomApply p a opc wide x c = .ok (r, old, new) → Completes cmd s (fun q =>
              puts [.item pg id Status.done, .guest g id Status.done (leBytes (if wide = true then 8 else 4) old.toNat)] p q ∧ memIs q r))
          ∧ (∀ opc wide x c st, op = .atomic opc wide x c → atomApply p a opc wide x c = .error st → Completes cmd s (fun q =>
              puts [.item pg id st, .guest g id st []] p q ∧ q.mem = p.mem))
          ∧ (∀ m, op = .snoop m → (spent.dir.filter (fun e => e.1 != a / 64)).length < 16384 → Completes cmd s (fun q =>
              puts [.item pg id Status.done, .guest g id Status.done (readLocal p a 64)] p q
              ∧ thimOf q g = { spent with dir := spent.dir.filter (fun e => e.1 != a / 64) ++ [(a / 64, m)] } ∧ q.mem = p.mem)))))
  ∧ (∀ (s : State) (g : Fin 2), let p := s.pkg
    let pg := Page.thim g
    let fill := fillBuckets p g
    (fill.held = [] → Completes (.guestRateRelease g) s (fun q => keepsBut [] p q))
    ∧ (∀ a r, fill.held = a :: r →
      (enabled p pg = true → bucketEmpty p g fill = true → Completes (.guestRateRelease g) s (fun q => thimOf q g = fill ∧ keepsBut [.thims] p q))
      ∧ (enabled p pg = true → bucketEmpty p g fill = false → a.op = .interrupt → bit (getReg p pg 0x088) 4 = true → Completes (.guestRateRelease g) s (fun q =>
          (thimOf q g).held = r ∧ gains (p.count - a.at_) p q pg 0x110 ∧ hasEvent q pg 20 ∧ puts [.guest g a.id Status.done []] p q))
      ∧ (enabled p pg = false → (Map.look p.rg.drains pg).isSome = true → Completes (.guestRateRelease g) s (fun q => keepsBut [] p q))
      ∧ (enabled p pg = false → Map.look p.rg.drains pg = none → Completes (.guestRateRelease g) s (fun q => thimOf q g = { fill with held := r }
          ∧ puts [.guest g a.id Status.refusedOffline []] p q ∧ gains 1 p q pg 0x108)))
    ∧ ((∀ e, e ∈ (thimOf p g).snoops → p.count < e.2.2 + 2000) → Completes (.snoopTimeout g) s (fun q => keepsBut [] p q))
    ∧ (∀ e, e ∈ (thimOf p g).snoops → e.2.2 + 2000 ≤ p.count → Completes (.snoopTimeout g) s (fun q => (thimOf q g).dir = [] ∧ (thimOf q g).snoops = [] ∧ hasEvent q pg 19
        ∧ (∀ e a, e ∈ (thimOf p g).dir → e.2 = true → a ∈ linesOf (e.1 * 64) 64 → phys p a / 64 ∈ q.poison)
        ∧ (stateOf p pg ≠ .off → isIn q pg .fault 0x09)))
    ∧ Completes (.guestLinkDown g) s (fun q => (stitchOf q (.guest g)).lstate = 0 ∧ (thimOf q g).out = [] ∧ (thimOf q g).held = []
        ∧ (thimOf q g).admitted = false ∧ (thimOf q g).dir = [] ∧ (thimOf q g).wins = []
        ∧ puts ((thimOf p g).out.flatMap (fun o => [.item pg o.id Status.failedLink, .fromGuest o.agent Status.failedLink []])
            ++ (thimOf p g).held.map (fun a => .guest g a.id Status.failedLink [])) p q
        ∧ (stateOf p pg ≠ .off → isIn q pg .fault 0x09) ∧ ∃ r, q.records.getLast? = some r ∧ r.type = 0x0C ∧ r.code = 18 ∧ r.status = Status.failedLink))
  ∧ (∀ (s : State) (ag : Agent) (g : Fin 2) (id off : Nat) (op : GuestOp) (ans : Option (Status × List Byte)), let p := s.pkg
    let pg := Page.thim g
    let cmd := Instr.outboundGuestAccess ag g id off op ans
    let x := thimOf p g
    let served := enabled p pg = true ∧ inService p pg = true
    let barred (st : Status) (q : Pkg) : Prop := puts [.fromGuest ag st []] p q ∧ gains 1 p q hubCmn 0x168 ∧ hasEvent q hubCmn 4
    (permitted ag (.guest g off) = false → Completes cmd s (barred Status.refusedPrivate))
    ∧ (permitted ag (.guest g off) = true → ¬served → Completes cmd s (barred Status.refusedOffline))
    ∧ (permitted ag (.guest g off) = true → served →
      (thimFind p g true (opPerm op) off (opLen op) = none → Completes cmd s (fun q => puts [.fromGuest ag Status.refusedThimble []] p q ∧ keepsBut [.out] p q))
      ∧ (∀ w, thimFind p g true (opPerm op) off (opLen op) = some w → let sent : Out := .toGuest g (thimGbase p g w + (off - thimPbase p g w)) op
        (∀ st d, ans = some (st, d) → Completes cmd s (fun q => puts [sent, .item pg id st, .fromGuest ag st d] p q ∧ keepsBut [.blocks, .out] p q))
        ∧ (ans = none → let us := bits (getReg p pg 0x088) 31 24
          Completes cmd s (fun q => puts [sent] p q ∧ (block q pg).tin = (block p pg).tin + 1
            ∧ thimOf q g = { x with out := x.out ++ [⟨id, ag, off, opLen op, p.count + (if us = 0 then 16 else us) * 1000⟩] } ∧ keepsBut [.blocks, .out, .thims] p q))))
    ∧ (let due (o : Outbound) : Bool := o.id == id && decide (o.deadline ≤ p.count)
      (x.out.find? due = none → Completes (.outboundReplyTimeout g id) s (fun q => keepsBut [] p q))
      ∧ (∀ o, x.out.find? due = some o → Completes (.outboundReplyTimeout g id) s (fun q => (thimOf q g).out = x.out.filter (fun e => e.id != id)
          ∧ puts [.item pg id Status.unknownNoAck, .fromGuest o.agent Status.unknownNoAck []] p q ∧ keepsBut [.thims, .blocks, .out] p q))))
  ∧ (∀ (s : State) (ag : Agent) (g : Fin 2) (slot : Fin 16), let p := s.pkg
    let pg := Page.thim g
    let open_ := inService p pg = true ∧ stateOf p pg ≠ .off
    let writes := (ag = .guest g ∧ slot.val < 8) ∨ (((∃ k, ag = .reeve k) ∨ ag = .debug) ∧ 8 ≤ slot.val)
    let reads := (ag = .guest g ∧ 8 ≤ slot.val) ∨ (((∃ k, ag = .reeve k) ∨ ag = .debug) ∧ slot.val < 8)
    (open_ → writes → Completes (.mbDoorbellSet ag g slot) s (fun q => bit (getReg q pg 0x098) slot.val = true
      ∧ puts [.doorbell g (decide (8 ≤ slot.val)) (slot.val % 8)] p q ∧ (slot.val < 8 → hasEvent q pg 20)
      ∧ regsBut [(pg, 0x098)] p q ∧ keepsBut [.regs, .blocks, .alerts, .out] p q))
    ∧ (¬(open_ ∧ writes) → Completes (.mbDoorbellSet ag g slot) s (fun q => keepsBut [] p q))
    ∧ (open_ → reads → Completes (.mbDoorbellClear ag g slot) s (fun q => bit (getReg q pg 0x098) slot.val = false
      ∧ regsBut [(pg, 0x098)] p q ∧ keepsBut [.regs] p q))
    ∧ (¬(open_ ∧ reads) → Completes (.mbDoorbellClear ag g slot) s (fun q => keepsBut [] p q)))

/-- POWER_GOOD_ACCEPT 60 µs to 1.01 ms after its enable powers the domain up, its pages DISABLED; else it changes nothing. RAIL_FAULT 1 ms after an enable with no
power-good lowers the enable, bars the domain and records it. POWER_GOOD_FALL with its enable high: of VHRT or VIO resets the package with cause 0x3; of a guest's supply
takes its link DOWN; of a die or its optics cuts it, recorded, to be raised once more after 1 s, and at the second loss within 24 h bars it; of HD cuts every die and HD
and lowers every enable; of a stack loses its contents. RAIL_ENABLE_STEP under Caselm, 1 ms after the last rise, raises every enable of the next group that may rise; with
none left the guest supplies, and then their resets. RAIL_RERAISE raises a lost rail 1 s later, HD's without Caselm, a cut stack's once it is cool. RST_N_ASSERT resets the
package with cause 0x2, and REFCLK_LOSS with 0x3; both keep the flash, the fuses and the non-volatile record. -/
def Obligations.PinsRailsAndResets : Prop :=
  let isReset (p q : Pkg) (cause : Nat) : Prop := (cause ≠ 3 → q.dbg.ir = p.dbg.ir ∧ q.dbg.boundary = p.dbg.boundary) ∧ q.boot.stage = .held ∧ q.boot.cause = cause ∧ q.boot.count = (if cause = 3 then 0 else min 65535 (p.boot.count + 1))
    ∧ q.boot.flash = p.boot.flash ∧ q.boot.counter = p.boot.counter ∧ q.boot.revoked = p.boot.revoked ∧ q.nvRecords = p.nvRecords ∧ q.nvPending = []
    ∧ q.spares = p.spares ∧ q.retired = p.retired ∧ q.out = p.out ∧ q.mem = [] ∧ q.ctxs = [] ∧ q.serving = false ∧ q.quarantined = false
    ∧ (∀ d g, d ∈ allDomains → g ∈ domainPages d → stateOf q g = .off) ∧ (∀ off, getReg q .fuse off = getReg p .fuse off)
    ∧ (∀ n, (stackOf q n).tripped = (stackOf p n).tripped)
  (∀ s : State, let p := s.pkg
    (p.stackUnits.map (fun e => e.1)).Nodup → Completes .rstNAssert s (fun q => isReset p q 0x02) ∧ Completes .refclkLoss s (fun q => isReset p q 0x03)
      ∧ Completes (.powerGoodFall .always) s (fun q => isReset p q 0x03))
  ∧ (∀ (s : State) (d : Domain) (ok : Bool), let p := s.pkg
    let good := p.pins.good.contains d = true
    (Map.look p.pins.en d = none ∨ good → Completes (.powerGoodAccept d ok) s (fun q => keepsBut [] p q))
    ∧ (∀ t, Map.look p.pins.en d = some t → ¬good →
      (p.count < t + 60000 ∨ t + 1010000 < p.count → Completes (.powerGoodAccept d ok) s (fun q => keepsBut [] p q))
      ∧ (t + 60000 ≤ p.count → p.count ≤ t + 1010000 → Completes (.powerGoodAccept d ok) s (fun q => d ∈ q.pins.good ∧ d ∉ q.pw.cut
          ∧ Map.look q.pins.en d = some t ∧ (∀ g, g ∈ domainPages d → stateOf p g = .off → stateOf q g = .disabled)
          ∧ (∀ k, d = .die k → dieState q k = if dieState p k = 2 then 0 else dieState p k)
          ∧ (d = .hub → p.pw.p3 = true → q.pw.p3 = false ∧ q.boot = { p.boot with stage := .hearth, at_ := p.count, cause := 0x06 })
          ∧ (d ≠ .hub ∨ p.pw.p3 = false → q.boot = p.boot))))
    ∧ (Map.look p.pins.en d = none ∨ good → Completes (.railFault d) s (fun q => keepsBut [] p q))
    ∧ (∀ t, Map.look p.pins.en d = some t → ¬good →
      (p.count < t + 1000000 → Completes (.railFault d) s (fun q => keepsBut [] p q))
      ∧ (t + 1000000 ≤ p.count → Completes (.railFault d) s (fun q => Map.look q.pins.en d = none ∧ d ∈ q.pins.barred
          ∧ (∃ r, r ∈ q.nvPending ∧ r.type = 0 ∧ r.code = 0x0124) ∧ keepsBut [.pins, .regs, .blocks, .alerts, .records, .nvPending] p q))))
  ∧ (∀ s : State, let p := s.pkg
    let up (d : Domain) : Prop := p.pins.good.contains d = true ∧ (Map.look p.pins.en d).isSome = true
    let old (d : Domain) : List Nat := (Map.getD p.pins.losses d []).filter (fun t => decide (p.count < t + 86400000000000))
    let lost (d : Domain) (q : Pkg) : Prop := Map.look q.pins.en d = none ∧ d ∉ q.pins.good ∧ d ∈ q.pw.cut
      ∧ (old d = [] → Map.look q.pins.again d = some (p.count + 1000000000)) ∧ (old d ≠ [] → d ∈ q.pins.barred)
      ∧ ∃ r, r ∈ q.nvPending ∧ r.type = 0x06 ∧ r.code = 0x0125
    (∀ g, p.pins.guestEn.contains g = false → Completes (.powerGoodFall (.guest g)) s (fun q => keepsBut [] p q))
    ∧ (∀ g, p.pins.guestEn.contains g = true → Completes (.powerGoodFall (.guest g)) s (fun q => (stitchOf q (.guest g)).lstate = 0
        ∧ g ∉ q.pins.guestOut ∧ (stateOf p (.thim g) ≠ .off → isIn q (.thim g) .fault 0x09)))
    ∧ (∀ d, ¬up d → Completes (.powerGoodFall (.domain d)) s (fun q => keepsBut [] p q))
    ∧ (up .hub → Completes (.powerGoodFall (.domain .hub)) s (fun q => q.pins.en = [] ∧ q.pins.good = [] ∧ q.pins.guestEn = [] ∧ q.pins.guestOut = []
        ∧ q.pins.again = [(.hub, p.count + 1000000000)] ∧ q.pw.p3 = true ∧ q.pw.trans = none ∧ q.pins.fault = true
        ∧ (p.pw.cut.contains .hub = false → ∀ g, g ∈ domainPages .hub → stateOf q g = .off)))
    ∧ (∀ k, up (.die k) → Completes (.powerGoodFall (.domain (.die k))) s (fun q => lost (.die k) q ∧ (∀ g, g ∈ domainPages (.die k) → stateOf q g = .off)
        ∧ (p.serving = true → q.quarantined = true)))
    ∧ (∀ k, up (.optics k) → Completes (.powerGoodFall (.domain (.optics k))) s (fun q => lost (.optics k) q ∧ (∀ g, g ∈ domainPages (.optics k) → stateOf q g = .off)))
    ∧ (∀ n, up (.stack n) → Completes (.powerGoodFall (.domain (.stack n))) s (fun q => (stackOf q n).railCut = true ∧ Map.look q.pins.en (.stack n) = none
        ∧ (∀ a, a < 2 ^ 36 → memByte q (n.val * 2 ^ 36 + a) = 0))))
  ∧ (∀ s : State, let p := s.pkg
    let last := (p.pins.en.filter (fun e => e.1 != .hub)).foldl (fun m e => max m e.2) 0
    let runs := p.boot.stage = .caselm ∧ p.pw.p3 = false ∧ p.pw.trans.any (fun t => t.running) = false ∧ (last = 0 ∨ last + 1000000 ≤ p.count)
    let sites := (List.finRange 2).filter (fun g => siteFitted p g)
    (¬runs → Completes .railEnableStep s (fun q => keepsBut [] p q))
    ∧ (∀ l, runs → enableGroups.find? (fun g => g.any (mayRaise p)) = some l → Completes .railEnableStep s (fun q =>
        (∀ d, d ∈ l → mayRaise p d = true → Map.look q.pins.en d = some p.count) ∧ (∀ d, d ∉ l ∨ mayRaise p d = false → Map.look q.pins.en d = Map.look p.pins.en d)
        ∧ keepsBut [.pins] p q))
    ∧ (runs → enableGroups.find? (fun g => g.any (mayRaise p)) = none →
      ((∃ g, g ∈ sites ∧ p.pins.guestEn.contains g = false) → Completes .railEnableStep s (fun q => q.pins.guestEn = sites ∧ q.pins.guestAt = p.count
          ∧ q.pins.en = p.pins.en ∧ q.pins.guestOut = p.pins.guestOut ∧ keepsBut [.pins] p q))
      ∧ ((∀ g, g ∈ sites → p.pins.guestEn.contains g = true) → p.count < p.pins.guestAt + 1000000 → Completes .railEnableStep s (fun q => keepsBut [] p q))
      ∧ ((∀ g, g ∈ sites → p.pins.guestEn.contains g = true) → p.pins.guestAt + 1000000 ≤ p.count → Completes .railEnableStep s (fun q =>
          q.pins.guestOut = sites.filter (fun g => stateOf p (.thim g) != .fault) ∧ q.pins.en = p.pins.en ∧ keepsBut [.pins] p q))))
  ∧ (∀ (s : State) (d : Domain), let p := s.pkg
    let due := ∃ t, Map.look p.pins.again d = some t ∧ t ≤ p.count ∧ (d = .hub ∨ p.boot.stage = .caselm)
    (∀ n, d = .stack n → let cool := (stackOf p n).railCut = true ∧ Map.look p.pins.en d = none ∧ p.boot.stage = .caselm
        ∧ ∃ t, (stackOf p n).coolAt = some t ∧ t + 10000000000 ≤ p.count
      (cool → Completes (.railReraise d) s (fun q => Map.look q.pins.en d = some p.count ∧ keepsBut [.pins] p q))
      ∧ (¬cool → Completes (.railReraise d) s (fun q => keepsBut [] p q)))
    ∧ ((∀ n, d ≠ .stack n) →
      (due → Completes (.railReraise d) s (fun q => Map.look q.pins.en d = some p.count ∧ Map.look q.pins.again d = none ∧ keepsBut [.pins] p q))
      ∧ (¬due → Completes (.railReraise d) s (fun q => keepsBut [] p q))))

/-- A whole request of a row's op with its CRC right, at a powered HD and no access under way, is done and answered, or its answer waits for DEBUG_ACCESS_TIMEOUT, which
100 µs later sends unknown.no_ack; a wrong CRC is answered failed.crc, a reserved op failed.opcode; anything else changes nothing. DEBUG_IDENT gives PART_ID in every
scope; READ32, WRITE32 and READ_LINE do the access as the debug port, refused.locked where the scope does not grant it. DEBUG_FRAMING_RESET drops the pending answer.
DMI_ACCESS reads a register of the debug module and writes one: dmstatus takes no write, abstractcs clears
its error, sbcs takes its fields and clears its error, and sbdata0 with a system bus access that may not start leaves the reason in sbcs. SEQ_HALT, SEQ_RESUME and SEQ_STEP on the selected context stop its issue, free it past the breakpoint it stands
on, or let it issue one instruction; with no context selected they change only the access count. The TAP shifts IDCODE out, samples and preloads the 114 stages, and
acts as BYPASS; EXTEST, CLAMP and HIGHZ act while RST_N is low or scope bit 5 is granted, and else act as BYPASS with jtag_refused. The layout of the debug module is
that of RISC-V debug 0.13.2 (log entry 20). -/
def Obligations.DebugPortSequencersAndTap : Prop :=
  (∀ (s : State) (r : List Bool) (done : Bool), let p := s.pkg
    let heard := portSilent p = false ∧ p.dbg.pending = none ∧ r.length = reqBits (reqOp r)
    let rows : List (Instr × Bool) := [(.debugIdent r, !(2 ≤ reqOp r && reqOp r ≤ 4)), (.debugRead32 r done, reqOp r == 2), (.debugWrite32 r done, reqOp r == 3),
      (.debugReadLine r done, reqOp r == 4)]
    (∀ i mine, (i, mine) ∈ rows →
      (¬heard ∨ mine = false → Completes i s (fun q => keepsBut [] p q))
      ∧ (heard → mine = true → reqCrcOk r = false → Completes i s (fun q => let z := List.replicate (if reqOp r = 4 then 64 else 4) 0
          puts [.debug Status.failedCrc z (respCrc Status.failedCrc z)] p q ∧ keepsBut [.out] p q)))
    ∧ (heard → reqCrcOk r = true → (reqOp r = 0 ∨ 4 < reqOp r) → Completes (.debugIdent r) s (fun q => let z := List.replicate 4 0
        puts [.debug Status.failedOpcode z (respCrc Status.failedOpcode z)] p q ∧ keepsBut [.out] p q))
    ∧ (heard → reqCrcOk r = true → reqOp r = 1 → Completes (.debugIdent r) s (fun q => let b := leBytes 4 (getReg p .fuse 0x080).toNat
        puts [.debug Status.done b (respCrc Status.done b)] p q ∧ keepsBut [.out, .regs, .blocks] p q))
    ∧ (∀ x st v, heard → reqCrcOk r = true → reqOp r = 2 → agentRead p .debug (reqAddr r) = (x, st, v) → let b := respData st (leBytes 4 v.toNat)
        (done = true → Completes (.debugRead32 r done) s (fun q => q.out = x.out ++ [.debug st b (respCrc st b)] ∧ keepsBut [.out] x q))
        ∧ (done = false → Completes (.debugRead32 r done) s (fun q => q.dbg.pending = some ⟨Status.unknownNoAck, List.replicate 4 0, x.count⟩ ∧ keepsBut [.dbg] x q)))
    ∧ (∀ x st, heard → reqCrcOk r = true → reqOp r = 3 → agentWrite p .debug (reqAddr r) (reqData r) = (x, st) → let b := List.replicate 4 (0 : Byte)
        (done = true → Completes (.debugWrite32 r done) s (fun q => q.out = x.out ++ [.debug st b (respCrc st b)] ∧ keepsBut [.out] x q))
        ∧ (done = false → Completes (.debugWrite32 r done) s (fun q => q.dbg.pending = some ⟨Status.unknownNoAck, b, x.count⟩ ∧ keepsBut [.dbg] x q)))
    ∧ (heard → reqCrcOk r = true → reqOp r = 4 → rangeOf (reqAddr r) = .dram → let a := reqAddr r
        (debugLocked p (some 3) = true → Completes (.debugReadLine r true) s (fun q => let z := List.replicate 64 0
          q.out.getLast? = some (.debug Status.refusedLocked z (respCrc Status.refusedLocked z)) ∧ q.mem = p.mem))
        ∧ (debugLocked p (some 3) = false → a % 64 = 0 → pairOk p (.memc 0) 0x090 = true → (checkAccess p .debug a 64).2 = Status.done →
          let st := if localPoisoned p a 64 = true then Status.donePoisoned else Status.done
          let b := respData st (readLocal p a 64)
          Completes (.debugReadLine r true) s (fun q => puts [.debug st b (respCrc st b)] p q ∧ keepsBut [.out, .regs, .blocks] p q))))
  ∧ (∀ s : State, let p := s.pkg
    ((∀ x, p.dbg.pending = some x → p.count < x.at_ + 100000) → Completes .debugAccessTimeout s (fun q => keepsBut [] p q))
    ∧ (∀ x, p.dbg.pending = some x → x.at_ + 100000 ≤ p.count → let b := respData x.status x.data
        Completes .debugAccessTimeout s (fun q => q.dbg = { p.dbg with pending := none } ∧ puts [.debug x.status b (respCrc x.status b)] p q ∧ keepsBut [.dbg, .out] p q))
    ∧ Completes .debugFramingReset s (fun q => q.dbg = { p.dbg with pending := none } ∧ keepsBut [.dbg] p q))
  ∧ (∀ (s : State) (ag : Agent) (a : Fin 128) (v : Word), let p := s.pkg
    let only (q : Pkg) : Prop := q.dbg = { p.dbg with dmi := q.dbg.dmi } ∧ keepsBut [.dbg, .regs, .blocks] p q
    let others (q : Pkg) : Prop := ∀ b, b ≠ a.val → dmi q b = dmi p b
    letThrough true p ag .dbg (0x400 + 4 * a.val) →
      (a.val ∉ [0x10, 0x11, 0x16, 0x17, 0x38, 0x39, 0x3C] ∨ (a.val = 0x39 ∧ bit (dmi p 0x38) 20 = false) →
        Completes (.dmiAccess ag a (some v)) s (fun q => dmi q a.val = v ∧ others q ∧ only q))
      ∧ (a.val = 0x11 → Completes (.dmiAccess ag a (some v)) s (fun q => keepsBut [.regs, .blocks] p q))
      ∧ (a.val = 0x16 → Completes (.dmiAccess ag a (some v)) s (fun q => dmi q 0x16 = dmi p 0x16 &&& ~~~(v &&& 0x700#32) ∧ others q ∧ only q))
      ∧ (a.val = 0x38 → Completes (.dmiAccess ag a (some v)) s (fun q => dmi q 0x38 = (v &&& 0x001F8000#32) ||| (dmi p 0x38 &&& ~~~v &&& 0x7000#32) ∧ others q ∧ only q))
      ∧ (∀ e, a.val = 0x3C → sbBlocked p = some e → Completes (.dmiAccess ag a (some v)) s (fun q => dmi q 0x3C = v
          ∧ dmi q 0x38 = (dmi p 0x38 &&& 0xFFFF8FFF#32 ||| BitVec.ofNat 32 (e * 2 ^ 12)) ∧ (∀ b, b ≠ 0x3C → b ≠ 0x38 → dmi q b = dmi p b) ∧ only q)))
  ∧ (∀ (s : State) (ag : Agent) (a : Fin 128), let p := s.pkg
    let off := 0x400 + 4 * a.val
    letThrough false p ag .dbg off → stateOf p .dbg ≠ .off → a.val ≠ 0x3C ∨ bit (dmi p 0x38) 15 = false →
      Completes (.dmiAccess ag a none) s (fun q => puts [.access ag Status.done (regView p .dbg off)] p q ∧ keepsBut [.out, .regs, .blocks] p q))
  ∧ (∀ (s : State) (ag : Agent), let p := s.pkg
    let acts (i : Instr) (f : Ctx → Ctx) : Prop := letThrough true p ag .dbg 0x094 →
      (∀ c, seqCtx p = some c → Completes i s (fun q => ctxOf q c = f (ctxOf p c) ∧ ctxsBut [c] p q ∧ keepsBut [.ctxs, .regs, .blocks] p q))
      ∧ (seqCtx p = none → Completes i s (fun q => keepsBut [.regs, .blocks] p q))
    acts (.seqHalt ag) (fun x => if x.halted = true then x else { x with halted := true, bp := none, stepping := false })
    ∧ acts (.seqResume ag) (fun x => { x with halted := false, bp := none, stepping := false, skipBp := x.bp.isSome })
    ∧ acts (.seqStep ag) (fun x => { x with halted := false, bp := none, stepping := true, skipBp := true }))
  ∧ (∀ (s : State) (levels load : List Bool), let p := s.pkg
    let open_ := p.boot.stage = .held ∨ p.boot.scope.testBit 5 = true
    let id := bits (getReg p .fuse 0x080) 7 4 * 2 ^ 28 + 0x7240 * 2 ^ 12 + Config.jedec.toNat * 2 + 1
    let refused (q : Pkg) : Prop := q.dbg = { p.dbg with ir := 0xFF } ∧ hasEvent q .dbg 18 ∧ keepsBut [.dbg, .blocks, .alerts] p q
    Completes .jtagIdcode s (fun q => puts [.tdo ((List.range 32).map (fun i => bit (BitVec.ofNat 32 id) i))] p q ∧ q.dbg = { p.dbg with ir := 0x01 } ∧ keepsBut [.dbg, .out] p q)
    ∧ Completes (.jtagSamplePreload levels load) s (fun q => puts [.tdo (levels.take 114)] p q ∧ q.dbg = { p.dbg with ir := 0x02, boundary := load.take 114 } ∧ keepsBut [.dbg, .out] p q)
    ∧ Completes .jtagBypass s (fun q => q.dbg = { p.dbg with ir := 0xFF } ∧ keepsBut [.dbg] p q)
    ∧ (open_ → Completes (.jtagExtest load) s (fun q => q.dbg = { p.dbg with ir := 0x03, boundary := load.take 114 } ∧ keepsBut [.dbg] p q)
      ∧ Completes .jtagClamp s (fun q => q.dbg = { p.dbg with ir := 0x04 } ∧ keepsBut [.dbg] p q)
      ∧ Completes .jtagHighz s (fun q => q.dbg = { p.dbg with ir := 0x05 } ∧ keepsBut [.dbg] p q))
    ∧ (¬open_ → Completes (.jtagExtest load) s refused ∧ Completes .jtagClamp s refused ∧ Completes .jtagHighz s refused))

/-- MRG_GO counts a run and starts it where scope bit 6 is granted, no manifest is in force, no run is busy and the target is ready; else it ends at once with the first
failing check's status. A Stitch run takes its module out of service. MARGIN_POINT_DONE gives every lane that fails for the first time the steps it passed as its edge, and
goes on to the next step; with every lane under test failed or the range reached, a lane that never failed has the range, and the high side follows the low one. A stack's or
a Stitch link's lanes are tested together, an optical port's one at a time in ascending order. A wrong lock of the ring under test ends the run failed.relock, a target out of its condition failed.disabled. MARGIN_RUN_END, with both sides swept, ends the run done with the edges of both
sides; a stack run rewrites the lines that it wrote in its channel as zero and no other, at an early end too, where the lines written are a free value (log entry 53). MRG_ABORT ends it failed.disabled. The end raises its event, ends the item, and lets
a held enable of the stack take effect. -/
def Obligations.MarginRunsSweepBothSides : Prop :=
  let ends (m : Margin) (st : Status) (p q : Pkg) : Prop :=
    (m.held = none → q.dbg = { p.dbg with margin := none, status := st, valid := st == Status.done, edges := q.dbg.edges } ∧ puts [.item .dbg 0 st] p q
        ∧ hasEvent q .dbg 19 ∧ regsBut [(.dbg, 0x200), (.dbg, 0x204)] p q ∧ blocksBut [.dbg] p q
        ∧ keepsBut [.dbg, .out, .regs, .blocks, .alerts, .mem, .poison, .free] p q)
    ∧ (∀ v n, m.held = some v → stackNo (bits m.tgt 29 22) = some n → bits v 1 0 = 1 → inService p (.memc n) = true → stateOf p (.memc n) = .disabled →
        q.dbg.margin = none ∧ q.dbg.status = st ∧ stateOf q (.memc n) = .enabling)
  let early (m : Margin) (p q : Pkg) : Prop := m.held = none → q.dbg.edges = p.dbg.edges
    ∧ (bits m.tgt 31 30 ≠ 0 → q.mem = p.mem)
    ∧ (∀ n, Memory.wf p.mem = true → bits m.tgt 31 30 = 0 → stackNo (bits m.tgt 29 22) = some n →
        let mine (a : Nat) : Prop := ∃ x, x < 2 ^ 36 ∧ chanOf x = bits m.tgt 21 17 ∧ n.val * 2 ^ 36 + x / 64 * 64 ≤ a ∧ a < n.val * 2 ^ 36 + x / 64 * 64 + 64
        memBut mine p q ∧ ∀ a, mine a → memByte q a = 0 ∨ memByte q a = memByte p a)
  (∀ (s : State) (ag : Agent), let p := s.pkg
    let tgt := getReg p .dbg 0x100
    let m : Margin := ⟨tgt, getReg p .dbg 0x108, false, 1, [], [], p.count, none, 0, []⟩
    let can := p.boot.scope.testBit 6 = true ∧ p.serving = false ∧ p.dbg.margin = none ∧ targetReady p tgt false = true
    let no (st : Status) : Prop := Completes (.mrgGo ag) s (fun q => q.dbg = { p.dbg with status := st } ∧ puts [.item .dbg 0 st] p q ∧ gains 1 p q .dbg 0x210
      ∧ keepsBut [.dbg, .out, .regs, .blocks] p q)
    letThrough true p ag .dbg 0x110 → pairOk p .dbg 0x100 = true → pairOk p .dbg 0x108 = true →
      (p.boot.scope.testBit 6 = false → no Status.refusedLocked)
      ∧ (p.boot.scope.testBit 6 = true → p.serving = true ∨ p.dbg.margin ≠ none → no Status.refusedBusy)
      ∧ (p.boot.scope.testBit 6 = true → p.serving = false → p.dbg.margin = none → targetReady p tgt false = false → no Status.refusedOffline)
      ∧ (can → bits tgt 31 30 ≠ 2 → Completes (.mrgGo ag) s (fun q => q.dbg = { p.dbg with margin := some m, valid := false } ∧ gains 1 p q .dbg 0x210
          ∧ keepsBut [.dbg, .regs, .blocks] p q))
      ∧ (∀ l, can → bits tgt 31 30 = 2 → stitchNo (bits tgt 29 22) = some l → bits tgt 21 17 < linkModules l → (stitchOf p l).mods.testBit (bits tgt 21 17) = true →
          stateOf p (.stch l) ≠ .off → Completes (.mrgGo ag) s (fun q => q.dbg = { p.dbg with margin := some m, valid := false } ∧ gains 1 p q .dbg 0x210
          ∧ (stitchOf q l).mods = (stitchOf p l).mods - 2 ^ bits tgt 21 17 ∧ (stitchOf q l).lstate = 2 ∧ hasEvent q (.stch l) evModOut)))
  ∧ (∀ (s : State) (ag : Agent), let p := s.pkg
    letThrough true p ag .dbg 0x110 →
      (p.dbg.margin = none → Completes (.mrgAbort ag) s (fun q => keepsBut [.regs, .blocks] p q))
      ∧ (∀ m, p.dbg.margin = some m → Completes (.mrgAbort ag) s (fun q => ends m Status.failedDisabled p q ∧ early m p q)))
  ∧ (∀ (s : State) (failed : List Nat) (wrong : Bool), let p := s.pkg
    (p.dbg.margin = none → Completes (.marginPointDone failed wrong) s (fun q => keepsBut [] p q))
    ∧ (∀ m, p.dbg.margin = some m →
      let lanes := testLanes m
      let range := bits m.cfg 15 8
      let ring := wrong = true ∧ bits m.tgt 31 30 = 1
      let goes := ¬ring ∧ targetReady p m.tgt true = true
      let atEnd := (∀ i, i ∈ lanes → (Map.look m.edges i).isSome = true ∨ i ∈ failed) ∨ range ≤ m.step
      let more := bits m.tgt 31 30 = 1 ∧ m.lane + 1 < 16
      let edge (i : Nat) : Nat := Map.getD m.edges i (if i ∈ failed then m.step - 1 else range)
      let next (q : Pkg) (f : Margin → Prop) : Prop := ∃ y, q.dbg = { p.dbg with margin := some y } ∧ y.tgt = m.tgt ∧ y.cfg = m.cfg ∧ y.start = m.start ∧ y.held = m.held
        ∧ f y ∧ keepsBut [.dbg] p q
      (ring → Completes (.marginPointDone failed wrong) s (fun q => ends m Status.failedRelock p q ∧ early m p q))
      ∧ (¬ring → targetReady p m.tgt true = false → Completes (.marginPointDone failed wrong) s (fun q => ends m Status.failedDisabled p q ∧ early m p q))
      ∧ (goes → m.step = 0 → Completes (.marginPointDone failed wrong) s (fun q => keepsBut [] p q))
      ∧ (goes → m.step ≠ 0 → ¬atEnd → Completes (.marginPointDone failed wrong) s (fun q => next q (fun y => y.step = m.step + 1 ∧ y.high = m.high ∧ y.low = m.low
          ∧ y.highs = m.highs ∧ y.lane = m.lane
          ∧ ∀ i, Map.look y.edges i = if (Map.look m.edges i).isSome then Map.look m.edges i else if i ∈ lanes ∧ i ∈ failed then some (m.step - 1) else none)))
      ∧ (goes → m.step ≠ 0 → atEnd → m.high = false → Completes (.marginPointDone failed wrong) s (fun q => next q (fun y => y.step = 1 ∧ y.high = true ∧ y.edges = []
          ∧ y.highs = m.highs ∧ y.lane = m.lane ∧ (∀ i, i ∉ lanes → Map.look y.low i = Map.look m.low i)
          ∧ ∀ i, i ∈ lanes → Map.look m.low i = none → Map.look y.low i = some (edge i))))
      ∧ (goes → m.step ≠ 0 → atEnd → m.high = true → Completes (.marginPointDone failed wrong) s (fun q => next q (fun y => (if more then y.step = 1 ∧ y.high = false ∧ y.lane = m.lane + 1 else y.step = 0 ∧ y.high = true ∧ y.lane = m.lane)
          ∧ y.low = m.low ∧ y.edges = [] ∧ (∀ i, i ∉ lanes → Map.look y.highs i = Map.look m.highs i)
          ∧ ∀ i, i ∈ lanes → Map.look m.highs i = none → Map.look y.highs i = some (edge i))))))
  ∧ (∀ (s : State) (written : List Nat), let p := s.pkg
    (p.dbg.margin = none → Completes (.marginRunEnd written) s (fun q => keepsBut [] p q))
    ∧ (∀ m, p.dbg.margin = some m →
      let kept (q : Pkg) : Prop := ∀ i, i < targetLanes m.tgt → Map.look q.dbg.edges i = some (Map.getD m.low i 0, Map.getD m.highs i 0)
      (m.step ≠ 0 → Completes (.marginRunEnd written) s (fun q => keepsBut [] p q))
      ∧ (m.step = 0 → targetReady p m.tgt true = false → Completes (.marginRunEnd written) s (fun q => ends m Status.failedDisabled p q ∧ early m p q))
      ∧ (m.step = 0 → targetReady p m.tgt true = true → bits m.tgt 31 30 ≠ 0 → Completes (.marginRunEnd written) s (fun q => ends m Status.done p q
          ∧ (m.held = none → kept q ∧ q.mem = p.mem ∧ q.poison = p.poison)))
      ∧ (∀ n, Memory.wf p.mem = true → m.step = 0 → targetReady p m.tgt true = true → bits m.tgt 31 30 = 0 → stackNo (bits m.tgt 29 22) = some n →
          let line (a : Nat) : Prop := ∃ x, x ∈ written ∧ chanOf x = bits m.tgt 21 17 ∧ n.val * 2 ^ 36 + x / 64 * 64 ≤ a ∧ a < n.val * 2 ^ 36 + x / 64 * 64 + 64
          Completes (.marginRunEnd written) s (fun q => ends m Status.done p q
            ∧ (m.held = none → kept q ∧ memBut line p q ∧ ∀ a, line a → memByte q a = 0)))))
end

