-- ==== Sys2Proof/Laws/State.lean ====
section
/-! SUPPORT. What each update of the package leaves: one lemma per part of the package and update, each true by the form of the update. -/
namespace Sys2Proof.Machine
open Sys2Proof

variable (p : Pkg)

@[simp] theorem setReg_bell (g : Page) (o : Nat) (v : Word) : (setReg p g o v).bell = p.bell := rfl
@[simp] theorem setReg_count (g : Page) (o : Nat) (v : Word) : (setReg p g o v).count = p.count := rfl
@[simp] theorem setReg_bellU (g : Page) (o : Nat) (v : Word) : (setReg p g o v).bellU = p.bellU := rfl
@[simp] theorem setReg_ports (g : Page) (o : Nat) (v : Word) : (setReg p g o v).ports = p.ports := rfl
@[simp] theorem setReg_routers (g : Page) (o : Nat) (v : Word) : (setReg p g o v).routers = p.routers := rfl
@[simp] theorem setReg_inbox (g : Page) (o : Nat) (v : Word) : (setReg p g o v).inbox = p.inbox := rfl
@[simp] theorem setReg_budget (g : Page) (o : Nat) (v : Word) : (setReg p g o v).budget = p.budget := rfl
@[simp] theorem setReg_mem (g : Page) (o : Nat) (v : Word) : (setReg p g o v).mem = p.mem := rfl
@[simp] theorem setReg_poison (g : Page) (o : Nat) (v : Word) : (setReg p g o v).poison = p.poison := rfl
@[simp] theorem setReg_ctxs (g : Page) (o : Nat) (v : Word) : (setReg p g o v).ctxs = p.ctxs := rfl
@[simp] theorem setReg_insts (g : Page) (o : Nat) (v : Word) : (setReg p g o v).insts = p.insts := rfl
@[simp] theorem setReg_stores (g : Page) (o : Nat) (v : Word) : (setReg p g o v).stores = p.stores := rfl
@[simp] theorem setReg_wins (g : Page) (o : Nat) (v : Word) : (setReg p g o v).wins = p.wins := rfl
@[simp] theorem setReg_engines (g : Page) (o : Nat) (v : Word) : (setReg p g o v).engines = p.engines := rfl
@[simp] theorem setReg_creqs (g : Page) (o : Nat) (v : Word) : (setReg p g o v).creqs = p.creqs := rfl
@[simp] theorem setReg_atomWins (g : Page) (o : Nat) (v : Word) : (setReg p g o v).atomWins = p.atomWins := rfl
@[simp] theorem setReg_ledgers (g : Page) (o : Nat) (v : Word) : (setReg p g o v).ledgers = p.ledgers := rfl
@[simp] theorem setReg_fences (g : Page) (o : Nat) (v : Word) : (setReg p g o v).fences = p.fences := rfl
@[simp] theorem setReg_quarantined (g : Page) (o : Nat) (v : Word) : (setReg p g o v).quarantined = p.quarantined := rfl
@[simp] theorem setReg_bobs (g : Page) (o : Nat) (v : Word) : (setReg p g o v).bobs = p.bobs := rfl
@[simp] theorem setReg_wells (g : Page) (o : Nat) (v : Word) : (setReg p g o v).wells = p.wells := rfl
@[simp] theorem setReg_spares (g : Page) (o : Nat) (v : Word) : (setReg p g o v).spares = p.spares := rfl
@[simp] theorem setReg_retired (g : Page) (o : Nat) (v : Word) : (setReg p g o v).retired = p.retired := rfl
@[simp] theorem setReg_nextSeq (g : Page) (o : Nat) (v : Word) : (setReg p g o v).nextSeq = p.nextSeq := rfl
@[simp] theorem setReg_nextId (g : Page) (o : Nat) (v : Word) : (setReg p g o v).nextId = p.nextId := rfl
@[simp] theorem setReg_records (g : Page) (o : Nat) (v : Word) : (setReg p g o v).records = p.records := rfl
@[simp] theorem setReg_nvPending (g : Page) (o : Nat) (v : Word) : (setReg p g o v).nvPending = p.nvPending := rfl
@[simp] theorem setReg_nvRecords (g : Page) (o : Nat) (v : Word) : (setReg p g o v).nvRecords = p.nvRecords := rfl
@[simp] theorem setReg_boots (g : Page) (o : Nat) (v : Word) : (setReg p g o v).boots = p.boots := rfl
@[simp] theorem setReg_serving (g : Page) (o : Nat) (v : Word) : (setReg p g o v).serving = p.serving := rfl
@[simp] theorem setReg_pw (g : Page) (o : Nat) (v : Word) : (setReg p g o v).pw = p.pw := rfl
@[simp] theorem setReg_stackUnits (g : Page) (o : Nat) (v : Word) : (setReg p g o v).stackUnits = p.stackUnits := rfl
@[simp] theorem setReg_mills (g : Page) (o : Nat) (v : Word) : (setReg p g o v).mills = p.mills := rfl
@[simp] theorem setReg_sels (g : Page) (o : Nat) (v : Word) : (setReg p g o v).sels = p.sels := rfl
@[simp] theorem setReg_selPorts (g : Page) (o : Nat) (v : Word) : (setReg p g o v).selPorts = p.selPorts := rfl
@[simp] theorem setReg_rv (g : Page) (o : Nat) (v : Word) : (setReg p g o v).rv = p.rv := rfl
@[simp] theorem setReg_boot (g : Page) (o : Nat) (v : Word) : (setReg p g o v).boot = p.boot := rfl
@[simp] theorem setReg_pins (g : Page) (o : Nat) (v : Word) : (setReg p g o v).pins = p.pins := rfl
@[simp] theorem setReg_stitches (g : Page) (o : Nat) (v : Word) : (setReg p g o v).stitches = p.stitches := rfl
@[simp] theorem setReg_thims (g : Page) (o : Nat) (v : Word) : (setReg p g o v).thims = p.thims := rfl
@[simp] theorem setReg_dbg (g : Page) (o : Nat) (v : Word) : (setReg p g o v).dbg = p.dbg := rfl
@[simp] theorem setReg_lost (g : Page) (o : Nat) (v : Word) : (setReg p g o v).lost = p.lost := rfl
@[simp] theorem setReg_out (g : Page) (o : Nat) (v : Word) : (setReg p g o v).out = p.out := rfl
@[simp] theorem setReg_free (g : Page) (o : Nat) (v : Word) : (setReg p g o v).free = p.free := rfl

@[simp] theorem setEntry_bell (g : Page) (t i : Nat) (v : Word) : (setEntry p g t i v).bell = p.bell := rfl
@[simp] theorem setEntry_count (g : Page) (t i : Nat) (v : Word) : (setEntry p g t i v).count = p.count := rfl
@[simp] theorem setEntry_bellU (g : Page) (t i : Nat) (v : Word) : (setEntry p g t i v).bellU = p.bellU := rfl
@[simp] theorem setEntry_ports (g : Page) (t i : Nat) (v : Word) : (setEntry p g t i v).ports = p.ports := rfl
@[simp] theorem setEntry_routers (g : Page) (t i : Nat) (v : Word) : (setEntry p g t i v).routers = p.routers := rfl
@[simp] theorem setEntry_inbox (g : Page) (t i : Nat) (v : Word) : (setEntry p g t i v).inbox = p.inbox := rfl
@[simp] theorem setEntry_budget (g : Page) (t i : Nat) (v : Word) : (setEntry p g t i v).budget = p.budget := rfl
@[simp] theorem setEntry_mem (g : Page) (t i : Nat) (v : Word) : (setEntry p g t i v).mem = p.mem := rfl
@[simp] theorem setEntry_poison (g : Page) (t i : Nat) (v : Word) : (setEntry p g t i v).poison = p.poison := rfl
@[simp] theorem setEntry_ctxs (g : Page) (t i : Nat) (v : Word) : (setEntry p g t i v).ctxs = p.ctxs := rfl
@[simp] theorem setEntry_insts (g : Page) (t i : Nat) (v : Word) : (setEntry p g t i v).insts = p.insts := rfl
@[simp] theorem setEntry_stores (g : Page) (t i : Nat) (v : Word) : (setEntry p g t i v).stores = p.stores := rfl
@[simp] theorem setEntry_wins (g : Page) (t i : Nat) (v : Word) : (setEntry p g t i v).wins = p.wins := rfl
@[simp] theorem setEntry_engines (g : Page) (t i : Nat) (v : Word) : (setEntry p g t i v).engines = p.engines := rfl
@[simp] theorem setEntry_creqs (g : Page) (t i : Nat) (v : Word) : (setEntry p g t i v).creqs = p.creqs := rfl
@[simp] theorem setEntry_atomWins (g : Page) (t i : Nat) (v : Word) : (setEntry p g t i v).atomWins = p.atomWins := rfl
@[simp] theorem setEntry_ledgers (g : Page) (t i : Nat) (v : Word) : (setEntry p g t i v).ledgers = p.ledgers := rfl
@[simp] theorem setEntry_fences (g : Page) (t i : Nat) (v : Word) : (setEntry p g t i v).fences = p.fences := rfl
@[simp] theorem setEntry_quarantined (g : Page) (t i : Nat) (v : Word) : (setEntry p g t i v).quarantined = p.quarantined := rfl
@[simp] theorem setEntry_bobs (g : Page) (t i : Nat) (v : Word) : (setEntry p g t i v).bobs = p.bobs := rfl
@[simp] theorem setEntry_wells (g : Page) (t i : Nat) (v : Word) : (setEntry p g t i v).wells = p.wells := rfl
@[simp] theorem setEntry_spares (g : Page) (t i : Nat) (v : Word) : (setEntry p g t i v).spares = p.spares := rfl
@[simp] theorem setEntry_retired (g : Page) (t i : Nat) (v : Word) : (setEntry p g t i v).retired = p.retired := rfl
@[simp] theorem setEntry_nextSeq (g : Page) (t i : Nat) (v : Word) : (setEntry p g t i v).nextSeq = p.nextSeq := rfl
@[simp] theorem setEntry_nextId (g : Page) (t i : Nat) (v : Word) : (setEntry p g t i v).nextId = p.nextId := rfl
@[simp] theorem setEntry_records (g : Page) (t i : Nat) (v : Word) : (setEntry p g t i v).records = p.records := rfl
@[simp] theorem setEntry_nvPending (g : Page) (t i : Nat) (v : Word) : (setEntry p g t i v).nvPending = p.nvPending := rfl
@[simp] theorem setEntry_nvRecords (g : Page) (t i : Nat) (v : Word) : (setEntry p g t i v).nvRecords = p.nvRecords := rfl
@[simp] theorem setEntry_boots (g : Page) (t i : Nat) (v : Word) : (setEntry p g t i v).boots = p.boots := rfl
@[simp] theorem setEntry_serving (g : Page) (t i : Nat) (v : Word) : (setEntry p g t i v).serving = p.serving := rfl
@[simp] theorem setEntry_pw (g : Page) (t i : Nat) (v : Word) : (setEntry p g t i v).pw = p.pw := rfl
@[simp] theorem setEntry_stackUnits (g : Page) (t i : Nat) (v : Word) : (setEntry p g t i v).stackUnits = p.stackUnits := rfl
@[simp] theorem setEntry_mills (g : Page) (t i : Nat) (v : Word) : (setEntry p g t i v).mills = p.mills := rfl
@[simp] theorem setEntry_sels (g : Page) (t i : Nat) (v : Word) : (setEntry p g t i v).sels = p.sels := rfl
@[simp] theorem setEntry_selPorts (g : Page) (t i : Nat) (v : Word) : (setEntry p g t i v).selPorts = p.selPorts := rfl
@[simp] theorem setEntry_rv (g : Page) (t i : Nat) (v : Word) : (setEntry p g t i v).rv = p.rv := rfl
@[simp] theorem setEntry_boot (g : Page) (t i : Nat) (v : Word) : (setEntry p g t i v).boot = p.boot := rfl
@[simp] theorem setEntry_pins (g : Page) (t i : Nat) (v : Word) : (setEntry p g t i v).pins = p.pins := rfl
@[simp] theorem setEntry_stitches (g : Page) (t i : Nat) (v : Word) : (setEntry p g t i v).stitches = p.stitches := rfl
@[simp] theorem setEntry_thims (g : Page) (t i : Nat) (v : Word) : (setEntry p g t i v).thims = p.thims := rfl
@[simp] theorem setEntry_dbg (g : Page) (t i : Nat) (v : Word) : (setEntry p g t i v).dbg = p.dbg := rfl
@[simp] theorem setEntry_lost (g : Page) (t i : Nat) (v : Word) : (setEntry p g t i v).lost = p.lost := rfl
@[simp] theorem setEntry_out (g : Page) (t i : Nat) (v : Word) : (setEntry p g t i v).out = p.out := rfl
@[simp] theorem setEntry_free (g : Page) (t i : Nat) (v : Word) : (setEntry p g t i v).free = p.free := rfl

@[simp] theorem setBlock_bell (g : Page) (b : Block) : (setBlock p g b).bell = p.bell := rfl
@[simp] theorem setBlock_count (g : Page) (b : Block) : (setBlock p g b).count = p.count := rfl
@[simp] theorem setBlock_bellU (g : Page) (b : Block) : (setBlock p g b).bellU = p.bellU := rfl
@[simp] theorem setBlock_ports (g : Page) (b : Block) : (setBlock p g b).ports = p.ports := rfl
@[simp] theorem setBlock_routers (g : Page) (b : Block) : (setBlock p g b).routers = p.routers := rfl
@[simp] theorem setBlock_inbox (g : Page) (b : Block) : (setBlock p g b).inbox = p.inbox := rfl
@[simp] theorem setBlock_budget (g : Page) (b : Block) : (setBlock p g b).budget = p.budget := rfl
@[simp] theorem setBlock_mem (g : Page) (b : Block) : (setBlock p g b).mem = p.mem := rfl
@[simp] theorem setBlock_poison (g : Page) (b : Block) : (setBlock p g b).poison = p.poison := rfl
@[simp] theorem setBlock_ctxs (g : Page) (b : Block) : (setBlock p g b).ctxs = p.ctxs := rfl
@[simp] theorem setBlock_insts (g : Page) (b : Block) : (setBlock p g b).insts = p.insts := rfl
@[simp] theorem setBlock_stores (g : Page) (b : Block) : (setBlock p g b).stores = p.stores := rfl
@[simp] theorem setBlock_wins (g : Page) (b : Block) : (setBlock p g b).wins = p.wins := rfl
@[simp] theorem setBlock_engines (g : Page) (b : Block) : (setBlock p g b).engines = p.engines := rfl
@[simp] theorem setBlock_creqs (g : Page) (b : Block) : (setBlock p g b).creqs = p.creqs := rfl
@[simp] theorem setBlock_atomWins (g : Page) (b : Block) : (setBlock p g b).atomWins = p.atomWins := rfl
@[simp] theorem setBlock_ledgers (g : Page) (b : Block) : (setBlock p g b).ledgers = p.ledgers := rfl
@[simp] theorem setBlock_fences (g : Page) (b : Block) : (setBlock p g b).fences = p.fences := rfl
@[simp] theorem setBlock_quarantined (g : Page) (b : Block) : (setBlock p g b).quarantined = p.quarantined := rfl
@[simp] theorem setBlock_bobs (g : Page) (b : Block) : (setBlock p g b).bobs = p.bobs := rfl
@[simp] theorem setBlock_wells (g : Page) (b : Block) : (setBlock p g b).wells = p.wells := rfl
@[simp] theorem setBlock_spares (g : Page) (b : Block) : (setBlock p g b).spares = p.spares := rfl
@[simp] theorem setBlock_retired (g : Page) (b : Block) : (setBlock p g b).retired = p.retired := rfl
@[simp] theorem setBlock_nextSeq (g : Page) (b : Block) : (setBlock p g b).nextSeq = p.nextSeq := rfl
@[simp] theorem setBlock_nextId (g : Page) (b : Block) : (setBlock p g b).nextId = p.nextId := rfl
@[simp] theorem setBlock_records (g : Page) (b : Block) : (setBlock p g b).records = p.records := rfl
@[simp] theorem setBlock_nvPending (g : Page) (b : Block) : (setBlock p g b).nvPending = p.nvPending := rfl
@[simp] theorem setBlock_nvRecords (g : Page) (b : Block) : (setBlock p g b).nvRecords = p.nvRecords := rfl
@[simp] theorem setBlock_boots (g : Page) (b : Block) : (setBlock p g b).boots = p.boots := rfl
@[simp] theorem setBlock_serving (g : Page) (b : Block) : (setBlock p g b).serving = p.serving := rfl
@[simp] theorem setBlock_pw (g : Page) (b : Block) : (setBlock p g b).pw = p.pw := rfl
@[simp] theorem setBlock_stackUnits (g : Page) (b : Block) : (setBlock p g b).stackUnits = p.stackUnits := rfl
@[simp] theorem setBlock_mills (g : Page) (b : Block) : (setBlock p g b).mills = p.mills := rfl
@[simp] theorem setBlock_sels (g : Page) (b : Block) : (setBlock p g b).sels = p.sels := rfl
@[simp] theorem setBlock_selPorts (g : Page) (b : Block) : (setBlock p g b).selPorts = p.selPorts := rfl
@[simp] theorem setBlock_rv (g : Page) (b : Block) : (setBlock p g b).rv = p.rv := rfl
@[simp] theorem setBlock_boot (g : Page) (b : Block) : (setBlock p g b).boot = p.boot := rfl
@[simp] theorem setBlock_pins (g : Page) (b : Block) : (setBlock p g b).pins = p.pins := rfl
@[simp] theorem setBlock_stitches (g : Page) (b : Block) : (setBlock p g b).stitches = p.stitches := rfl
@[simp] theorem setBlock_thims (g : Page) (b : Block) : (setBlock p g b).thims = p.thims := rfl
@[simp] theorem setBlock_dbg (g : Page) (b : Block) : (setBlock p g b).dbg = p.dbg := rfl
@[simp] theorem setBlock_lost (g : Page) (b : Block) : (setBlock p g b).lost = p.lost := rfl
@[simp] theorem setBlock_out (g : Page) (b : Block) : (setBlock p g b).out = p.out := rfl
@[simp] theorem setBlock_free (g : Page) (b : Block) : (setBlock p g b).free = p.free := rfl

@[simp] theorem emit_bell (o : Out) : (emit p o).bell = p.bell := rfl
@[simp] theorem emit_count (o : Out) : (emit p o).count = p.count := rfl
@[simp] theorem emit_rg (o : Out) : (emit p o).rg = p.rg := rfl
@[simp] theorem emit_bellU (o : Out) : (emit p o).bellU = p.bellU := rfl
@[simp] theorem emit_ports (o : Out) : (emit p o).ports = p.ports := rfl
@[simp] theorem emit_routers (o : Out) : (emit p o).routers = p.routers := rfl
@[simp] theorem emit_inbox (o : Out) : (emit p o).inbox = p.inbox := rfl
@[simp] theorem emit_budget (o : Out) : (emit p o).budget = p.budget := rfl
@[simp] theorem emit_mem (o : Out) : (emit p o).mem = p.mem := rfl
@[simp] theorem emit_poison (o : Out) : (emit p o).poison = p.poison := rfl
@[simp] theorem emit_ctxs (o : Out) : (emit p o).ctxs = p.ctxs := rfl
@[simp] theorem emit_insts (o : Out) : (emit p o).insts = p.insts := rfl
@[simp] theorem emit_stores (o : Out) : (emit p o).stores = p.stores := rfl
@[simp] theorem emit_wins (o : Out) : (emit p o).wins = p.wins := rfl
@[simp] theorem emit_engines (o : Out) : (emit p o).engines = p.engines := rfl
@[simp] theorem emit_creqs (o : Out) : (emit p o).creqs = p.creqs := rfl
@[simp] theorem emit_atomWins (o : Out) : (emit p o).atomWins = p.atomWins := rfl
@[simp] theorem emit_ledgers (o : Out) : (emit p o).ledgers = p.ledgers := rfl
@[simp] theorem emit_fences (o : Out) : (emit p o).fences = p.fences := rfl
@[simp] theorem emit_quarantined (o : Out) : (emit p o).quarantined = p.quarantined := rfl
@[simp] theorem emit_bobs (o : Out) : (emit p o).bobs = p.bobs := rfl
@[simp] theorem emit_wells (o : Out) : (emit p o).wells = p.wells := rfl
@[simp] theorem emit_spares (o : Out) : (emit p o).spares = p.spares := rfl
@[simp] theorem emit_retired (o : Out) : (emit p o).retired = p.retired := rfl
@[simp] theorem emit_nextSeq (o : Out) : (emit p o).nextSeq = p.nextSeq := rfl
@[simp] theorem emit_nextId (o : Out) : (emit p o).nextId = p.nextId := rfl
@[simp] theorem emit_records (o : Out) : (emit p o).records = p.records := rfl
@[simp] theorem emit_nvPending (o : Out) : (emit p o).nvPending = p.nvPending := rfl
@[simp] theorem emit_nvRecords (o : Out) : (emit p o).nvRecords = p.nvRecords := rfl
@[simp] theorem emit_boots (o : Out) : (emit p o).boots = p.boots := rfl
@[simp] theorem emit_serving (o : Out) : (emit p o).serving = p.serving := rfl
@[simp] theorem emit_pw (o : Out) : (emit p o).pw = p.pw := rfl
@[simp] theorem emit_stackUnits (o : Out) : (emit p o).stackUnits = p.stackUnits := rfl
@[simp] theorem emit_mills (o : Out) : (emit p o).mills = p.mills := rfl
@[simp] theorem emit_sels (o : Out) : (emit p o).sels = p.sels := rfl
@[simp] theorem emit_selPorts (o : Out) : (emit p o).selPorts = p.selPorts := rfl
@[simp] theorem emit_rv (o : Out) : (emit p o).rv = p.rv := rfl
@[simp] theorem emit_boot (o : Out) : (emit p o).boot = p.boot := rfl
@[simp] theorem emit_pins (o : Out) : (emit p o).pins = p.pins := rfl
@[simp] theorem emit_stitches (o : Out) : (emit p o).stitches = p.stitches := rfl
@[simp] theorem emit_thims (o : Out) : (emit p o).thims = p.thims := rfl
@[simp] theorem emit_dbg (o : Out) : (emit p o).dbg = p.dbg := rfl
@[simp] theorem emit_lost (o : Out) : (emit p o).lost = p.lost := rfl
@[simp] theorem emit_free (o : Out) : (emit p o).free = p.free := rfl

@[simp] theorem setBytes_bell (a : Nat) (bs : List Byte) : (setBytes p a bs).bell = p.bell := rfl
@[simp] theorem setBytes_count (a : Nat) (bs : List Byte) : (setBytes p a bs).count = p.count := rfl
@[simp] theorem setBytes_rg (a : Nat) (bs : List Byte) : (setBytes p a bs).rg = p.rg := rfl
@[simp] theorem setBytes_bellU (a : Nat) (bs : List Byte) : (setBytes p a bs).bellU = p.bellU := rfl
@[simp] theorem setBytes_ports (a : Nat) (bs : List Byte) : (setBytes p a bs).ports = p.ports := rfl
@[simp] theorem setBytes_routers (a : Nat) (bs : List Byte) : (setBytes p a bs).routers = p.routers := rfl
@[simp] theorem setBytes_inbox (a : Nat) (bs : List Byte) : (setBytes p a bs).inbox = p.inbox := rfl
@[simp] theorem setBytes_budget (a : Nat) (bs : List Byte) : (setBytes p a bs).budget = p.budget := rfl
@[simp] theorem setBytes_poison (a : Nat) (bs : List Byte) : (setBytes p a bs).poison = p.poison := rfl
@[simp] theorem setBytes_ctxs (a : Nat) (bs : List Byte) : (setBytes p a bs).ctxs = p.ctxs := rfl
@[simp] theorem setBytes_insts (a : Nat) (bs : List Byte) : (setBytes p a bs).insts = p.insts := rfl
@[simp] theorem setBytes_stores (a : Nat) (bs : List Byte) : (setBytes p a bs).stores = p.stores := rfl
@[simp] theorem setBytes_wins (a : Nat) (bs : List Byte) : (setBytes p a bs).wins = p.wins := rfl
@[simp] theorem setBytes_engines (a : Nat) (bs : List Byte) : (setBytes p a bs).engines = p.engines := rfl
@[simp] theorem setBytes_creqs (a : Nat) (bs : List Byte) : (setBytes p a bs).creqs = p.creqs := rfl
@[simp] theorem setBytes_atomWins (a : Nat) (bs : List Byte) : (setBytes p a bs).atomWins = p.atomWins := rfl
@[simp] theorem setBytes_ledgers (a : Nat) (bs : List Byte) : (setBytes p a bs).ledgers = p.ledgers := rfl
@[simp] theorem setBytes_fences (a : Nat) (bs : List Byte) : (setBytes p a bs).fences = p.fences := rfl
@[simp] theorem setBytes_quarantined (a : Nat) (bs : List Byte) : (setBytes p a bs).quarantined = p.quarantined := rfl
@[simp] theorem setBytes_bobs (a : Nat) (bs : List Byte) : (setBytes p a bs).bobs = p.bobs := rfl
@[simp] theorem setBytes_wells (a : Nat) (bs : List Byte) : (setBytes p a bs).wells = p.wells := rfl
@[simp] theorem setBytes_spares (a : Nat) (bs : List Byte) : (setBytes p a bs).spares = p.spares := rfl
@[simp] theorem setBytes_retired (a : Nat) (bs : List Byte) : (setBytes p a bs).retired = p.retired := rfl
@[simp] theorem setBytes_nextSeq (a : Nat) (bs : List Byte) : (setBytes p a bs).nextSeq = p.nextSeq := rfl
@[simp] theorem setBytes_nextId (a : Nat) (bs : List Byte) : (setBytes p a bs).nextId = p.nextId := rfl
@[simp] theorem setBytes_records (a : Nat) (bs : List Byte) : (setBytes p a bs).records = p.records := rfl
@[simp] theorem setBytes_nvPending (a : Nat) (bs : List Byte) : (setBytes p a bs).nvPending = p.nvPending := rfl
@[simp] theorem setBytes_nvRecords (a : Nat) (bs : List Byte) : (setBytes p a bs).nvRecords = p.nvRecords := rfl
@[simp] theorem setBytes_boots (a : Nat) (bs : List Byte) : (setBytes p a bs).boots = p.boots := rfl
@[simp] theorem setBytes_serving (a : Nat) (bs : List Byte) : (setBytes p a bs).serving = p.serving := rfl
@[simp] theorem setBytes_pw (a : Nat) (bs : List Byte) : (setBytes p a bs).pw = p.pw := rfl
@[simp] theorem setBytes_stackUnits (a : Nat) (bs : List Byte) : (setBytes p a bs).stackUnits = p.stackUnits := rfl
@[simp] theorem setBytes_mills (a : Nat) (bs : List Byte) : (setBytes p a bs).mills = p.mills := rfl
@[simp] theorem setBytes_sels (a : Nat) (bs : List Byte) : (setBytes p a bs).sels = p.sels := rfl
@[simp] theorem setBytes_selPorts (a : Nat) (bs : List Byte) : (setBytes p a bs).selPorts = p.selPorts := rfl
@[simp] theorem setBytes_rv (a : Nat) (bs : List Byte) : (setBytes p a bs).rv = p.rv := rfl
@[simp] theorem setBytes_boot (a : Nat) (bs : List Byte) : (setBytes p a bs).boot = p.boot := rfl
@[simp] theorem setBytes_pins (a : Nat) (bs : List Byte) : (setBytes p a bs).pins = p.pins := rfl
@[simp] theorem setBytes_stitches (a : Nat) (bs : List Byte) : (setBytes p a bs).stitches = p.stitches := rfl
@[simp] theorem setBytes_thims (a : Nat) (bs : List Byte) : (setBytes p a bs).thims = p.thims := rfl
@[simp] theorem setBytes_dbg (a : Nat) (bs : List Byte) : (setBytes p a bs).dbg = p.dbg := rfl
@[simp] theorem setBytes_lost (a : Nat) (bs : List Byte) : (setBytes p a bs).lost = p.lost := rfl
@[simp] theorem setBytes_out (a : Nat) (bs : List Byte) : (setBytes p a bs).out = p.out := rfl
@[simp] theorem setBytes_free (a : Nat) (bs : List Byte) : (setBytes p a bs).free = p.free := rfl

@[simp] theorem setCtx_bell (c : CtxId) (x : Ctx) : (setCtx p c x).bell = p.bell := rfl
@[simp] theorem setCtx_count (c : CtxId) (x : Ctx) : (setCtx p c x).count = p.count := rfl
@[simp] theorem setCtx_rg (c : CtxId) (x : Ctx) : (setCtx p c x).rg = p.rg := rfl
@[simp] theorem setCtx_bellU (c : CtxId) (x : Ctx) : (setCtx p c x).bellU = p.bellU := rfl
@[simp] theorem setCtx_ports (c : CtxId) (x : Ctx) : (setCtx p c x).ports = p.ports := rfl
@[simp] theorem setCtx_routers (c : CtxId) (x : Ctx) : (setCtx p c x).routers = p.routers := rfl
@[simp] theorem setCtx_inbox (c : CtxId) (x : Ctx) : (setCtx p c x).inbox = p.inbox := rfl
@[simp] theorem setCtx_budget (c : CtxId) (x : Ctx) : (setCtx p c x).budget = p.budget := rfl
@[simp] theorem setCtx_mem (c : CtxId) (x : Ctx) : (setCtx p c x).mem = p.mem := rfl
@[simp] theorem setCtx_poison (c : CtxId) (x : Ctx) : (setCtx p c x).poison = p.poison := rfl
@[simp] theorem setCtx_insts (c : CtxId) (x : Ctx) : (setCtx p c x).insts = p.insts := rfl
@[simp] theorem setCtx_stores (c : CtxId) (x : Ctx) : (setCtx p c x).stores = p.stores := rfl
@[simp] theorem setCtx_wins (c : CtxId) (x : Ctx) : (setCtx p c x).wins = p.wins := rfl
@[simp] theorem setCtx_engines (c : CtxId) (x : Ctx) : (setCtx p c x).engines = p.engines := rfl
@[simp] theorem setCtx_creqs (c : CtxId) (x : Ctx) : (setCtx p c x).creqs = p.creqs := rfl
@[simp] theorem setCtx_atomWins (c : CtxId) (x : Ctx) : (setCtx p c x).atomWins = p.atomWins := rfl
@[simp] theorem setCtx_ledgers (c : CtxId) (x : Ctx) : (setCtx p c x).ledgers = p.ledgers := rfl
@[simp] theorem setCtx_fences (c : CtxId) (x : Ctx) : (setCtx p c x).fences = p.fences := rfl
@[simp] theorem setCtx_quarantined (c : CtxId) (x : Ctx) : (setCtx p c x).quarantined = p.quarantined := rfl
@[simp] theorem setCtx_bobs (c : CtxId) (x : Ctx) : (setCtx p c x).bobs = p.bobs := rfl
@[simp] theorem setCtx_wells (c : CtxId) (x : Ctx) : (setCtx p c x).wells = p.wells := rfl
@[simp] theorem setCtx_spares (c : CtxId) (x : Ctx) : (setCtx p c x).spares = p.spares := rfl
@[simp] theorem setCtx_retired (c : CtxId) (x : Ctx) : (setCtx p c x).retired = p.retired := rfl
@[simp] theorem setCtx_nextSeq (c : CtxId) (x : Ctx) : (setCtx p c x).nextSeq = p.nextSeq := rfl
@[simp] theorem setCtx_nextId (c : CtxId) (x : Ctx) : (setCtx p c x).nextId = p.nextId := rfl
@[simp] theorem setCtx_records (c : CtxId) (x : Ctx) : (setCtx p c x).records = p.records := rfl
@[simp] theorem setCtx_nvPending (c : CtxId) (x : Ctx) : (setCtx p c x).nvPending = p.nvPending := rfl
@[simp] theorem setCtx_nvRecords (c : CtxId) (x : Ctx) : (setCtx p c x).nvRecords = p.nvRecords := rfl
@[simp] theorem setCtx_boots (c : CtxId) (x : Ctx) : (setCtx p c x).boots = p.boots := rfl
@[simp] theorem setCtx_serving (c : CtxId) (x : Ctx) : (setCtx p c x).serving = p.serving := rfl
@[simp] theorem setCtx_pw (c : CtxId) (x : Ctx) : (setCtx p c x).pw = p.pw := rfl
@[simp] theorem setCtx_stackUnits (c : CtxId) (x : Ctx) : (setCtx p c x).stackUnits = p.stackUnits := rfl
@[simp] theorem setCtx_mills (c : CtxId) (x : Ctx) : (setCtx p c x).mills = p.mills := rfl
@[simp] theorem setCtx_sels (c : CtxId) (x : Ctx) : (setCtx p c x).sels = p.sels := rfl
@[simp] theorem setCtx_selPorts (c : CtxId) (x : Ctx) : (setCtx p c x).selPorts = p.selPorts := rfl
@[simp] theorem setCtx_rv (c : CtxId) (x : Ctx) : (setCtx p c x).rv = p.rv := rfl
@[simp] theorem setCtx_boot (c : CtxId) (x : Ctx) : (setCtx p c x).boot = p.boot := rfl
@[simp] theorem setCtx_pins (c : CtxId) (x : Ctx) : (setCtx p c x).pins = p.pins := rfl
@[simp] theorem setCtx_stitches (c : CtxId) (x : Ctx) : (setCtx p c x).stitches = p.stitches := rfl
@[simp] theorem setCtx_thims (c : CtxId) (x : Ctx) : (setCtx p c x).thims = p.thims := rfl
@[simp] theorem setCtx_dbg (c : CtxId) (x : Ctx) : (setCtx p c x).dbg = p.dbg := rfl
@[simp] theorem setCtx_lost (c : CtxId) (x : Ctx) : (setCtx p c x).lost = p.lost := rfl
@[simp] theorem setCtx_out (c : CtxId) (x : Ctx) : (setCtx p c x).out = p.out := rfl
@[simp] theorem setCtx_free (c : CtxId) (x : Ctx) : (setCtx p c x).free = p.free := rfl

@[simp] theorem setPort_bell (n : Fin 32) (x : Port) : (setPort p n x).bell = p.bell := rfl
@[simp] theorem setPort_count (n : Fin 32) (x : Port) : (setPort p n x).count = p.count := rfl
@[simp] theorem setPort_rg (n : Fin 32) (x : Port) : (setPort p n x).rg = p.rg := rfl
@[simp] theorem setPort_bellU (n : Fin 32) (x : Port) : (setPort p n x).bellU = p.bellU := rfl
@[simp] theorem setPort_routers (n : Fin 32) (x : Port) : (setPort p n x).routers = p.routers := rfl
@[simp] theorem setPort_inbox (n : Fin 32) (x : Port) : (setPort p n x).inbox = p.inbox := rfl
@[simp] theorem setPort_budget (n : Fin 32) (x : Port) : (setPort p n x).budget = p.budget := rfl
@[simp] theorem setPort_mem (n : Fin 32) (x : Port) : (setPort p n x).mem = p.mem := rfl
@[simp] theorem setPort_poison (n : Fin 32) (x : Port) : (setPort p n x).poison = p.poison := rfl
@[simp] theorem setPort_ctxs (n : Fin 32) (x : Port) : (setPort p n x).ctxs = p.ctxs := rfl
@[simp] theorem setPort_insts (n : Fin 32) (x : Port) : (setPort p n x).insts = p.insts := rfl
@[simp] theorem setPort_stores (n : Fin 32) (x : Port) : (setPort p n x).stores = p.stores := rfl
@[simp] theorem setPort_wins (n : Fin 32) (x : Port) : (setPort p n x).wins = p.wins := rfl
@[simp] theorem setPort_engines (n : Fin 32) (x : Port) : (setPort p n x).engines = p.engines := rfl
@[simp] theorem setPort_creqs (n : Fin 32) (x : Port) : (setPort p n x).creqs = p.creqs := rfl
@[simp] theorem setPort_atomWins (n : Fin 32) (x : Port) : (setPort p n x).atomWins = p.atomWins := rfl
@[simp] theorem setPort_ledgers (n : Fin 32) (x : Port) : (setPort p n x).ledgers = p.ledgers := rfl
@[simp] theorem setPort_fences (n : Fin 32) (x : Port) : (setPort p n x).fences = p.fences := rfl
@[simp] theorem setPort_quarantined (n : Fin 32) (x : Port) : (setPort p n x).quarantined = p.quarantined := rfl
@[simp] theorem setPort_bobs (n : Fin 32) (x : Port) : (setPort p n x).bobs = p.bobs := rfl
@[simp] theorem setPort_wells (n : Fin 32) (x : Port) : (setPort p n x).wells = p.wells := rfl
@[simp] theorem setPort_spares (n : Fin 32) (x : Port) : (setPort p n x).spares = p.spares := rfl
@[simp] theorem setPort_retired (n : Fin 32) (x : Port) : (setPort p n x).retired = p.retired := rfl
@[simp] theorem setPort_nextSeq (n : Fin 32) (x : Port) : (setPort p n x).nextSeq = p.nextSeq := rfl
@[simp] theorem setPort_nextId (n : Fin 32) (x : Port) : (setPort p n x).nextId = p.nextId := rfl
@[simp] theorem setPort_records (n : Fin 32) (x : Port) : (setPort p n x).records = p.records := rfl
@[simp] theorem setPort_nvPending (n : Fin 32) (x : Port) : (setPort p n x).nvPending = p.nvPending := rfl
@[simp] theorem setPort_nvRecords (n : Fin 32) (x : Port) : (setPort p n x).nvRecords = p.nvRecords := rfl
@[simp] theorem setPort_boots (n : Fin 32) (x : Port) : (setPort p n x).boots = p.boots := rfl
@[simp] theorem setPort_serving (n : Fin 32) (x : Port) : (setPort p n x).serving = p.serving := rfl
@[simp] theorem setPort_pw (n : Fin 32) (x : Port) : (setPort p n x).pw = p.pw := rfl
@[simp] theorem setPort_stackUnits (n : Fin 32) (x : Port) : (setPort p n x).stackUnits = p.stackUnits := rfl
@[simp] theorem setPort_mills (n : Fin 32) (x : Port) : (setPort p n x).mills = p.mills := rfl
@[simp] theorem setPort_sels (n : Fin 32) (x : Port) : (setPort p n x).sels = p.sels := rfl
@[simp] theorem setPort_selPorts (n : Fin 32) (x : Port) : (setPort p n x).selPorts = p.selPorts := rfl
@[simp] theorem setPort_rv (n : Fin 32) (x : Port) : (setPort p n x).rv = p.rv := rfl
@[simp] theorem setPort_boot (n : Fin 32) (x : Port) : (setPort p n x).boot = p.boot := rfl
@[simp] theorem setPort_pins (n : Fin 32) (x : Port) : (setPort p n x).pins = p.pins := rfl
@[simp] theorem setPort_stitches (n : Fin 32) (x : Port) : (setPort p n x).stitches = p.stitches := rfl
@[simp] theorem setPort_thims (n : Fin 32) (x : Port) : (setPort p n x).thims = p.thims := rfl
@[simp] theorem setPort_dbg (n : Fin 32) (x : Port) : (setPort p n x).dbg = p.dbg := rfl
@[simp] theorem setPort_lost (n : Fin 32) (x : Port) : (setPort p n x).lost = p.lost := rfl
@[simp] theorem setPort_out (n : Fin 32) (x : Port) : (setPort p n x).out = p.out := rfl
@[simp] theorem setPort_free (n : Fin 32) (x : Port) : (setPort p n x).free = p.free := rfl

@[simp] theorem setRouter_bell (d : Fin 4) (x : Router) : (setRouter p d x).bell = p.bell := rfl
@[simp] theorem setRouter_count (d : Fin 4) (x : Router) : (setRouter p d x).count = p.count := rfl
@[simp] theorem setRouter_rg (d : Fin 4) (x : Router) : (setRouter p d x).rg = p.rg := rfl
@[simp] theorem setRouter_bellU (d : Fin 4) (x : Router) : (setRouter p d x).bellU = p.bellU := rfl
@[simp] theorem setRouter_ports (d : Fin 4) (x : Router) : (setRouter p d x).ports = p.ports := rfl
@[simp] theorem setRouter_inbox (d : Fin 4) (x : Router) : (setRouter p d x).inbox = p.inbox := rfl
@[simp] theorem setRouter_budget (d : Fin 4) (x : Router) : (setRouter p d x).budget = p.budget := rfl
@[simp] theorem setRouter_mem (d : Fin 4) (x : Router) : (setRouter p d x).mem = p.mem := rfl
@[simp] theorem setRouter_poison (d : Fin 4) (x : Router) : (setRouter p d x).poison = p.poison := rfl
@[simp] theorem setRouter_ctxs (d : Fin 4) (x : Router) : (setRouter p d x).ctxs = p.ctxs := rfl
@[simp] theorem setRouter_insts (d : Fin 4) (x : Router) : (setRouter p d x).insts = p.insts := rfl
@[simp] theorem setRouter_stores (d : Fin 4) (x : Router) : (setRouter p d x).stores = p.stores := rfl
@[simp] theorem setRouter_wins (d : Fin 4) (x : Router) : (setRouter p d x).wins = p.wins := rfl
@[simp] theorem setRouter_engines (d : Fin 4) (x : Router) : (setRouter p d x).engines = p.engines := rfl
@[simp] theorem setRouter_creqs (d : Fin 4) (x : Router) : (setRouter p d x).creqs = p.creqs := rfl
@[simp] theorem setRouter_atomWins (d : Fin 4) (x : Router) : (setRouter p d x).atomWins = p.atomWins := rfl
@[simp] theorem setRouter_ledgers (d : Fin 4) (x : Router) : (setRouter p d x).ledgers = p.ledgers := rfl
@[simp] theorem setRouter_fences (d : Fin 4) (x : Router) : (setRouter p d x).fences = p.fences := rfl
@[simp] theorem setRouter_quarantined (d : Fin 4) (x : Router) : (setRouter p d x).quarantined = p.quarantined := rfl
@[simp] theorem setRouter_bobs (d : Fin 4) (x : Router) : (setRouter p d x).bobs = p.bobs := rfl
@[simp] theorem setRouter_wells (d : Fin 4) (x : Router) : (setRouter p d x).wells = p.wells := rfl
@[simp] theorem setRouter_spares (d : Fin 4) (x : Router) : (setRouter p d x).spares = p.spares := rfl
@[simp] theorem setRouter_retired (d : Fin 4) (x : Router) : (setRouter p d x).retired = p.retired := rfl
@[simp] theorem setRouter_nextSeq (d : Fin 4) (x : Router) : (setRouter p d x).nextSeq = p.nextSeq := rfl
@[simp] theorem setRouter_nextId (d : Fin 4) (x : Router) : (setRouter p d x).nextId = p.nextId := rfl
@[simp] theorem setRouter_records (d : Fin 4) (x : Router) : (setRouter p d x).records = p.records := rfl
@[simp] theorem setRouter_nvPending (d : Fin 4) (x : Router) : (setRouter p d x).nvPending = p.nvPending := rfl
@[simp] theorem setRouter_nvRecords (d : Fin 4) (x : Router) : (setRouter p d x).nvRecords = p.nvRecords := rfl
@[simp] theorem setRouter_boots (d : Fin 4) (x : Router) : (setRouter p d x).boots = p.boots := rfl
@[simp] theorem setRouter_serving (d : Fin 4) (x : Router) : (setRouter p d x).serving = p.serving := rfl
@[simp] theorem setRouter_pw (d : Fin 4) (x : Router) : (setRouter p d x).pw = p.pw := rfl
@[simp] theorem setRouter_stackUnits (d : Fin 4) (x : Router) : (setRouter p d x).stackUnits = p.stackUnits := rfl
@[simp] theorem setRouter_mills (d : Fin 4) (x : Router) : (setRouter p d x).mills = p.mills := rfl
@[simp] theorem setRouter_sels (d : Fin 4) (x : Router) : (setRouter p d x).sels = p.sels := rfl
@[simp] theorem setRouter_selPorts (d : Fin 4) (x : Router) : (setRouter p d x).selPorts = p.selPorts := rfl
@[simp] theorem setRouter_rv (d : Fin 4) (x : Router) : (setRouter p d x).rv = p.rv := rfl
@[simp] theorem setRouter_boot (d : Fin 4) (x : Router) : (setRouter p d x).boot = p.boot := rfl
@[simp] theorem setRouter_pins (d : Fin 4) (x : Router) : (setRouter p d x).pins = p.pins := rfl
@[simp] theorem setRouter_stitches (d : Fin 4) (x : Router) : (setRouter p d x).stitches = p.stitches := rfl
@[simp] theorem setRouter_thims (d : Fin 4) (x : Router) : (setRouter p d x).thims = p.thims := rfl
@[simp] theorem setRouter_dbg (d : Fin 4) (x : Router) : (setRouter p d x).dbg = p.dbg := rfl
@[simp] theorem setRouter_lost (d : Fin 4) (x : Router) : (setRouter p d x).lost = p.lost := rfl
@[simp] theorem setRouter_out (d : Fin 4) (x : Router) : (setRouter p d x).out = p.out := rfl
@[simp] theorem setRouter_free (d : Fin 4) (x : Router) : (setRouter p d x).free = p.free := rfl

@[simp] theorem setWin_bell (st : StoreId) (w : Nat) (x : Win) : (setWin p st w x).bell = p.bell := rfl
@[simp] theorem setWin_count (st : StoreId) (w : Nat) (x : Win) : (setWin p st w x).count = p.count := rfl
@[simp] theorem setWin_rg (st : StoreId) (w : Nat) (x : Win) : (setWin p st w x).rg = p.rg := rfl
@[simp] theorem setWin_bellU (st : StoreId) (w : Nat) (x : Win) : (setWin p st w x).bellU = p.bellU := rfl
@[simp] theorem setWin_ports (st : StoreId) (w : Nat) (x : Win) : (setWin p st w x).ports = p.ports := rfl
@[simp] theorem setWin_routers (st : StoreId) (w : Nat) (x : Win) : (setWin p st w x).routers = p.routers := rfl
@[simp] theorem setWin_inbox (st : StoreId) (w : Nat) (x : Win) : (setWin p st w x).inbox = p.inbox := rfl
@[simp] theorem setWin_budget (st : StoreId) (w : Nat) (x : Win) : (setWin p st w x).budget = p.budget := rfl
@[simp] theorem setWin_mem (st : StoreId) (w : Nat) (x : Win) : (setWin p st w x).mem = p.mem := rfl
@[simp] theorem setWin_poison (st : StoreId) (w : Nat) (x : Win) : (setWin p st w x).poison = p.poison := rfl
@[simp] theorem setWin_ctxs (st : StoreId) (w : Nat) (x : Win) : (setWin p st w x).ctxs = p.ctxs := rfl
@[simp] theorem setWin_insts (st : StoreId) (w : Nat) (x : Win) : (setWin p st w x).insts = p.insts := rfl
@[simp] theorem setWin_stores (st : StoreId) (w : Nat) (x : Win) : (setWin p st w x).stores = p.stores := rfl
@[simp] theorem setWin_engines (st : StoreId) (w : Nat) (x : Win) : (setWin p st w x).engines = p.engines := rfl
@[simp] theorem setWin_creqs (st : StoreId) (w : Nat) (x : Win) : (setWin p st w x).creqs = p.creqs := rfl
@[simp] theorem setWin_atomWins (st : StoreId) (w : Nat) (x : Win) : (setWin p st w x).atomWins = p.atomWins := rfl
@[simp] theorem setWin_ledgers (st : StoreId) (w : Nat) (x : Win) : (setWin p st w x).ledgers = p.ledgers := rfl
@[simp] theorem setWin_fences (st : StoreId) (w : Nat) (x : Win) : (setWin p st w x).fences = p.fences := rfl
@[simp] theorem setWin_quarantined (st : StoreId) (w : Nat) (x : Win) : (setWin p st w x).quarantined = p.quarantined := rfl
@[simp] theorem setWin_bobs (st : StoreId) (w : Nat) (x : Win) : (setWin p st w x).bobs = p.bobs := rfl
@[simp] theorem setWin_wells (st : StoreId) (w : Nat) (x : Win) : (setWin p st w x).wells = p.wells := rfl
@[simp] theorem setWin_spares (st : StoreId) (w : Nat) (x : Win) : (setWin p st w x).spares = p.spares := rfl
@[simp] theorem setWin_retired (st : StoreId) (w : Nat) (x : Win) : (setWin p st w x).retired = p.retired := rfl
@[simp] theorem setWin_nextSeq (st : StoreId) (w : Nat) (x : Win) : (setWin p st w x).nextSeq = p.nextSeq := rfl
@[simp] theorem setWin_nextId (st : StoreId) (w : Nat) (x : Win) : (setWin p st w x).nextId = p.nextId := rfl
@[simp] theorem setWin_records (st : StoreId) (w : Nat) (x : Win) : (setWin p st w x).records = p.records := rfl
@[simp] theorem setWin_nvPending (st : StoreId) (w : Nat) (x : Win) : (setWin p st w x).nvPending = p.nvPending := rfl
@[simp] theorem setWin_nvRecords (st : StoreId) (w : Nat) (x : Win) : (setWin p st w x).nvRecords = p.nvRecords := rfl
@[simp] theorem setWin_boots (st : StoreId) (w : Nat) (x : Win) : (setWin p st w x).boots = p.boots := rfl
@[simp] theorem setWin_serving (st : StoreId) (w : Nat) (x : Win) : (setWin p st w x).serving = p.serving := rfl
@[simp] theorem setWin_pw (st : StoreId) (w : Nat) (x : Win) : (setWin p st w x).pw = p.pw := rfl
@[simp] theorem setWin_stackUnits (st : StoreId) (w : Nat) (x : Win) : (setWin p st w x).stackUnits = p.stackUnits := rfl
@[simp] theorem setWin_mills (st : StoreId) (w : Nat) (x : Win) : (setWin p st w x).mills = p.mills := rfl
@[simp] theorem setWin_sels (st : StoreId) (w : Nat) (x : Win) : (setWin p st w x).sels = p.sels := rfl
@[simp] theorem setWin_selPorts (st : StoreId) (w : Nat) (x : Win) : (setWin p st w x).selPorts = p.selPorts := rfl
@[simp] theorem setWin_rv (st : StoreId) (w : Nat) (x : Win) : (setWin p st w x).rv = p.rv := rfl
@[simp] theorem setWin_boot (st : StoreId) (w : Nat) (x : Win) : (setWin p st w x).boot = p.boot := rfl
@[simp] theorem setWin_pins (st : StoreId) (w : Nat) (x : Win) : (setWin p st w x).pins = p.pins := rfl
@[simp] theorem setWin_stitches (st : StoreId) (w : Nat) (x : Win) : (setWin p st w x).stitches = p.stitches := rfl
@[simp] theorem setWin_thims (st : StoreId) (w : Nat) (x : Win) : (setWin p st w x).thims = p.thims := rfl
@[simp] theorem setWin_dbg (st : StoreId) (w : Nat) (x : Win) : (setWin p st w x).dbg = p.dbg := rfl
@[simp] theorem setWin_lost (st : StoreId) (w : Nat) (x : Win) : (setWin p st w x).lost = p.lost := rfl
@[simp] theorem setWin_out (st : StoreId) (w : Nat) (x : Win) : (setWin p st w x).out = p.out := rfl
@[simp] theorem setWin_free (st : StoreId) (w : Nat) (x : Win) : (setWin p st w x).free = p.free := rfl

@[simp] theorem setStore_bell (st : StoreId) (x : Store) : (setStore p st x).bell = p.bell := rfl
@[simp] theorem setStore_count (st : StoreId) (x : Store) : (setStore p st x).count = p.count := rfl
@[simp] theorem setStore_rg (st : StoreId) (x : Store) : (setStore p st x).rg = p.rg := rfl
@[simp] theorem setStore_bellU (st : StoreId) (x : Store) : (setStore p st x).bellU = p.bellU := rfl
@[simp] theorem setStore_ports (st : StoreId) (x : Store) : (setStore p st x).ports = p.ports := rfl
@[simp] theorem setStore_routers (st : StoreId) (x : Store) : (setStore p st x).routers = p.routers := rfl
@[simp] theorem setStore_inbox (st : StoreId) (x : Store) : (setStore p st x).inbox = p.inbox := rfl
@[simp] theorem setStore_budget (st : StoreId) (x : Store) : (setStore p st x).budget = p.budget := rfl
@[simp] theorem setStore_mem (st : StoreId) (x : Store) : (setStore p st x).mem = p.mem := rfl
@[simp] theorem setStore_poison (st : StoreId) (x : Store) : (setStore p st x).poison = p.poison := rfl
@[simp] theorem setStore_ctxs (st : StoreId) (x : Store) : (setStore p st x).ctxs = p.ctxs := rfl
@[simp] theorem setStore_insts (st : StoreId) (x : Store) : (setStore p st x).insts = p.insts := rfl
@[simp] theorem setStore_wins (st : StoreId) (x : Store) : (setStore p st x).wins = p.wins := rfl
@[simp] theorem setStore_engines (st : StoreId) (x : Store) : (setStore p st x).engines = p.engines := rfl
@[simp] theorem setStore_creqs (st : StoreId) (x : Store) : (setStore p st x).creqs = p.creqs := rfl
@[simp] theorem setStore_atomWins (st : StoreId) (x : Store) : (setStore p st x).atomWins = p.atomWins := rfl
@[simp] theorem setStore_ledgers (st : StoreId) (x : Store) : (setStore p st x).ledgers = p.ledgers := rfl
@[simp] theorem setStore_fences (st : StoreId) (x : Store) : (setStore p st x).fences = p.fences := rfl
@[simp] theorem setStore_quarantined (st : StoreId) (x : Store) : (setStore p st x).quarantined = p.quarantined := rfl
@[simp] theorem setStore_bobs (st : StoreId) (x : Store) : (setStore p st x).bobs = p.bobs := rfl
@[simp] theorem setStore_wells (st : StoreId) (x : Store) : (setStore p st x).wells = p.wells := rfl
@[simp] theorem setStore_spares (st : StoreId) (x : Store) : (setStore p st x).spares = p.spares := rfl
@[simp] theorem setStore_retired (st : StoreId) (x : Store) : (setStore p st x).retired = p.retired := rfl
@[simp] theorem setStore_nextSeq (st : StoreId) (x : Store) : (setStore p st x).nextSeq = p.nextSeq := rfl
@[simp] theorem setStore_nextId (st : StoreId) (x : Store) : (setStore p st x).nextId = p.nextId := rfl
@[simp] theorem setStore_records (st : StoreId) (x : Store) : (setStore p st x).records = p.records := rfl
@[simp] theorem setStore_nvPending (st : StoreId) (x : Store) : (setStore p st x).nvPending = p.nvPending := rfl
@[simp] theorem setStore_nvRecords (st : StoreId) (x : Store) : (setStore p st x).nvRecords = p.nvRecords := rfl
@[simp] theorem setStore_boots (st : StoreId) (x : Store) : (setStore p st x).boots = p.boots := rfl
@[simp] theorem setStore_serving (st : StoreId) (x : Store) : (setStore p st x).serving = p.serving := rfl
@[simp] theorem setStore_pw (st : StoreId) (x : Store) : (setStore p st x).pw = p.pw := rfl
@[simp] theorem setStore_stackUnits (st : StoreId) (x : Store) : (setStore p st x).stackUnits = p.stackUnits := rfl
@[simp] theorem setStore_mills (st : StoreId) (x : Store) : (setStore p st x).mills = p.mills := rfl
@[simp] theorem setStore_sels (st : StoreId) (x : Store) : (setStore p st x).sels = p.sels := rfl
@[simp] theorem setStore_selPorts (st : StoreId) (x : Store) : (setStore p st x).selPorts = p.selPorts := rfl
@[simp] theorem setStore_rv (st : StoreId) (x : Store) : (setStore p st x).rv = p.rv := rfl
@[simp] theorem setStore_boot (st : StoreId) (x : Store) : (setStore p st x).boot = p.boot := rfl
@[simp] theorem setStore_pins (st : StoreId) (x : Store) : (setStore p st x).pins = p.pins := rfl
@[simp] theorem setStore_stitches (st : StoreId) (x : Store) : (setStore p st x).stitches = p.stitches := rfl
@[simp] theorem setStore_thims (st : StoreId) (x : Store) : (setStore p st x).thims = p.thims := rfl
@[simp] theorem setStore_dbg (st : StoreId) (x : Store) : (setStore p st x).dbg = p.dbg := rfl
@[simp] theorem setStore_lost (st : StoreId) (x : Store) : (setStore p st x).lost = p.lost := rfl
@[simp] theorem setStore_out (st : StoreId) (x : Store) : (setStore p st x).out = p.out := rfl
@[simp] theorem setStore_free (st : StoreId) (x : Store) : (setStore p st x).free = p.free := rfl

@[simp] theorem setEngine_bell (c : CoreId) (x : Engine) : (setEngine p c x).bell = p.bell := rfl
@[simp] theorem setEngine_count (c : CoreId) (x : Engine) : (setEngine p c x).count = p.count := rfl
@[simp] theorem setEngine_rg (c : CoreId) (x : Engine) : (setEngine p c x).rg = p.rg := rfl
@[simp] theorem setEngine_bellU (c : CoreId) (x : Engine) : (setEngine p c x).bellU = p.bellU := rfl
@[simp] theorem setEngine_ports (c : CoreId) (x : Engine) : (setEngine p c x).ports = p.ports := rfl
@[simp] theorem setEngine_routers (c : CoreId) (x : Engine) : (setEngine p c x).routers = p.routers := rfl
@[simp] theorem setEngine_inbox (c : CoreId) (x : Engine) : (setEngine p c x).inbox = p.inbox := rfl
@[simp] theorem setEngine_budget (c : CoreId) (x : Engine) : (setEngine p c x).budget = p.budget := rfl
@[simp] theorem setEngine_mem (c : CoreId) (x : Engine) : (setEngine p c x).mem = p.mem := rfl
@[simp] theorem setEngine_poison (c : CoreId) (x : Engine) : (setEngine p c x).poison = p.poison := rfl
@[simp] theorem setEngine_ctxs (c : CoreId) (x : Engine) : (setEngine p c x).ctxs = p.ctxs := rfl
@[simp] theorem setEngine_insts (c : CoreId) (x : Engine) : (setEngine p c x).insts = p.insts := rfl
@[simp] theorem setEngine_stores (c : CoreId) (x : Engine) : (setEngine p c x).stores = p.stores := rfl
@[simp] theorem setEngine_wins (c : CoreId) (x : Engine) : (setEngine p c x).wins = p.wins := rfl
@[simp] theorem setEngine_creqs (c : CoreId) (x : Engine) : (setEngine p c x).creqs = p.creqs := rfl
@[simp] theorem setEngine_atomWins (c : CoreId) (x : Engine) : (setEngine p c x).atomWins = p.atomWins := rfl
@[simp] theorem setEngine_ledgers (c : CoreId) (x : Engine) : (setEngine p c x).ledgers = p.ledgers := rfl
@[simp] theorem setEngine_fences (c : CoreId) (x : Engine) : (setEngine p c x).fences = p.fences := rfl
@[simp] theorem setEngine_quarantined (c : CoreId) (x : Engine) : (setEngine p c x).quarantined = p.quarantined := rfl
@[simp] theorem setEngine_bobs (c : CoreId) (x : Engine) : (setEngine p c x).bobs = p.bobs := rfl
@[simp] theorem setEngine_wells (c : CoreId) (x : Engine) : (setEngine p c x).wells = p.wells := rfl
@[simp] theorem setEngine_spares (c : CoreId) (x : Engine) : (setEngine p c x).spares = p.spares := rfl
@[simp] theorem setEngine_retired (c : CoreId) (x : Engine) : (setEngine p c x).retired = p.retired := rfl
@[simp] theorem setEngine_nextSeq (c : CoreId) (x : Engine) : (setEngine p c x).nextSeq = p.nextSeq := rfl
@[simp] theorem setEngine_nextId (c : CoreId) (x : Engine) : (setEngine p c x).nextId = p.nextId := rfl
@[simp] theorem setEngine_records (c : CoreId) (x : Engine) : (setEngine p c x).records = p.records := rfl
@[simp] theorem setEngine_nvPending (c : CoreId) (x : Engine) : (setEngine p c x).nvPending = p.nvPending := rfl
@[simp] theorem setEngine_nvRecords (c : CoreId) (x : Engine) : (setEngine p c x).nvRecords = p.nvRecords := rfl
@[simp] theorem setEngine_boots (c : CoreId) (x : Engine) : (setEngine p c x).boots = p.boots := rfl
@[simp] theorem setEngine_serving (c : CoreId) (x : Engine) : (setEngine p c x).serving = p.serving := rfl
@[simp] theorem setEngine_pw (c : CoreId) (x : Engine) : (setEngine p c x).pw = p.pw := rfl
@[simp] theorem setEngine_stackUnits (c : CoreId) (x : Engine) : (setEngine p c x).stackUnits = p.stackUnits := rfl
@[simp] theorem setEngine_mills (c : CoreId) (x : Engine) : (setEngine p c x).mills = p.mills := rfl
@[simp] theorem setEngine_sels (c : CoreId) (x : Engine) : (setEngine p c x).sels = p.sels := rfl
@[simp] theorem setEngine_selPorts (c : CoreId) (x : Engine) : (setEngine p c x).selPorts = p.selPorts := rfl
@[simp] theorem setEngine_rv (c : CoreId) (x : Engine) : (setEngine p c x).rv = p.rv := rfl
@[simp] theorem setEngine_boot (c : CoreId) (x : Engine) : (setEngine p c x).boot = p.boot := rfl
@[simp] theorem setEngine_pins (c : CoreId) (x : Engine) : (setEngine p c x).pins = p.pins := rfl
@[simp] theorem setEngine_stitches (c : CoreId) (x : Engine) : (setEngine p c x).stitches = p.stitches := rfl
@[simp] theorem setEngine_thims (c : CoreId) (x : Engine) : (setEngine p c x).thims = p.thims := rfl
@[simp] theorem setEngine_dbg (c : CoreId) (x : Engine) : (setEngine p c x).dbg = p.dbg := rfl
@[simp] theorem setEngine_lost (c : CoreId) (x : Engine) : (setEngine p c x).lost = p.lost := rfl
@[simp] theorem setEngine_out (c : CoreId) (x : Engine) : (setEngine p c x).out = p.out := rfl
@[simp] theorem setEngine_free (c : CoreId) (x : Engine) : (setEngine p c x).free = p.free := rfl

@[simp] theorem setBob_bell (b : BobId) (x : Bobbin) : (setBob p b x).bell = p.bell := rfl
@[simp] theorem setBob_count (b : BobId) (x : Bobbin) : (setBob p b x).count = p.count := rfl
@[simp] theorem setBob_rg (b : BobId) (x : Bobbin) : (setBob p b x).rg = p.rg := rfl
@[simp] theorem setBob_bellU (b : BobId) (x : Bobbin) : (setBob p b x).bellU = p.bellU := rfl
@[simp] theorem setBob_ports (b : BobId) (x : Bobbin) : (setBob p b x).ports = p.ports := rfl
@[simp] theorem setBob_routers (b : BobId) (x : Bobbin) : (setBob p b x).routers = p.routers := rfl
@[simp] theorem setBob_inbox (b : BobId) (x : Bobbin) : (setBob p b x).inbox = p.inbox := rfl
@[simp] theorem setBob_budget (b : BobId) (x : Bobbin) : (setBob p b x).budget = p.budget := rfl
@[simp] theorem setBob_mem (b : BobId) (x : Bobbin) : (setBob p b x).mem = p.mem := rfl
@[simp] theorem setBob_poison (b : BobId) (x : Bobbin) : (setBob p b x).poison = p.poison := rfl
@[simp] theorem setBob_ctxs (b : BobId) (x : Bobbin) : (setBob p b x).ctxs = p.ctxs := rfl
@[simp] theorem setBob_insts (b : BobId) (x : Bobbin) : (setBob p b x).insts = p.insts := rfl
@[simp] theorem setBob_stores (b : BobId) (x : Bobbin) : (setBob p b x).stores = p.stores := rfl
@[simp] theorem setBob_wins (b : BobId) (x : Bobbin) : (setBob p b x).wins = p.wins := rfl
@[simp] theorem setBob_engines (b : BobId) (x : Bobbin) : (setBob p b x).engines = p.engines := rfl
@[simp] theorem setBob_creqs (b : BobId) (x : Bobbin) : (setBob p b x).creqs = p.creqs := rfl
@[simp] theorem setBob_atomWins (b : BobId) (x : Bobbin) : (setBob p b x).atomWins = p.atomWins := rfl
@[simp] theorem setBob_ledgers (b : BobId) (x : Bobbin) : (setBob p b x).ledgers = p.ledgers := rfl
@[simp] theorem setBob_fences (b : BobId) (x : Bobbin) : (setBob p b x).fences = p.fences := rfl
@[simp] theorem setBob_quarantined (b : BobId) (x : Bobbin) : (setBob p b x).quarantined = p.quarantined := rfl
@[simp] theorem setBob_wells (b : BobId) (x : Bobbin) : (setBob p b x).wells = p.wells := rfl
@[simp] theorem setBob_spares (b : BobId) (x : Bobbin) : (setBob p b x).spares = p.spares := rfl
@[simp] theorem setBob_retired (b : BobId) (x : Bobbin) : (setBob p b x).retired = p.retired := rfl
@[simp] theorem setBob_nextSeq (b : BobId) (x : Bobbin) : (setBob p b x).nextSeq = p.nextSeq := rfl
@[simp] theorem setBob_nextId (b : BobId) (x : Bobbin) : (setBob p b x).nextId = p.nextId := rfl
@[simp] theorem setBob_records (b : BobId) (x : Bobbin) : (setBob p b x).records = p.records := rfl
@[simp] theorem setBob_nvPending (b : BobId) (x : Bobbin) : (setBob p b x).nvPending = p.nvPending := rfl
@[simp] theorem setBob_nvRecords (b : BobId) (x : Bobbin) : (setBob p b x).nvRecords = p.nvRecords := rfl
@[simp] theorem setBob_boots (b : BobId) (x : Bobbin) : (setBob p b x).boots = p.boots := rfl
@[simp] theorem setBob_serving (b : BobId) (x : Bobbin) : (setBob p b x).serving = p.serving := rfl
@[simp] theorem setBob_pw (b : BobId) (x : Bobbin) : (setBob p b x).pw = p.pw := rfl
@[simp] theorem setBob_stackUnits (b : BobId) (x : Bobbin) : (setBob p b x).stackUnits = p.stackUnits := rfl
@[simp] theorem setBob_mills (b : BobId) (x : Bobbin) : (setBob p b x).mills = p.mills := rfl
@[simp] theorem setBob_sels (b : BobId) (x : Bobbin) : (setBob p b x).sels = p.sels := rfl
@[simp] theorem setBob_selPorts (b : BobId) (x : Bobbin) : (setBob p b x).selPorts = p.selPorts := rfl
@[simp] theorem setBob_rv (b : BobId) (x : Bobbin) : (setBob p b x).rv = p.rv := rfl
@[simp] theorem setBob_boot (b : BobId) (x : Bobbin) : (setBob p b x).boot = p.boot := rfl
@[simp] theorem setBob_pins (b : BobId) (x : Bobbin) : (setBob p b x).pins = p.pins := rfl
@[simp] theorem setBob_stitches (b : BobId) (x : Bobbin) : (setBob p b x).stitches = p.stitches := rfl
@[simp] theorem setBob_thims (b : BobId) (x : Bobbin) : (setBob p b x).thims = p.thims := rfl
@[simp] theorem setBob_dbg (b : BobId) (x : Bobbin) : (setBob p b x).dbg = p.dbg := rfl
@[simp] theorem setBob_lost (b : BobId) (x : Bobbin) : (setBob p b x).lost = p.lost := rfl
@[simp] theorem setBob_out (b : BobId) (x : Bobbin) : (setBob p b x).out = p.out := rfl
@[simp] theorem setBob_free (b : BobId) (x : Bobbin) : (setBob p b x).free = p.free := rfl

@[simp] theorem setStack_bell (n : Fin 12) (x : Stack) : (setStack p n x).bell = p.bell := rfl
@[simp] theorem setStack_count (n : Fin 12) (x : Stack) : (setStack p n x).count = p.count := rfl
@[simp] theorem setStack_rg (n : Fin 12) (x : Stack) : (setStack p n x).rg = p.rg := rfl
@[simp] theorem setStack_bellU (n : Fin 12) (x : Stack) : (setStack p n x).bellU = p.bellU := rfl
@[simp] theorem setStack_ports (n : Fin 12) (x : Stack) : (setStack p n x).ports = p.ports := rfl
@[simp] theorem setStack_routers (n : Fin 12) (x : Stack) : (setStack p n x).routers = p.routers := rfl
@[simp] theorem setStack_inbox (n : Fin 12) (x : Stack) : (setStack p n x).inbox = p.inbox := rfl
@[simp] theorem setStack_budget (n : Fin 12) (x : Stack) : (setStack p n x).budget = p.budget := rfl
@[simp] theorem setStack_mem (n : Fin 12) (x : Stack) : (setStack p n x).mem = p.mem := rfl
@[simp] theorem setStack_poison (n : Fin 12) (x : Stack) : (setStack p n x).poison = p.poison := rfl
@[simp] theorem setStack_ctxs (n : Fin 12) (x : Stack) : (setStack p n x).ctxs = p.ctxs := rfl
@[simp] theorem setStack_insts (n : Fin 12) (x : Stack) : (setStack p n x).insts = p.insts := rfl
@[simp] theorem setStack_stores (n : Fin 12) (x : Stack) : (setStack p n x).stores = p.stores := rfl
@[simp] theorem setStack_wins (n : Fin 12) (x : Stack) : (setStack p n x).wins = p.wins := rfl
@[simp] theorem setStack_engines (n : Fin 12) (x : Stack) : (setStack p n x).engines = p.engines := rfl
@[simp] theorem setStack_creqs (n : Fin 12) (x : Stack) : (setStack p n x).creqs = p.creqs := rfl
@[simp] theorem setStack_atomWins (n : Fin 12) (x : Stack) : (setStack p n x).atomWins = p.atomWins := rfl
@[simp] theorem setStack_ledgers (n : Fin 12) (x : Stack) : (setStack p n x).ledgers = p.ledgers := rfl
@[simp] theorem setStack_fences (n : Fin 12) (x : Stack) : (setStack p n x).fences = p.fences := rfl
@[simp] theorem setStack_quarantined (n : Fin 12) (x : Stack) : (setStack p n x).quarantined = p.quarantined := rfl
@[simp] theorem setStack_bobs (n : Fin 12) (x : Stack) : (setStack p n x).bobs = p.bobs := rfl
@[simp] theorem setStack_wells (n : Fin 12) (x : Stack) : (setStack p n x).wells = p.wells := rfl
@[simp] theorem setStack_spares (n : Fin 12) (x : Stack) : (setStack p n x).spares = p.spares := rfl
@[simp] theorem setStack_retired (n : Fin 12) (x : Stack) : (setStack p n x).retired = p.retired := rfl
@[simp] theorem setStack_nextSeq (n : Fin 12) (x : Stack) : (setStack p n x).nextSeq = p.nextSeq := rfl
@[simp] theorem setStack_nextId (n : Fin 12) (x : Stack) : (setStack p n x).nextId = p.nextId := rfl
@[simp] theorem setStack_records (n : Fin 12) (x : Stack) : (setStack p n x).records = p.records := rfl
@[simp] theorem setStack_nvPending (n : Fin 12) (x : Stack) : (setStack p n x).nvPending = p.nvPending := rfl
@[simp] theorem setStack_nvRecords (n : Fin 12) (x : Stack) : (setStack p n x).nvRecords = p.nvRecords := rfl
@[simp] theorem setStack_boots (n : Fin 12) (x : Stack) : (setStack p n x).boots = p.boots := rfl
@[simp] theorem setStack_serving (n : Fin 12) (x : Stack) : (setStack p n x).serving = p.serving := rfl
@[simp] theorem setStack_pw (n : Fin 12) (x : Stack) : (setStack p n x).pw = p.pw := rfl
@[simp] theorem setStack_mills (n : Fin 12) (x : Stack) : (setStack p n x).mills = p.mills := rfl
@[simp] theorem setStack_sels (n : Fin 12) (x : Stack) : (setStack p n x).sels = p.sels := rfl
@[simp] theorem setStack_selPorts (n : Fin 12) (x : Stack) : (setStack p n x).selPorts = p.selPorts := rfl
@[simp] theorem setStack_rv (n : Fin 12) (x : Stack) : (setStack p n x).rv = p.rv := rfl
@[simp] theorem setStack_boot (n : Fin 12) (x : Stack) : (setStack p n x).boot = p.boot := rfl
@[simp] theorem setStack_pins (n : Fin 12) (x : Stack) : (setStack p n x).pins = p.pins := rfl
@[simp] theorem setStack_stitches (n : Fin 12) (x : Stack) : (setStack p n x).stitches = p.stitches := rfl
@[simp] theorem setStack_thims (n : Fin 12) (x : Stack) : (setStack p n x).thims = p.thims := rfl
@[simp] theorem setStack_dbg (n : Fin 12) (x : Stack) : (setStack p n x).dbg = p.dbg := rfl
@[simp] theorem setStack_lost (n : Fin 12) (x : Stack) : (setStack p n x).lost = p.lost := rfl
@[simp] theorem setStack_out (n : Fin 12) (x : Stack) : (setStack p n x).out = p.out := rfl
@[simp] theorem setStack_free (n : Fin 12) (x : Stack) : (setStack p n x).free = p.free := rfl

@[simp] theorem setMill_bell (m : MillId) (x : Mill) : (setMill p m x).bell = p.bell := rfl
@[simp] theorem setMill_count (m : MillId) (x : Mill) : (setMill p m x).count = p.count := rfl
@[simp] theorem setMill_rg (m : MillId) (x : Mill) : (setMill p m x).rg = p.rg := rfl
@[simp] theorem setMill_bellU (m : MillId) (x : Mill) : (setMill p m x).bellU = p.bellU := rfl
@[simp] theorem setMill_ports (m : MillId) (x : Mill) : (setMill p m x).ports = p.ports := rfl
@[simp] theorem setMill_routers (m : MillId) (x : Mill) : (setMill p m x).routers = p.routers := rfl
@[simp] theorem setMill_inbox (m : MillId) (x : Mill) : (setMill p m x).inbox = p.inbox := rfl
@[simp] theorem setMill_budget (m : MillId) (x : Mill) : (setMill p m x).budget = p.budget := rfl
@[simp] theorem setMill_mem (m : MillId) (x : Mill) : (setMill p m x).mem = p.mem := rfl
@[simp] theorem setMill_poison (m : MillId) (x : Mill) : (setMill p m x).poison = p.poison := rfl
@[simp] theorem setMill_ctxs (m : MillId) (x : Mill) : (setMill p m x).ctxs = p.ctxs := rfl
@[simp] theorem setMill_insts (m : MillId) (x : Mill) : (setMill p m x).insts = p.insts := rfl
@[simp] theorem setMill_stores (m : MillId) (x : Mill) : (setMill p m x).stores = p.stores := rfl
@[simp] theorem setMill_wins (m : MillId) (x : Mill) : (setMill p m x).wins = p.wins := rfl
@[simp] theorem setMill_engines (m : MillId) (x : Mill) : (setMill p m x).engines = p.engines := rfl
@[simp] theorem setMill_creqs (m : MillId) (x : Mill) : (setMill p m x).creqs = p.creqs := rfl
@[simp] theorem setMill_atomWins (m : MillId) (x : Mill) : (setMill p m x).atomWins = p.atomWins := rfl
@[simp] theorem setMill_ledgers (m : MillId) (x : Mill) : (setMill p m x).ledgers = p.ledgers := rfl
@[simp] theorem setMill_fences (m : MillId) (x : Mill) : (setMill p m x).fences = p.fences := rfl
@[simp] theorem setMill_quarantined (m : MillId) (x : Mill) : (setMill p m x).quarantined = p.quarantined := rfl
@[simp] theorem setMill_bobs (m : MillId) (x : Mill) : (setMill p m x).bobs = p.bobs := rfl
@[simp] theorem setMill_wells (m : MillId) (x : Mill) : (setMill p m x).wells = p.wells := rfl
@[simp] theorem setMill_spares (m : MillId) (x : Mill) : (setMill p m x).spares = p.spares := rfl
@[simp] theorem setMill_retired (m : MillId) (x : Mill) : (setMill p m x).retired = p.retired := rfl
@[simp] theorem setMill_nextSeq (m : MillId) (x : Mill) : (setMill p m x).nextSeq = p.nextSeq := rfl
@[simp] theorem setMill_nextId (m : MillId) (x : Mill) : (setMill p m x).nextId = p.nextId := rfl
@[simp] theorem setMill_records (m : MillId) (x : Mill) : (setMill p m x).records = p.records := rfl
@[simp] theorem setMill_nvPending (m : MillId) (x : Mill) : (setMill p m x).nvPending = p.nvPending := rfl
@[simp] theorem setMill_nvRecords (m : MillId) (x : Mill) : (setMill p m x).nvRecords = p.nvRecords := rfl
@[simp] theorem setMill_boots (m : MillId) (x : Mill) : (setMill p m x).boots = p.boots := rfl
@[simp] theorem setMill_serving (m : MillId) (x : Mill) : (setMill p m x).serving = p.serving := rfl
@[simp] theorem setMill_pw (m : MillId) (x : Mill) : (setMill p m x).pw = p.pw := rfl
@[simp] theorem setMill_stackUnits (m : MillId) (x : Mill) : (setMill p m x).stackUnits = p.stackUnits := rfl
@[simp] theorem setMill_sels (m : MillId) (x : Mill) : (setMill p m x).sels = p.sels := rfl
@[simp] theorem setMill_selPorts (m : MillId) (x : Mill) : (setMill p m x).selPorts = p.selPorts := rfl
@[simp] theorem setMill_rv (m : MillId) (x : Mill) : (setMill p m x).rv = p.rv := rfl
@[simp] theorem setMill_boot (m : MillId) (x : Mill) : (setMill p m x).boot = p.boot := rfl
@[simp] theorem setMill_pins (m : MillId) (x : Mill) : (setMill p m x).pins = p.pins := rfl
@[simp] theorem setMill_stitches (m : MillId) (x : Mill) : (setMill p m x).stitches = p.stitches := rfl
@[simp] theorem setMill_thims (m : MillId) (x : Mill) : (setMill p m x).thims = p.thims := rfl
@[simp] theorem setMill_dbg (m : MillId) (x : Mill) : (setMill p m x).dbg = p.dbg := rfl
@[simp] theorem setMill_lost (m : MillId) (x : Mill) : (setMill p m x).lost = p.lost := rfl
@[simp] theorem setMill_out (m : MillId) (x : Mill) : (setMill p m x).out = p.out := rfl
@[simp] theorem setMill_free (m : MillId) (x : Mill) : (setMill p m x).free = p.free := rfl

@[simp] theorem setWell_bell (d : Fin 4) (x : Well) : (setWell p d x).bell = p.bell := rfl
@[simp] theorem setWell_count (d : Fin 4) (x : Well) : (setWell p d x).count = p.count := rfl
@[simp] theorem setWell_rg (d : Fin 4) (x : Well) : (setWell p d x).rg = p.rg := rfl
@[simp] theorem setWell_bellU (d : Fin 4) (x : Well) : (setWell p d x).bellU = p.bellU := rfl
@[simp] theorem setWell_ports (d : Fin 4) (x : Well) : (setWell p d x).ports = p.ports := rfl
@[simp] theorem setWell_routers (d : Fin 4) (x : Well) : (setWell p d x).routers = p.routers := rfl
@[simp] theorem setWell_inbox (d : Fin 4) (x : Well) : (setWell p d x).inbox = p.inbox := rfl
@[simp] theorem setWell_budget (d : Fin 4) (x : Well) : (setWell p d x).budget = p.budget := rfl
@[simp] theorem setWell_mem (d : Fin 4) (x : Well) : (setWell p d x).mem = p.mem := rfl
@[simp] theorem setWell_poison (d : Fin 4) (x : Well) : (setWell p d x).poison = p.poison := rfl
@[simp] theorem setWell_ctxs (d : Fin 4) (x : Well) : (setWell p d x).ctxs = p.ctxs := rfl
@[simp] theorem setWell_insts (d : Fin 4) (x : Well) : (setWell p d x).insts = p.insts := rfl
@[simp] theorem setWell_stores (d : Fin 4) (x : Well) : (setWell p d x).stores = p.stores := rfl
@[simp] theorem setWell_wins (d : Fin 4) (x : Well) : (setWell p d x).wins = p.wins := rfl
@[simp] theorem setWell_engines (d : Fin 4) (x : Well) : (setWell p d x).engines = p.engines := rfl
@[simp] theorem setWell_creqs (d : Fin 4) (x : Well) : (setWell p d x).creqs = p.creqs := rfl
@[simp] theorem setWell_atomWins (d : Fin 4) (x : Well) : (setWell p d x).atomWins = p.atomWins := rfl
@[simp] theorem setWell_ledgers (d : Fin 4) (x : Well) : (setWell p d x).ledgers = p.ledgers := rfl
@[simp] theorem setWell_fences (d : Fin 4) (x : Well) : (setWell p d x).fences = p.fences := rfl
@[simp] theorem setWell_quarantined (d : Fin 4) (x : Well) : (setWell p d x).quarantined = p.quarantined := rfl
@[simp] theorem setWell_bobs (d : Fin 4) (x : Well) : (setWell p d x).bobs = p.bobs := rfl
@[simp] theorem setWell_spares (d : Fin 4) (x : Well) : (setWell p d x).spares = p.spares := rfl
@[simp] theorem setWell_retired (d : Fin 4) (x : Well) : (setWell p d x).retired = p.retired := rfl
@[simp] theorem setWell_nextSeq (d : Fin 4) (x : Well) : (setWell p d x).nextSeq = p.nextSeq := rfl
@[simp] theorem setWell_nextId (d : Fin 4) (x : Well) : (setWell p d x).nextId = p.nextId := rfl
@[simp] theorem setWell_records (d : Fin 4) (x : Well) : (setWell p d x).records = p.records := rfl
@[simp] theorem setWell_nvPending (d : Fin 4) (x : Well) : (setWell p d x).nvPending = p.nvPending := rfl
@[simp] theorem setWell_nvRecords (d : Fin 4) (x : Well) : (setWell p d x).nvRecords = p.nvRecords := rfl
@[simp] theorem setWell_boots (d : Fin 4) (x : Well) : (setWell p d x).boots = p.boots := rfl
@[simp] theorem setWell_serving (d : Fin 4) (x : Well) : (setWell p d x).serving = p.serving := rfl
@[simp] theorem setWell_pw (d : Fin 4) (x : Well) : (setWell p d x).pw = p.pw := rfl
@[simp] theorem setWell_stackUnits (d : Fin 4) (x : Well) : (setWell p d x).stackUnits = p.stackUnits := rfl
@[simp] theorem setWell_mills (d : Fin 4) (x : Well) : (setWell p d x).mills = p.mills := rfl
@[simp] theorem setWell_sels (d : Fin 4) (x : Well) : (setWell p d x).sels = p.sels := rfl
@[simp] theorem setWell_selPorts (d : Fin 4) (x : Well) : (setWell p d x).selPorts = p.selPorts := rfl
@[simp] theorem setWell_rv (d : Fin 4) (x : Well) : (setWell p d x).rv = p.rv := rfl
@[simp] theorem setWell_boot (d : Fin 4) (x : Well) : (setWell p d x).boot = p.boot := rfl
@[simp] theorem setWell_pins (d : Fin 4) (x : Well) : (setWell p d x).pins = p.pins := rfl
@[simp] theorem setWell_stitches (d : Fin 4) (x : Well) : (setWell p d x).stitches = p.stitches := rfl
@[simp] theorem setWell_thims (d : Fin 4) (x : Well) : (setWell p d x).thims = p.thims := rfl
@[simp] theorem setWell_dbg (d : Fin 4) (x : Well) : (setWell p d x).dbg = p.dbg := rfl
@[simp] theorem setWell_lost (d : Fin 4) (x : Well) : (setWell p d x).lost = p.lost := rfl
@[simp] theorem setWell_out (d : Fin 4) (x : Well) : (setWell p d x).out = p.out := rfl
@[simp] theorem setWell_free (d : Fin 4) (x : Well) : (setWell p d x).free = p.free := rfl

@[simp] theorem setLedger_bell (d : Fin 4) (x : Ledger) : (setLedger p d x).bell = p.bell := rfl
@[simp] theorem setLedger_count (d : Fin 4) (x : Ledger) : (setLedger p d x).count = p.count := rfl
@[simp] theorem setLedger_rg (d : Fin 4) (x : Ledger) : (setLedger p d x).rg = p.rg := rfl
@[simp] theorem setLedger_bellU (d : Fin 4) (x : Ledger) : (setLedger p d x).bellU = p.bellU := rfl
@[simp] theorem setLedger_ports (d : Fin 4) (x : Ledger) : (setLedger p d x).ports = p.ports := rfl
@[simp] theorem setLedger_routers (d : Fin 4) (x : Ledger) : (setLedger p d x).routers = p.routers := rfl
@[simp] theorem setLedger_inbox (d : Fin 4) (x : Ledger) : (setLedger p d x).inbox = p.inbox := rfl
@[simp] theorem setLedger_budget (d : Fin 4) (x : Ledger) : (setLedger p d x).budget = p.budget := rfl
@[simp] theorem setLedger_mem (d : Fin 4) (x : Ledger) : (setLedger p d x).mem = p.mem := rfl
@[simp] theorem setLedger_poison (d : Fin 4) (x : Ledger) : (setLedger p d x).poison = p.poison := rfl
@[simp] theorem setLedger_ctxs (d : Fin 4) (x : Ledger) : (setLedger p d x).ctxs = p.ctxs := rfl
@[simp] theorem setLedger_insts (d : Fin 4) (x : Ledger) : (setLedger p d x).insts = p.insts := rfl
@[simp] theorem setLedger_stores (d : Fin 4) (x : Ledger) : (setLedger p d x).stores = p.stores := rfl
@[simp] theorem setLedger_wins (d : Fin 4) (x : Ledger) : (setLedger p d x).wins = p.wins := rfl
@[simp] theorem setLedger_engines (d : Fin 4) (x : Ledger) : (setLedger p d x).engines = p.engines := rfl
@[simp] theorem setLedger_creqs (d : Fin 4) (x : Ledger) : (setLedger p d x).creqs = p.creqs := rfl
@[simp] theorem setLedger_atomWins (d : Fin 4) (x : Ledger) : (setLedger p d x).atomWins = p.atomWins := rfl
@[simp] theorem setLedger_fences (d : Fin 4) (x : Ledger) : (setLedger p d x).fences = p.fences := rfl
@[simp] theorem setLedger_quarantined (d : Fin 4) (x : Ledger) : (setLedger p d x).quarantined = p.quarantined := rfl
@[simp] theorem setLedger_bobs (d : Fin 4) (x : Ledger) : (setLedger p d x).bobs = p.bobs := rfl
@[simp] theorem setLedger_wells (d : Fin 4) (x : Ledger) : (setLedger p d x).wells = p.wells := rfl
@[simp] theorem setLedger_spares (d : Fin 4) (x : Ledger) : (setLedger p d x).spares = p.spares := rfl
@[simp] theorem setLedger_retired (d : Fin 4) (x : Ledger) : (setLedger p d x).retired = p.retired := rfl
@[simp] theorem setLedger_nextSeq (d : Fin 4) (x : Ledger) : (setLedger p d x).nextSeq = p.nextSeq := rfl
@[simp] theorem setLedger_nextId (d : Fin 4) (x : Ledger) : (setLedger p d x).nextId = p.nextId := rfl
@[simp] theorem setLedger_records (d : Fin 4) (x : Ledger) : (setLedger p d x).records = p.records := rfl
@[simp] theorem setLedger_nvPending (d : Fin 4) (x : Ledger) : (setLedger p d x).nvPending = p.nvPending := rfl
@[simp] theorem setLedger_nvRecords (d : Fin 4) (x : Ledger) : (setLedger p d x).nvRecords = p.nvRecords := rfl
@[simp] theorem setLedger_boots (d : Fin 4) (x : Ledger) : (setLedger p d x).boots = p.boots := rfl
@[simp] theorem setLedger_serving (d : Fin 4) (x : Ledger) : (setLedger p d x).serving = p.serving := rfl
@[simp] theorem setLedger_pw (d : Fin 4) (x : Ledger) : (setLedger p d x).pw = p.pw := rfl
@[simp] theorem setLedger_stackUnits (d : Fin 4) (x : Ledger) : (setLedger p d x).stackUnits = p.stackUnits := rfl
@[simp] theorem setLedger_mills (d : Fin 4) (x : Ledger) : (setLedger p d x).mills = p.mills := rfl
@[simp] theorem setLedger_sels (d : Fin 4) (x : Ledger) : (setLedger p d x).sels = p.sels := rfl
@[simp] theorem setLedger_selPorts (d : Fin 4) (x : Ledger) : (setLedger p d x).selPorts = p.selPorts := rfl
@[simp] theorem setLedger_rv (d : Fin 4) (x : Ledger) : (setLedger p d x).rv = p.rv := rfl
@[simp] theorem setLedger_boot (d : Fin 4) (x : Ledger) : (setLedger p d x).boot = p.boot := rfl
@[simp] theorem setLedger_pins (d : Fin 4) (x : Ledger) : (setLedger p d x).pins = p.pins := rfl
@[simp] theorem setLedger_stitches (d : Fin 4) (x : Ledger) : (setLedger p d x).stitches = p.stitches := rfl
@[simp] theorem setLedger_thims (d : Fin 4) (x : Ledger) : (setLedger p d x).thims = p.thims := rfl
@[simp] theorem setLedger_dbg (d : Fin 4) (x : Ledger) : (setLedger p d x).dbg = p.dbg := rfl
@[simp] theorem setLedger_lost (d : Fin 4) (x : Ledger) : (setLedger p d x).lost = p.lost := rfl
@[simp] theorem setLedger_out (d : Fin 4) (x : Ledger) : (setLedger p d x).out = p.out := rfl
@[simp] theorem setLedger_free (d : Fin 4) (x : Ledger) : (setLedger p d x).free = p.free := rfl

end Sys2Proof.Machine
end

