-- ==== Sys2Proof/Laws/Ops.lean ====
section
/-! SUPPORT. What the shared operations over registers, events, tallies and records can do: they leave every part of the package but the
ones each names; and what a read finds after a write. -/
namespace Sys2Proof.Machine
open Sys2Proof

/-! ## Maps -/

theorem Map.look_drop_same {κ α : Type} [DecidableEq κ] (m : Map κ α) (k : κ) : Map.look (Map.drop m k) k = none := by
  induction m with
  | nil => rfl
  | cons a r ih =>
    obtain ⟨k', v⟩ := a
    by_cases h : k' = k
    · simp [Map.drop, h, ih]
    · simp [Map.drop, Map.look, h, ih]

theorem Map.look_drop_other {κ α : Type} [DecidableEq κ] (m : Map κ α) (k l : κ) (h : l ≠ k) :
    Map.look (Map.drop m k) l = Map.look m l := by
  induction m with
  | nil => rfl
  | cons a r ih =>
    obtain ⟨k', v⟩ := a
    by_cases hk : k' = k
    · subst hk
      simp [Map.drop, Map.look, ih, Ne.symm h]
    · by_cases hl : k' = l
      · subst hl
        simp [Map.drop, Map.look, h]
      · simp [Map.drop, Map.look, hk, hl, ih]

@[simp] theorem Map.look_put_same {κ α : Type} [DecidableEq κ] (m : Map κ α) (k : κ) (v : α) : Map.look (Map.put m k v) k = some v := by
  simp [Map.put, Map.look]

theorem Map.look_put_other {κ α : Type} [DecidableEq κ] (m : Map κ α) (k l : κ) (v : α) (h : l ≠ k) :
    Map.look (Map.put m k v) l = Map.look m l := by
  simp [Map.put, Map.look, Ne.symm h, Map.look_drop_other m k l h]

@[simp] theorem Map.getD_put_same {κ α : Type} [DecidableEq κ] (m : Map κ α) (k : κ) (v d : α) : Map.getD (Map.put m k v) k d = v := by
  simp [Map.getD]

theorem Map.getD_put_other {κ α : Type} [DecidableEq κ] (m : Map κ α) (k l : κ) (v d : α) (h : l ≠ k) :
    Map.getD (Map.put m k v) l d = Map.getD m l d := by
  simp [Map.getD, Map.look_put_other m k l v h]

variable (p : Pkg)

/-! ## Reads after writes -/

@[simp] theorem getReg_setReg_same (g : Page) (o : Nat) (v : Word) : getReg (setReg p g o v) g o = v := by simp [getReg, setReg]

theorem getReg_setReg_other (g h : Page) (o k : Nat) (v : Word) (e : ¬(h = g ∧ k = o)) :
    getReg (setReg p g o v) h k = getReg p h k := by
  have : (⟨h, k⟩ : Reg) ≠ ⟨g, o⟩ := by intro c; injection c with c1 c2; exact e ⟨c1, c2⟩
  simp [getReg, setReg, Map.getD_put_other _ _ _ _ _ this]

@[simp] theorem getReg_setReg_page (g h : Page) (o k : Nat) (v : Word) (e : h ≠ g) : getReg (setReg p g o v) h k = getReg p h k :=
  getReg_setReg_other p g h o k v (fun c => e c.1)

@[simp] theorem getReg_setReg_off (g : Page) (o k : Nat) (v : Word) (e : k ≠ o) : getReg (setReg p g o v) g k = getReg p g k :=
  getReg_setReg_other p g g o k v (fun c => e c.2)

@[simp] theorem getReg_setBlock (g h : Page) (b : Block) (o : Nat) : getReg (setBlock p g b) h o = getReg p h o := rfl
@[simp] theorem getReg_setEntry (g h : Page) (t i : Nat) (v : Word) (o : Nat) : getReg (setEntry p g t i v) h o = getReg p h o := rfl
@[simp] theorem block_setReg (g h : Page) (o : Nat) (v : Word) : block (setReg p g o v) h = block p h := rfl
@[simp] theorem block_setEntry (g h : Page) (t i : Nat) (v : Word) : block (setEntry p g t i v) h = block p h := rfl
@[simp] theorem block_setBlock_same (g : Page) (b : Block) : block (setBlock p g b) g = b := by simp [block, setBlock]
theorem block_setBlock_other (g h : Page) (b : Block) (e : h ≠ g) : block (setBlock p g b) h = block p h := by
  simp [block, setBlock, Map.getD_put_other _ _ _ _ _ e]
@[simp] theorem stateOf_setReg (g h : Page) (o : Nat) (v : Word) : stateOf (setReg p g o v) h = stateOf p h := rfl
@[simp] theorem enabled_setReg (g h : Page) (o : Nat) (v : Word) : enabled (setReg p g o v) h = enabled p h := rfl
@[simp] theorem entryVal_setReg (g h : Page) (o t i : Nat) (v : Word) : entryVal (setReg p g o v) h t i = entryVal p h t i := rfl
@[simp] theorem entryVal_setBlock (g h : Page) (b : Block) (t i : Nat) : entryVal (setBlock p g b) h t i = entryVal p h t i := rfl
@[simp] theorem entryVal_setEntry_same (g : Page) (t i : Nat) (v : Word) : entryVal (setEntry p g t i v) g t i = v := by
  simp [entryVal, getEntry, setEntry]
@[simp] theorem entryOk_setEntry_same (g : Page) (t i : Nat) (v : Word) : entryOk (setEntry p g t i v) g t i = true := by
  simp [entryOk, getEntry, setEntry]

/-- A register write stores value and complement: the check of R42 passes. -/
@[simp] theorem pairOk_storePair (g : Page) (o : Nat) (v : Word) : pairOk (storePair p g o v) g o = true := by
  simp [pairOk, storePair]

@[simp] theorem getReg_storePair (g : Page) (o : Nat) (v : Word) : getReg (storePair p g o v) g o = v := by
  simp [storePair]

/-! ## setReg64 -/

@[simp] theorem setReg64_bell (g : Page) (o : Nat) (v : DWord) : (setReg64 p g o v).bell = p.bell := rfl
@[simp] theorem setReg64_count (g : Page) (o : Nat) (v : DWord) : (setReg64 p g o v).count = p.count := rfl
@[simp] theorem setReg64_bellU (g : Page) (o : Nat) (v : DWord) : (setReg64 p g o v).bellU = p.bellU := rfl
@[simp] theorem setReg64_ports (g : Page) (o : Nat) (v : DWord) : (setReg64 p g o v).ports = p.ports := rfl
@[simp] theorem setReg64_routers (g : Page) (o : Nat) (v : DWord) : (setReg64 p g o v).routers = p.routers := rfl
@[simp] theorem setReg64_inbox (g : Page) (o : Nat) (v : DWord) : (setReg64 p g o v).inbox = p.inbox := rfl
@[simp] theorem setReg64_budget (g : Page) (o : Nat) (v : DWord) : (setReg64 p g o v).budget = p.budget := rfl
@[simp] theorem setReg64_mem (g : Page) (o : Nat) (v : DWord) : (setReg64 p g o v).mem = p.mem := rfl
@[simp] theorem setReg64_poison (g : Page) (o : Nat) (v : DWord) : (setReg64 p g o v).poison = p.poison := rfl
@[simp] theorem setReg64_ctxs (g : Page) (o : Nat) (v : DWord) : (setReg64 p g o v).ctxs = p.ctxs := rfl
@[simp] theorem setReg64_insts (g : Page) (o : Nat) (v : DWord) : (setReg64 p g o v).insts = p.insts := rfl
@[simp] theorem setReg64_stores (g : Page) (o : Nat) (v : DWord) : (setReg64 p g o v).stores = p.stores := rfl
@[simp] theorem setReg64_wins (g : Page) (o : Nat) (v : DWord) : (setReg64 p g o v).wins = p.wins := rfl
@[simp] theorem setReg64_engines (g : Page) (o : Nat) (v : DWord) : (setReg64 p g o v).engines = p.engines := rfl
@[simp] theorem setReg64_creqs (g : Page) (o : Nat) (v : DWord) : (setReg64 p g o v).creqs = p.creqs := rfl
@[simp] theorem setReg64_atomWins (g : Page) (o : Nat) (v : DWord) : (setReg64 p g o v).atomWins = p.atomWins := rfl
@[simp] theorem setReg64_ledgers (g : Page) (o : Nat) (v : DWord) : (setReg64 p g o v).ledgers = p.ledgers := rfl
@[simp] theorem setReg64_fences (g : Page) (o : Nat) (v : DWord) : (setReg64 p g o v).fences = p.fences := rfl
@[simp] theorem setReg64_quarantined (g : Page) (o : Nat) (v : DWord) : (setReg64 p g o v).quarantined = p.quarantined := rfl
@[simp] theorem setReg64_bobs (g : Page) (o : Nat) (v : DWord) : (setReg64 p g o v).bobs = p.bobs := rfl
@[simp] theorem setReg64_wells (g : Page) (o : Nat) (v : DWord) : (setReg64 p g o v).wells = p.wells := rfl
@[simp] theorem setReg64_spares (g : Page) (o : Nat) (v : DWord) : (setReg64 p g o v).spares = p.spares := rfl
@[simp] theorem setReg64_retired (g : Page) (o : Nat) (v : DWord) : (setReg64 p g o v).retired = p.retired := rfl
@[simp] theorem setReg64_nextSeq (g : Page) (o : Nat) (v : DWord) : (setReg64 p g o v).nextSeq = p.nextSeq := rfl
@[simp] theorem setReg64_nextId (g : Page) (o : Nat) (v : DWord) : (setReg64 p g o v).nextId = p.nextId := rfl
@[simp] theorem setReg64_records (g : Page) (o : Nat) (v : DWord) : (setReg64 p g o v).records = p.records := rfl
@[simp] theorem setReg64_nvPending (g : Page) (o : Nat) (v : DWord) : (setReg64 p g o v).nvPending = p.nvPending := rfl
@[simp] theorem setReg64_nvRecords (g : Page) (o : Nat) (v : DWord) : (setReg64 p g o v).nvRecords = p.nvRecords := rfl
@[simp] theorem setReg64_boots (g : Page) (o : Nat) (v : DWord) : (setReg64 p g o v).boots = p.boots := rfl
@[simp] theorem setReg64_serving (g : Page) (o : Nat) (v : DWord) : (setReg64 p g o v).serving = p.serving := rfl
@[simp] theorem setReg64_pw (g : Page) (o : Nat) (v : DWord) : (setReg64 p g o v).pw = p.pw := rfl
@[simp] theorem setReg64_stackUnits (g : Page) (o : Nat) (v : DWord) : (setReg64 p g o v).stackUnits = p.stackUnits := rfl
@[simp] theorem setReg64_mills (g : Page) (o : Nat) (v : DWord) : (setReg64 p g o v).mills = p.mills := rfl
@[simp] theorem setReg64_sels (g : Page) (o : Nat) (v : DWord) : (setReg64 p g o v).sels = p.sels := rfl
@[simp] theorem setReg64_selPorts (g : Page) (o : Nat) (v : DWord) : (setReg64 p g o v).selPorts = p.selPorts := rfl
@[simp] theorem setReg64_rv (g : Page) (o : Nat) (v : DWord) : (setReg64 p g o v).rv = p.rv := rfl
@[simp] theorem setReg64_boot (g : Page) (o : Nat) (v : DWord) : (setReg64 p g o v).boot = p.boot := rfl
@[simp] theorem setReg64_pins (g : Page) (o : Nat) (v : DWord) : (setReg64 p g o v).pins = p.pins := rfl
@[simp] theorem setReg64_stitches (g : Page) (o : Nat) (v : DWord) : (setReg64 p g o v).stitches = p.stitches := rfl
@[simp] theorem setReg64_thims (g : Page) (o : Nat) (v : DWord) : (setReg64 p g o v).thims = p.thims := rfl
@[simp] theorem setReg64_dbg (g : Page) (o : Nat) (v : DWord) : (setReg64 p g o v).dbg = p.dbg := rfl
@[simp] theorem setReg64_lost (g : Page) (o : Nat) (v : DWord) : (setReg64 p g o v).lost = p.lost := rfl
@[simp] theorem setReg64_out (g : Page) (o : Nat) (v : DWord) : (setReg64 p g o v).out = p.out := rfl
@[simp] theorem setReg64_free (g : Page) (o : Nat) (v : DWord) : (setReg64 p g o v).free = p.free := rfl

/-! ## storePair -/

@[simp] theorem storePair_bell (g : Page) (o : Nat) (v : Word) : (storePair p g o v).bell = p.bell := rfl
@[simp] theorem storePair_count (g : Page) (o : Nat) (v : Word) : (storePair p g o v).count = p.count := rfl
@[simp] theorem storePair_bellU (g : Page) (o : Nat) (v : Word) : (storePair p g o v).bellU = p.bellU := rfl
@[simp] theorem storePair_ports (g : Page) (o : Nat) (v : Word) : (storePair p g o v).ports = p.ports := rfl
@[simp] theorem storePair_routers (g : Page) (o : Nat) (v : Word) : (storePair p g o v).routers = p.routers := rfl
@[simp] theorem storePair_inbox (g : Page) (o : Nat) (v : Word) : (storePair p g o v).inbox = p.inbox := rfl
@[simp] theorem storePair_budget (g : Page) (o : Nat) (v : Word) : (storePair p g o v).budget = p.budget := rfl
@[simp] theorem storePair_mem (g : Page) (o : Nat) (v : Word) : (storePair p g o v).mem = p.mem := rfl
@[simp] theorem storePair_poison (g : Page) (o : Nat) (v : Word) : (storePair p g o v).poison = p.poison := rfl
@[simp] theorem storePair_ctxs (g : Page) (o : Nat) (v : Word) : (storePair p g o v).ctxs = p.ctxs := rfl
@[simp] theorem storePair_insts (g : Page) (o : Nat) (v : Word) : (storePair p g o v).insts = p.insts := rfl
@[simp] theorem storePair_stores (g : Page) (o : Nat) (v : Word) : (storePair p g o v).stores = p.stores := rfl
@[simp] theorem storePair_wins (g : Page) (o : Nat) (v : Word) : (storePair p g o v).wins = p.wins := rfl
@[simp] theorem storePair_engines (g : Page) (o : Nat) (v : Word) : (storePair p g o v).engines = p.engines := rfl
@[simp] theorem storePair_creqs (g : Page) (o : Nat) (v : Word) : (storePair p g o v).creqs = p.creqs := rfl
@[simp] theorem storePair_atomWins (g : Page) (o : Nat) (v : Word) : (storePair p g o v).atomWins = p.atomWins := rfl
@[simp] theorem storePair_ledgers (g : Page) (o : Nat) (v : Word) : (storePair p g o v).ledgers = p.ledgers := rfl
@[simp] theorem storePair_fences (g : Page) (o : Nat) (v : Word) : (storePair p g o v).fences = p.fences := rfl
@[simp] theorem storePair_quarantined (g : Page) (o : Nat) (v : Word) : (storePair p g o v).quarantined = p.quarantined := rfl
@[simp] theorem storePair_bobs (g : Page) (o : Nat) (v : Word) : (storePair p g o v).bobs = p.bobs := rfl
@[simp] theorem storePair_wells (g : Page) (o : Nat) (v : Word) : (storePair p g o v).wells = p.wells := rfl
@[simp] theorem storePair_spares (g : Page) (o : Nat) (v : Word) : (storePair p g o v).spares = p.spares := rfl
@[simp] theorem storePair_retired (g : Page) (o : Nat) (v : Word) : (storePair p g o v).retired = p.retired := rfl
@[simp] theorem storePair_nextSeq (g : Page) (o : Nat) (v : Word) : (storePair p g o v).nextSeq = p.nextSeq := rfl
@[simp] theorem storePair_nextId (g : Page) (o : Nat) (v : Word) : (storePair p g o v).nextId = p.nextId := rfl
@[simp] theorem storePair_records (g : Page) (o : Nat) (v : Word) : (storePair p g o v).records = p.records := rfl
@[simp] theorem storePair_nvPending (g : Page) (o : Nat) (v : Word) : (storePair p g o v).nvPending = p.nvPending := rfl
@[simp] theorem storePair_nvRecords (g : Page) (o : Nat) (v : Word) : (storePair p g o v).nvRecords = p.nvRecords := rfl
@[simp] theorem storePair_boots (g : Page) (o : Nat) (v : Word) : (storePair p g o v).boots = p.boots := rfl
@[simp] theorem storePair_serving (g : Page) (o : Nat) (v : Word) : (storePair p g o v).serving = p.serving := rfl
@[simp] theorem storePair_pw (g : Page) (o : Nat) (v : Word) : (storePair p g o v).pw = p.pw := rfl
@[simp] theorem storePair_stackUnits (g : Page) (o : Nat) (v : Word) : (storePair p g o v).stackUnits = p.stackUnits := rfl
@[simp] theorem storePair_mills (g : Page) (o : Nat) (v : Word) : (storePair p g o v).mills = p.mills := rfl
@[simp] theorem storePair_sels (g : Page) (o : Nat) (v : Word) : (storePair p g o v).sels = p.sels := rfl
@[simp] theorem storePair_selPorts (g : Page) (o : Nat) (v : Word) : (storePair p g o v).selPorts = p.selPorts := rfl
@[simp] theorem storePair_rv (g : Page) (o : Nat) (v : Word) : (storePair p g o v).rv = p.rv := rfl
@[simp] theorem storePair_boot (g : Page) (o : Nat) (v : Word) : (storePair p g o v).boot = p.boot := rfl
@[simp] theorem storePair_pins (g : Page) (o : Nat) (v : Word) : (storePair p g o v).pins = p.pins := rfl
@[simp] theorem storePair_stitches (g : Page) (o : Nat) (v : Word) : (storePair p g o v).stitches = p.stitches := rfl
@[simp] theorem storePair_thims (g : Page) (o : Nat) (v : Word) : (storePair p g o v).thims = p.thims := rfl
@[simp] theorem storePair_dbg (g : Page) (o : Nat) (v : Word) : (storePair p g o v).dbg = p.dbg := rfl
@[simp] theorem storePair_lost (g : Page) (o : Nat) (v : Word) : (storePair p g o v).lost = p.lost := rfl
@[simp] theorem storePair_out (g : Page) (o : Nat) (v : Word) : (storePair p g o v).out = p.out := rfl
@[simp] theorem storePair_free (g : Page) (o : Nat) (v : Word) : (storePair p g o v).free = p.free := rfl

/-! ## storePair64 -/

@[simp] theorem storePair64_bell (g : Page) (o : Nat) (v : DWord) : (storePair64 p g o v).bell = p.bell := rfl
@[simp] theorem storePair64_count (g : Page) (o : Nat) (v : DWord) : (storePair64 p g o v).count = p.count := rfl
@[simp] theorem storePair64_bellU (g : Page) (o : Nat) (v : DWord) : (storePair64 p g o v).bellU = p.bellU := rfl
@[simp] theorem storePair64_ports (g : Page) (o : Nat) (v : DWord) : (storePair64 p g o v).ports = p.ports := rfl
@[simp] theorem storePair64_routers (g : Page) (o : Nat) (v : DWord) : (storePair64 p g o v).routers = p.routers := rfl
@[simp] theorem storePair64_inbox (g : Page) (o : Nat) (v : DWord) : (storePair64 p g o v).inbox = p.inbox := rfl
@[simp] theorem storePair64_budget (g : Page) (o : Nat) (v : DWord) : (storePair64 p g o v).budget = p.budget := rfl
@[simp] theorem storePair64_mem (g : Page) (o : Nat) (v : DWord) : (storePair64 p g o v).mem = p.mem := rfl
@[simp] theorem storePair64_poison (g : Page) (o : Nat) (v : DWord) : (storePair64 p g o v).poison = p.poison := rfl
@[simp] theorem storePair64_ctxs (g : Page) (o : Nat) (v : DWord) : (storePair64 p g o v).ctxs = p.ctxs := rfl
@[simp] theorem storePair64_insts (g : Page) (o : Nat) (v : DWord) : (storePair64 p g o v).insts = p.insts := rfl
@[simp] theorem storePair64_stores (g : Page) (o : Nat) (v : DWord) : (storePair64 p g o v).stores = p.stores := rfl
@[simp] theorem storePair64_wins (g : Page) (o : Nat) (v : DWord) : (storePair64 p g o v).wins = p.wins := rfl
@[simp] theorem storePair64_engines (g : Page) (o : Nat) (v : DWord) : (storePair64 p g o v).engines = p.engines := rfl
@[simp] theorem storePair64_creqs (g : Page) (o : Nat) (v : DWord) : (storePair64 p g o v).creqs = p.creqs := rfl
@[simp] theorem storePair64_atomWins (g : Page) (o : Nat) (v : DWord) : (storePair64 p g o v).atomWins = p.atomWins := rfl
@[simp] theorem storePair64_ledgers (g : Page) (o : Nat) (v : DWord) : (storePair64 p g o v).ledgers = p.ledgers := rfl
@[simp] theorem storePair64_fences (g : Page) (o : Nat) (v : DWord) : (storePair64 p g o v).fences = p.fences := rfl
@[simp] theorem storePair64_quarantined (g : Page) (o : Nat) (v : DWord) : (storePair64 p g o v).quarantined = p.quarantined := rfl
@[simp] theorem storePair64_bobs (g : Page) (o : Nat) (v : DWord) : (storePair64 p g o v).bobs = p.bobs := rfl
@[simp] theorem storePair64_wells (g : Page) (o : Nat) (v : DWord) : (storePair64 p g o v).wells = p.wells := rfl
@[simp] theorem storePair64_spares (g : Page) (o : Nat) (v : DWord) : (storePair64 p g o v).spares = p.spares := rfl
@[simp] theorem storePair64_retired (g : Page) (o : Nat) (v : DWord) : (storePair64 p g o v).retired = p.retired := rfl
@[simp] theorem storePair64_nextSeq (g : Page) (o : Nat) (v : DWord) : (storePair64 p g o v).nextSeq = p.nextSeq := rfl
@[simp] theorem storePair64_nextId (g : Page) (o : Nat) (v : DWord) : (storePair64 p g o v).nextId = p.nextId := rfl
@[simp] theorem storePair64_records (g : Page) (o : Nat) (v : DWord) : (storePair64 p g o v).records = p.records := rfl
@[simp] theorem storePair64_nvPending (g : Page) (o : Nat) (v : DWord) : (storePair64 p g o v).nvPending = p.nvPending := rfl
@[simp] theorem storePair64_nvRecords (g : Page) (o : Nat) (v : DWord) : (storePair64 p g o v).nvRecords = p.nvRecords := rfl
@[simp] theorem storePair64_boots (g : Page) (o : Nat) (v : DWord) : (storePair64 p g o v).boots = p.boots := rfl
@[simp] theorem storePair64_serving (g : Page) (o : Nat) (v : DWord) : (storePair64 p g o v).serving = p.serving := rfl
@[simp] theorem storePair64_pw (g : Page) (o : Nat) (v : DWord) : (storePair64 p g o v).pw = p.pw := rfl
@[simp] theorem storePair64_stackUnits (g : Page) (o : Nat) (v : DWord) : (storePair64 p g o v).stackUnits = p.stackUnits := rfl
@[simp] theorem storePair64_mills (g : Page) (o : Nat) (v : DWord) : (storePair64 p g o v).mills = p.mills := rfl
@[simp] theorem storePair64_sels (g : Page) (o : Nat) (v : DWord) : (storePair64 p g o v).sels = p.sels := rfl
@[simp] theorem storePair64_selPorts (g : Page) (o : Nat) (v : DWord) : (storePair64 p g o v).selPorts = p.selPorts := rfl
@[simp] theorem storePair64_rv (g : Page) (o : Nat) (v : DWord) : (storePair64 p g o v).rv = p.rv := rfl
@[simp] theorem storePair64_boot (g : Page) (o : Nat) (v : DWord) : (storePair64 p g o v).boot = p.boot := rfl
@[simp] theorem storePair64_pins (g : Page) (o : Nat) (v : DWord) : (storePair64 p g o v).pins = p.pins := rfl
@[simp] theorem storePair64_stitches (g : Page) (o : Nat) (v : DWord) : (storePair64 p g o v).stitches = p.stitches := rfl
@[simp] theorem storePair64_thims (g : Page) (o : Nat) (v : DWord) : (storePair64 p g o v).thims = p.thims := rfl
@[simp] theorem storePair64_dbg (g : Page) (o : Nat) (v : DWord) : (storePair64 p g o v).dbg = p.dbg := rfl
@[simp] theorem storePair64_lost (g : Page) (o : Nat) (v : DWord) : (storePair64 p g o v).lost = p.lost := rfl
@[simp] theorem storePair64_out (g : Page) (o : Nat) (v : DWord) : (storePair64 p g o v).out = p.out := rfl
@[simp] theorem storePair64_free (g : Page) (o : Nat) (v : DWord) : (storePair64 p g o v).free = p.free := rfl

/-! ## bump -/

@[simp] theorem bump_bell (g : Page) (o n : Nat) : (bump p g o n).bell = p.bell := rfl
@[simp] theorem bump_count (g : Page) (o n : Nat) : (bump p g o n).count = p.count := rfl
@[simp] theorem bump_bellU (g : Page) (o n : Nat) : (bump p g o n).bellU = p.bellU := rfl
@[simp] theorem bump_ports (g : Page) (o n : Nat) : (bump p g o n).ports = p.ports := rfl
@[simp] theorem bump_routers (g : Page) (o n : Nat) : (bump p g o n).routers = p.routers := rfl
@[simp] theorem bump_inbox (g : Page) (o n : Nat) : (bump p g o n).inbox = p.inbox := rfl
@[simp] theorem bump_budget (g : Page) (o n : Nat) : (bump p g o n).budget = p.budget := rfl
@[simp] theorem bump_mem (g : Page) (o n : Nat) : (bump p g o n).mem = p.mem := rfl
@[simp] theorem bump_poison (g : Page) (o n : Nat) : (bump p g o n).poison = p.poison := rfl
@[simp] theorem bump_ctxs (g : Page) (o n : Nat) : (bump p g o n).ctxs = p.ctxs := rfl
@[simp] theorem bump_insts (g : Page) (o n : Nat) : (bump p g o n).insts = p.insts := rfl
@[simp] theorem bump_stores (g : Page) (o n : Nat) : (bump p g o n).stores = p.stores := rfl
@[simp] theorem bump_wins (g : Page) (o n : Nat) : (bump p g o n).wins = p.wins := rfl
@[simp] theorem bump_engines (g : Page) (o n : Nat) : (bump p g o n).engines = p.engines := rfl
@[simp] theorem bump_creqs (g : Page) (o n : Nat) : (bump p g o n).creqs = p.creqs := rfl
@[simp] theorem bump_atomWins (g : Page) (o n : Nat) : (bump p g o n).atomWins = p.atomWins := rfl
@[simp] theorem bump_ledgers (g : Page) (o n : Nat) : (bump p g o n).ledgers = p.ledgers := rfl
@[simp] theorem bump_fences (g : Page) (o n : Nat) : (bump p g o n).fences = p.fences := rfl
@[simp] theorem bump_quarantined (g : Page) (o n : Nat) : (bump p g o n).quarantined = p.quarantined := rfl
@[simp] theorem bump_bobs (g : Page) (o n : Nat) : (bump p g o n).bobs = p.bobs := rfl
@[simp] theorem bump_wells (g : Page) (o n : Nat) : (bump p g o n).wells = p.wells := rfl
@[simp] theorem bump_spares (g : Page) (o n : Nat) : (bump p g o n).spares = p.spares := rfl
@[simp] theorem bump_retired (g : Page) (o n : Nat) : (bump p g o n).retired = p.retired := rfl
@[simp] theorem bump_nextSeq (g : Page) (o n : Nat) : (bump p g o n).nextSeq = p.nextSeq := rfl
@[simp] theorem bump_nextId (g : Page) (o n : Nat) : (bump p g o n).nextId = p.nextId := rfl
@[simp] theorem bump_records (g : Page) (o n : Nat) : (bump p g o n).records = p.records := rfl
@[simp] theorem bump_nvPending (g : Page) (o n : Nat) : (bump p g o n).nvPending = p.nvPending := rfl
@[simp] theorem bump_nvRecords (g : Page) (o n : Nat) : (bump p g o n).nvRecords = p.nvRecords := rfl
@[simp] theorem bump_boots (g : Page) (o n : Nat) : (bump p g o n).boots = p.boots := rfl
@[simp] theorem bump_serving (g : Page) (o n : Nat) : (bump p g o n).serving = p.serving := rfl
@[simp] theorem bump_pw (g : Page) (o n : Nat) : (bump p g o n).pw = p.pw := rfl
@[simp] theorem bump_stackUnits (g : Page) (o n : Nat) : (bump p g o n).stackUnits = p.stackUnits := rfl
@[simp] theorem bump_mills (g : Page) (o n : Nat) : (bump p g o n).mills = p.mills := rfl
@[simp] theorem bump_sels (g : Page) (o n : Nat) : (bump p g o n).sels = p.sels := rfl
@[simp] theorem bump_selPorts (g : Page) (o n : Nat) : (bump p g o n).selPorts = p.selPorts := rfl
@[simp] theorem bump_rv (g : Page) (o n : Nat) : (bump p g o n).rv = p.rv := rfl
@[simp] theorem bump_boot (g : Page) (o n : Nat) : (bump p g o n).boot = p.boot := rfl
@[simp] theorem bump_pins (g : Page) (o n : Nat) : (bump p g o n).pins = p.pins := rfl
@[simp] theorem bump_stitches (g : Page) (o n : Nat) : (bump p g o n).stitches = p.stitches := rfl
@[simp] theorem bump_thims (g : Page) (o n : Nat) : (bump p g o n).thims = p.thims := rfl
@[simp] theorem bump_dbg (g : Page) (o n : Nat) : (bump p g o n).dbg = p.dbg := rfl
@[simp] theorem bump_lost (g : Page) (o n : Nat) : (bump p g o n).lost = p.lost := rfl
@[simp] theorem bump_out (g : Page) (o n : Nat) : (bump p g o n).out = p.out := rfl
@[simp] theorem bump_free (g : Page) (o n : Nat) : (bump p g o n).free = p.free := rfl

/-! ## raise -/

@[simp] theorem raise_bell (g : Page) (i : Nat) : (raise p g i).bell = p.bell := by unfold raise; dsimp only; split <;> rfl
@[simp] theorem raise_count (g : Page) (i : Nat) : (raise p g i).count = p.count := by unfold raise; dsimp only; split <;> rfl
@[simp] theorem raise_bellU (g : Page) (i : Nat) : (raise p g i).bellU = p.bellU := by unfold raise; dsimp only; split <;> rfl
@[simp] theorem raise_ports (g : Page) (i : Nat) : (raise p g i).ports = p.ports := by unfold raise; dsimp only; split <;> rfl
@[simp] theorem raise_routers (g : Page) (i : Nat) : (raise p g i).routers = p.routers := by unfold raise; dsimp only; split <;> rfl
@[simp] theorem raise_inbox (g : Page) (i : Nat) : (raise p g i).inbox = p.inbox := by unfold raise; dsimp only; split <;> rfl
@[simp] theorem raise_budget (g : Page) (i : Nat) : (raise p g i).budget = p.budget := by unfold raise; dsimp only; split <;> rfl
@[simp] theorem raise_mem (g : Page) (i : Nat) : (raise p g i).mem = p.mem := by unfold raise; dsimp only; split <;> rfl
@[simp] theorem raise_poison (g : Page) (i : Nat) : (raise p g i).poison = p.poison := by unfold raise; dsimp only; split <;> rfl
@[simp] theorem raise_ctxs (g : Page) (i : Nat) : (raise p g i).ctxs = p.ctxs := by unfold raise; dsimp only; split <;> rfl
@[simp] theorem raise_insts (g : Page) (i : Nat) : (raise p g i).insts = p.insts := by unfold raise; dsimp only; split <;> rfl
@[simp] theorem raise_stores (g : Page) (i : Nat) : (raise p g i).stores = p.stores := by unfold raise; dsimp only; split <;> rfl
@[simp] theorem raise_wins (g : Page) (i : Nat) : (raise p g i).wins = p.wins := by unfold raise; dsimp only; split <;> rfl
@[simp] theorem raise_engines (g : Page) (i : Nat) : (raise p g i).engines = p.engines := by unfold raise; dsimp only; split <;> rfl
@[simp] theorem raise_creqs (g : Page) (i : Nat) : (raise p g i).creqs = p.creqs := by unfold raise; dsimp only; split <;> rfl
@[simp] theorem raise_atomWins (g : Page) (i : Nat) : (raise p g i).atomWins = p.atomWins := by unfold raise; dsimp only; split <;> rfl
@[simp] theorem raise_ledgers (g : Page) (i : Nat) : (raise p g i).ledgers = p.ledgers := by unfold raise; dsimp only; split <;> rfl
@[simp] theorem raise_fences (g : Page) (i : Nat) : (raise p g i).fences = p.fences := by unfold raise; dsimp only; split <;> rfl
@[simp] theorem raise_quarantined (g : Page) (i : Nat) : (raise p g i).quarantined = p.quarantined := by unfold raise; dsimp only; split <;> rfl
@[simp] theorem raise_bobs (g : Page) (i : Nat) : (raise p g i).bobs = p.bobs := by unfold raise; dsimp only; split <;> rfl
@[simp] theorem raise_wells (g : Page) (i : Nat) : (raise p g i).wells = p.wells := by unfold raise; dsimp only; split <;> rfl
@[simp] theorem raise_spares (g : Page) (i : Nat) : (raise p g i).spares = p.spares := by unfold raise; dsimp only; split <;> rfl
@[simp] theorem raise_retired (g : Page) (i : Nat) : (raise p g i).retired = p.retired := by unfold raise; dsimp only; split <;> rfl
@[simp] theorem raise_nextSeq (g : Page) (i : Nat) : (raise p g i).nextSeq = p.nextSeq := by unfold raise; dsimp only; split <;> rfl
@[simp] theorem raise_nextId (g : Page) (i : Nat) : (raise p g i).nextId = p.nextId := by unfold raise; dsimp only; split <;> rfl
@[simp] theorem raise_records (g : Page) (i : Nat) : (raise p g i).records = p.records := by unfold raise; dsimp only; split <;> rfl
@[simp] theorem raise_nvPending (g : Page) (i : Nat) : (raise p g i).nvPending = p.nvPending := by unfold raise; dsimp only; split <;> rfl
@[simp] theorem raise_nvRecords (g : Page) (i : Nat) : (raise p g i).nvRecords = p.nvRecords := by unfold raise; dsimp only; split <;> rfl
@[simp] theorem raise_boots (g : Page) (i : Nat) : (raise p g i).boots = p.boots := by unfold raise; dsimp only; split <;> rfl
@[simp] theorem raise_serving (g : Page) (i : Nat) : (raise p g i).serving = p.serving := by unfold raise; dsimp only; split <;> rfl
@[simp] theorem raise_pw (g : Page) (i : Nat) : (raise p g i).pw = p.pw := by unfold raise; dsimp only; split <;> rfl
@[simp] theorem raise_stackUnits (g : Page) (i : Nat) : (raise p g i).stackUnits = p.stackUnits := by unfold raise; dsimp only; split <;> rfl
@[simp] theorem raise_mills (g : Page) (i : Nat) : (raise p g i).mills = p.mills := by unfold raise; dsimp only; split <;> rfl
@[simp] theorem raise_sels (g : Page) (i : Nat) : (raise p g i).sels = p.sels := by unfold raise; dsimp only; split <;> rfl
@[simp] theorem raise_selPorts (g : Page) (i : Nat) : (raise p g i).selPorts = p.selPorts := by unfold raise; dsimp only; split <;> rfl
@[simp] theorem raise_rv (g : Page) (i : Nat) : (raise p g i).rv = p.rv := by unfold raise; dsimp only; split <;> rfl
@[simp] theorem raise_boot (g : Page) (i : Nat) : (raise p g i).boot = p.boot := by unfold raise; dsimp only; split <;> rfl
@[simp] theorem raise_pins (g : Page) (i : Nat) : (raise p g i).pins = p.pins := by unfold raise; dsimp only; split <;> rfl
@[simp] theorem raise_stitches (g : Page) (i : Nat) : (raise p g i).stitches = p.stitches := by unfold raise; dsimp only; split <;> rfl
@[simp] theorem raise_thims (g : Page) (i : Nat) : (raise p g i).thims = p.thims := by unfold raise; dsimp only; split <;> rfl
@[simp] theorem raise_dbg (g : Page) (i : Nat) : (raise p g i).dbg = p.dbg := by unfold raise; dsimp only; split <;> rfl
@[simp] theorem raise_lost (g : Page) (i : Nat) : (raise p g i).lost = p.lost := by unfold raise; dsimp only; split <;> rfl
@[simp] theorem raise_out (g : Page) (i : Nat) : (raise p g i).out = p.out := by unfold raise; dsimp only; split <;> rfl
@[simp] theorem raise_free (g : Page) (i : Nat) : (raise p g i).free = p.free := by unfold raise; dsimp only; split <;> rfl

/-! ## tallyIn -/

@[simp] theorem tallyIn_bell (g : Page) (n : Nat) : (tallyIn p g n).bell = p.bell := rfl
@[simp] theorem tallyIn_count (g : Page) (n : Nat) : (tallyIn p g n).count = p.count := rfl
@[simp] theorem tallyIn_bellU (g : Page) (n : Nat) : (tallyIn p g n).bellU = p.bellU := rfl
@[simp] theorem tallyIn_ports (g : Page) (n : Nat) : (tallyIn p g n).ports = p.ports := rfl
@[simp] theorem tallyIn_routers (g : Page) (n : Nat) : (tallyIn p g n).routers = p.routers := rfl
@[simp] theorem tallyIn_inbox (g : Page) (n : Nat) : (tallyIn p g n).inbox = p.inbox := rfl
@[simp] theorem tallyIn_budget (g : Page) (n : Nat) : (tallyIn p g n).budget = p.budget := rfl
@[simp] theorem tallyIn_mem (g : Page) (n : Nat) : (tallyIn p g n).mem = p.mem := rfl
@[simp] theorem tallyIn_poison (g : Page) (n : Nat) : (tallyIn p g n).poison = p.poison := rfl
@[simp] theorem tallyIn_ctxs (g : Page) (n : Nat) : (tallyIn p g n).ctxs = p.ctxs := rfl
@[simp] theorem tallyIn_insts (g : Page) (n : Nat) : (tallyIn p g n).insts = p.insts := rfl
@[simp] theorem tallyIn_stores (g : Page) (n : Nat) : (tallyIn p g n).stores = p.stores := rfl
@[simp] theorem tallyIn_wins (g : Page) (n : Nat) : (tallyIn p g n).wins = p.wins := rfl
@[simp] theorem tallyIn_engines (g : Page) (n : Nat) : (tallyIn p g n).engines = p.engines := rfl
@[simp] theorem tallyIn_creqs (g : Page) (n : Nat) : (tallyIn p g n).creqs = p.creqs := rfl
@[simp] theorem tallyIn_atomWins (g : Page) (n : Nat) : (tallyIn p g n).atomWins = p.atomWins := rfl
@[simp] theorem tallyIn_ledgers (g : Page) (n : Nat) : (tallyIn p g n).ledgers = p.ledgers := rfl
@[simp] theorem tallyIn_fences (g : Page) (n : Nat) : (tallyIn p g n).fences = p.fences := rfl
@[simp] theorem tallyIn_quarantined (g : Page) (n : Nat) : (tallyIn p g n).quarantined = p.quarantined := rfl
@[simp] theorem tallyIn_bobs (g : Page) (n : Nat) : (tallyIn p g n).bobs = p.bobs := rfl
@[simp] theorem tallyIn_wells (g : Page) (n : Nat) : (tallyIn p g n).wells = p.wells := rfl
@[simp] theorem tallyIn_spares (g : Page) (n : Nat) : (tallyIn p g n).spares = p.spares := rfl
@[simp] theorem tallyIn_retired (g : Page) (n : Nat) : (tallyIn p g n).retired = p.retired := rfl
@[simp] theorem tallyIn_nextSeq (g : Page) (n : Nat) : (tallyIn p g n).nextSeq = p.nextSeq := rfl
@[simp] theorem tallyIn_nextId (g : Page) (n : Nat) : (tallyIn p g n).nextId = p.nextId := rfl
@[simp] theorem tallyIn_records (g : Page) (n : Nat) : (tallyIn p g n).records = p.records := rfl
@[simp] theorem tallyIn_nvPending (g : Page) (n : Nat) : (tallyIn p g n).nvPending = p.nvPending := rfl
@[simp] theorem tallyIn_nvRecords (g : Page) (n : Nat) : (tallyIn p g n).nvRecords = p.nvRecords := rfl
@[simp] theorem tallyIn_boots (g : Page) (n : Nat) : (tallyIn p g n).boots = p.boots := rfl
@[simp] theorem tallyIn_serving (g : Page) (n : Nat) : (tallyIn p g n).serving = p.serving := rfl
@[simp] theorem tallyIn_pw (g : Page) (n : Nat) : (tallyIn p g n).pw = p.pw := rfl
@[simp] theorem tallyIn_stackUnits (g : Page) (n : Nat) : (tallyIn p g n).stackUnits = p.stackUnits := rfl
@[simp] theorem tallyIn_mills (g : Page) (n : Nat) : (tallyIn p g n).mills = p.mills := rfl
@[simp] theorem tallyIn_sels (g : Page) (n : Nat) : (tallyIn p g n).sels = p.sels := rfl
@[simp] theorem tallyIn_selPorts (g : Page) (n : Nat) : (tallyIn p g n).selPorts = p.selPorts := rfl
@[simp] theorem tallyIn_rv (g : Page) (n : Nat) : (tallyIn p g n).rv = p.rv := rfl
@[simp] theorem tallyIn_boot (g : Page) (n : Nat) : (tallyIn p g n).boot = p.boot := rfl
@[simp] theorem tallyIn_pins (g : Page) (n : Nat) : (tallyIn p g n).pins = p.pins := rfl
@[simp] theorem tallyIn_stitches (g : Page) (n : Nat) : (tallyIn p g n).stitches = p.stitches := rfl
@[simp] theorem tallyIn_thims (g : Page) (n : Nat) : (tallyIn p g n).thims = p.thims := rfl
@[simp] theorem tallyIn_dbg (g : Page) (n : Nat) : (tallyIn p g n).dbg = p.dbg := rfl
@[simp] theorem tallyIn_lost (g : Page) (n : Nat) : (tallyIn p g n).lost = p.lost := rfl
@[simp] theorem tallyIn_out (g : Page) (n : Nat) : (tallyIn p g n).out = p.out := rfl
@[simp] theorem tallyIn_free (g : Page) (n : Nat) : (tallyIn p g n).free = p.free := rfl

/-! ## tallyOut -/

@[simp] theorem tallyOut_bell (g : Page) (n : Nat) : (tallyOut p g n).bell = p.bell := rfl
@[simp] theorem tallyOut_count (g : Page) (n : Nat) : (tallyOut p g n).count = p.count := rfl
@[simp] theorem tallyOut_bellU (g : Page) (n : Nat) : (tallyOut p g n).bellU = p.bellU := rfl
@[simp] theorem tallyOut_ports (g : Page) (n : Nat) : (tallyOut p g n).ports = p.ports := rfl
@[simp] theorem tallyOut_routers (g : Page) (n : Nat) : (tallyOut p g n).routers = p.routers := rfl
@[simp] theorem tallyOut_inbox (g : Page) (n : Nat) : (tallyOut p g n).inbox = p.inbox := rfl
@[simp] theorem tallyOut_budget (g : Page) (n : Nat) : (tallyOut p g n).budget = p.budget := rfl
@[simp] theorem tallyOut_mem (g : Page) (n : Nat) : (tallyOut p g n).mem = p.mem := rfl
@[simp] theorem tallyOut_poison (g : Page) (n : Nat) : (tallyOut p g n).poison = p.poison := rfl
@[simp] theorem tallyOut_ctxs (g : Page) (n : Nat) : (tallyOut p g n).ctxs = p.ctxs := rfl
@[simp] theorem tallyOut_insts (g : Page) (n : Nat) : (tallyOut p g n).insts = p.insts := rfl
@[simp] theorem tallyOut_stores (g : Page) (n : Nat) : (tallyOut p g n).stores = p.stores := rfl
@[simp] theorem tallyOut_wins (g : Page) (n : Nat) : (tallyOut p g n).wins = p.wins := rfl
@[simp] theorem tallyOut_engines (g : Page) (n : Nat) : (tallyOut p g n).engines = p.engines := rfl
@[simp] theorem tallyOut_creqs (g : Page) (n : Nat) : (tallyOut p g n).creqs = p.creqs := rfl
@[simp] theorem tallyOut_atomWins (g : Page) (n : Nat) : (tallyOut p g n).atomWins = p.atomWins := rfl
@[simp] theorem tallyOut_ledgers (g : Page) (n : Nat) : (tallyOut p g n).ledgers = p.ledgers := rfl
@[simp] theorem tallyOut_fences (g : Page) (n : Nat) : (tallyOut p g n).fences = p.fences := rfl
@[simp] theorem tallyOut_quarantined (g : Page) (n : Nat) : (tallyOut p g n).quarantined = p.quarantined := rfl
@[simp] theorem tallyOut_bobs (g : Page) (n : Nat) : (tallyOut p g n).bobs = p.bobs := rfl
@[simp] theorem tallyOut_wells (g : Page) (n : Nat) : (tallyOut p g n).wells = p.wells := rfl
@[simp] theorem tallyOut_spares (g : Page) (n : Nat) : (tallyOut p g n).spares = p.spares := rfl
@[simp] theorem tallyOut_retired (g : Page) (n : Nat) : (tallyOut p g n).retired = p.retired := rfl
@[simp] theorem tallyOut_nextSeq (g : Page) (n : Nat) : (tallyOut p g n).nextSeq = p.nextSeq := rfl
@[simp] theorem tallyOut_nextId (g : Page) (n : Nat) : (tallyOut p g n).nextId = p.nextId := rfl
@[simp] theorem tallyOut_records (g : Page) (n : Nat) : (tallyOut p g n).records = p.records := rfl
@[simp] theorem tallyOut_nvPending (g : Page) (n : Nat) : (tallyOut p g n).nvPending = p.nvPending := rfl
@[simp] theorem tallyOut_nvRecords (g : Page) (n : Nat) : (tallyOut p g n).nvRecords = p.nvRecords := rfl
@[simp] theorem tallyOut_boots (g : Page) (n : Nat) : (tallyOut p g n).boots = p.boots := rfl
@[simp] theorem tallyOut_serving (g : Page) (n : Nat) : (tallyOut p g n).serving = p.serving := rfl
@[simp] theorem tallyOut_pw (g : Page) (n : Nat) : (tallyOut p g n).pw = p.pw := rfl
@[simp] theorem tallyOut_stackUnits (g : Page) (n : Nat) : (tallyOut p g n).stackUnits = p.stackUnits := rfl
@[simp] theorem tallyOut_mills (g : Page) (n : Nat) : (tallyOut p g n).mills = p.mills := rfl
@[simp] theorem tallyOut_sels (g : Page) (n : Nat) : (tallyOut p g n).sels = p.sels := rfl
@[simp] theorem tallyOut_selPorts (g : Page) (n : Nat) : (tallyOut p g n).selPorts = p.selPorts := rfl
@[simp] theorem tallyOut_rv (g : Page) (n : Nat) : (tallyOut p g n).rv = p.rv := rfl
@[simp] theorem tallyOut_boot (g : Page) (n : Nat) : (tallyOut p g n).boot = p.boot := rfl
@[simp] theorem tallyOut_pins (g : Page) (n : Nat) : (tallyOut p g n).pins = p.pins := rfl
@[simp] theorem tallyOut_stitches (g : Page) (n : Nat) : (tallyOut p g n).stitches = p.stitches := rfl
@[simp] theorem tallyOut_thims (g : Page) (n : Nat) : (tallyOut p g n).thims = p.thims := rfl
@[simp] theorem tallyOut_dbg (g : Page) (n : Nat) : (tallyOut p g n).dbg = p.dbg := rfl
@[simp] theorem tallyOut_lost (g : Page) (n : Nat) : (tallyOut p g n).lost = p.lost := rfl
@[simp] theorem tallyOut_out (g : Page) (n : Nat) : (tallyOut p g n).out = p.out := rfl
@[simp] theorem tallyOut_free (g : Page) (n : Nat) : (tallyOut p g n).free = p.free := rfl

/-! ## endItem -/

@[simp] theorem endItem_bell (g : Page) (n : Nat) (st : Status) : (endItem p g n st).bell = p.bell := rfl
@[simp] theorem endItem_count (g : Page) (n : Nat) (st : Status) : (endItem p g n st).count = p.count := rfl
@[simp] theorem endItem_bellU (g : Page) (n : Nat) (st : Status) : (endItem p g n st).bellU = p.bellU := rfl
@[simp] theorem endItem_ports (g : Page) (n : Nat) (st : Status) : (endItem p g n st).ports = p.ports := rfl
@[simp] theorem endItem_routers (g : Page) (n : Nat) (st : Status) : (endItem p g n st).routers = p.routers := rfl
@[simp] theorem endItem_inbox (g : Page) (n : Nat) (st : Status) : (endItem p g n st).inbox = p.inbox := rfl
@[simp] theorem endItem_budget (g : Page) (n : Nat) (st : Status) : (endItem p g n st).budget = p.budget := rfl
@[simp] theorem endItem_mem (g : Page) (n : Nat) (st : Status) : (endItem p g n st).mem = p.mem := rfl
@[simp] theorem endItem_poison (g : Page) (n : Nat) (st : Status) : (endItem p g n st).poison = p.poison := rfl
@[simp] theorem endItem_ctxs (g : Page) (n : Nat) (st : Status) : (endItem p g n st).ctxs = p.ctxs := rfl
@[simp] theorem endItem_insts (g : Page) (n : Nat) (st : Status) : (endItem p g n st).insts = p.insts := rfl
@[simp] theorem endItem_stores (g : Page) (n : Nat) (st : Status) : (endItem p g n st).stores = p.stores := rfl
@[simp] theorem endItem_wins (g : Page) (n : Nat) (st : Status) : (endItem p g n st).wins = p.wins := rfl
@[simp] theorem endItem_engines (g : Page) (n : Nat) (st : Status) : (endItem p g n st).engines = p.engines := rfl
@[simp] theorem endItem_creqs (g : Page) (n : Nat) (st : Status) : (endItem p g n st).creqs = p.creqs := rfl
@[simp] theorem endItem_atomWins (g : Page) (n : Nat) (st : Status) : (endItem p g n st).atomWins = p.atomWins := rfl
@[simp] theorem endItem_ledgers (g : Page) (n : Nat) (st : Status) : (endItem p g n st).ledgers = p.ledgers := rfl
@[simp] theorem endItem_fences (g : Page) (n : Nat) (st : Status) : (endItem p g n st).fences = p.fences := rfl
@[simp] theorem endItem_quarantined (g : Page) (n : Nat) (st : Status) : (endItem p g n st).quarantined = p.quarantined := rfl
@[simp] theorem endItem_bobs (g : Page) (n : Nat) (st : Status) : (endItem p g n st).bobs = p.bobs := rfl
@[simp] theorem endItem_wells (g : Page) (n : Nat) (st : Status) : (endItem p g n st).wells = p.wells := rfl
@[simp] theorem endItem_spares (g : Page) (n : Nat) (st : Status) : (endItem p g n st).spares = p.spares := rfl
@[simp] theorem endItem_retired (g : Page) (n : Nat) (st : Status) : (endItem p g n st).retired = p.retired := rfl
@[simp] theorem endItem_nextSeq (g : Page) (n : Nat) (st : Status) : (endItem p g n st).nextSeq = p.nextSeq := rfl
@[simp] theorem endItem_nextId (g : Page) (n : Nat) (st : Status) : (endItem p g n st).nextId = p.nextId := rfl
@[simp] theorem endItem_records (g : Page) (n : Nat) (st : Status) : (endItem p g n st).records = p.records := rfl
@[simp] theorem endItem_nvPending (g : Page) (n : Nat) (st : Status) : (endItem p g n st).nvPending = p.nvPending := rfl
@[simp] theorem endItem_nvRecords (g : Page) (n : Nat) (st : Status) : (endItem p g n st).nvRecords = p.nvRecords := rfl
@[simp] theorem endItem_boots (g : Page) (n : Nat) (st : Status) : (endItem p g n st).boots = p.boots := rfl
@[simp] theorem endItem_serving (g : Page) (n : Nat) (st : Status) : (endItem p g n st).serving = p.serving := rfl
@[simp] theorem endItem_pw (g : Page) (n : Nat) (st : Status) : (endItem p g n st).pw = p.pw := rfl
@[simp] theorem endItem_stackUnits (g : Page) (n : Nat) (st : Status) : (endItem p g n st).stackUnits = p.stackUnits := rfl
@[simp] theorem endItem_mills (g : Page) (n : Nat) (st : Status) : (endItem p g n st).mills = p.mills := rfl
@[simp] theorem endItem_sels (g : Page) (n : Nat) (st : Status) : (endItem p g n st).sels = p.sels := rfl
@[simp] theorem endItem_selPorts (g : Page) (n : Nat) (st : Status) : (endItem p g n st).selPorts = p.selPorts := rfl
@[simp] theorem endItem_rv (g : Page) (n : Nat) (st : Status) : (endItem p g n st).rv = p.rv := rfl
@[simp] theorem endItem_boot (g : Page) (n : Nat) (st : Status) : (endItem p g n st).boot = p.boot := rfl
@[simp] theorem endItem_pins (g : Page) (n : Nat) (st : Status) : (endItem p g n st).pins = p.pins := rfl
@[simp] theorem endItem_stitches (g : Page) (n : Nat) (st : Status) : (endItem p g n st).stitches = p.stitches := rfl
@[simp] theorem endItem_thims (g : Page) (n : Nat) (st : Status) : (endItem p g n st).thims = p.thims := rfl
@[simp] theorem endItem_dbg (g : Page) (n : Nat) (st : Status) : (endItem p g n st).dbg = p.dbg := rfl
@[simp] theorem endItem_lost (g : Page) (n : Nat) (st : Status) : (endItem p g n st).lost = p.lost := rfl
@[simp] theorem endItem_free (g : Page) (n : Nat) (st : Status) : (endItem p g n st).free = p.free := rfl

/-! ## setState -/

@[simp] theorem setState_bell (g : Page) (st : BlockState) (c : Nat) : (setState p g st c).bell = p.bell := by simp [setState]
@[simp] theorem setState_count (g : Page) (st : BlockState) (c : Nat) : (setState p g st c).count = p.count := by simp [setState]
@[simp] theorem setState_bellU (g : Page) (st : BlockState) (c : Nat) : (setState p g st c).bellU = p.bellU := by simp [setState]
@[simp] theorem setState_ports (g : Page) (st : BlockState) (c : Nat) : (setState p g st c).ports = p.ports := by simp [setState]
@[simp] theorem setState_routers (g : Page) (st : BlockState) (c : Nat) : (setState p g st c).routers = p.routers := by simp [setState]
@[simp] theorem setState_inbox (g : Page) (st : BlockState) (c : Nat) : (setState p g st c).inbox = p.inbox := by simp [setState]
@[simp] theorem setState_budget (g : Page) (st : BlockState) (c : Nat) : (setState p g st c).budget = p.budget := by simp [setState]
@[simp] theorem setState_mem (g : Page) (st : BlockState) (c : Nat) : (setState p g st c).mem = p.mem := by simp [setState]
@[simp] theorem setState_poison (g : Page) (st : BlockState) (c : Nat) : (setState p g st c).poison = p.poison := by simp [setState]
@[simp] theorem setState_ctxs (g : Page) (st : BlockState) (c : Nat) : (setState p g st c).ctxs = p.ctxs := by simp [setState]
@[simp] theorem setState_insts (g : Page) (st : BlockState) (c : Nat) : (setState p g st c).insts = p.insts := by simp [setState]
@[simp] theorem setState_stores (g : Page) (st : BlockState) (c : Nat) : (setState p g st c).stores = p.stores := by simp [setState]
@[simp] theorem setState_wins (g : Page) (st : BlockState) (c : Nat) : (setState p g st c).wins = p.wins := by simp [setState]
@[simp] theorem setState_engines (g : Page) (st : BlockState) (c : Nat) : (setState p g st c).engines = p.engines := by simp [setState]
@[simp] theorem setState_creqs (g : Page) (st : BlockState) (c : Nat) : (setState p g st c).creqs = p.creqs := by simp [setState]
@[simp] theorem setState_atomWins (g : Page) (st : BlockState) (c : Nat) : (setState p g st c).atomWins = p.atomWins := by simp [setState]
@[simp] theorem setState_ledgers (g : Page) (st : BlockState) (c : Nat) : (setState p g st c).ledgers = p.ledgers := by simp [setState]
@[simp] theorem setState_fences (g : Page) (st : BlockState) (c : Nat) : (setState p g st c).fences = p.fences := by simp [setState]
@[simp] theorem setState_quarantined (g : Page) (st : BlockState) (c : Nat) : (setState p g st c).quarantined = p.quarantined := by simp [setState]
@[simp] theorem setState_bobs (g : Page) (st : BlockState) (c : Nat) : (setState p g st c).bobs = p.bobs := by simp [setState]
@[simp] theorem setState_wells (g : Page) (st : BlockState) (c : Nat) : (setState p g st c).wells = p.wells := by simp [setState]
@[simp] theorem setState_spares (g : Page) (st : BlockState) (c : Nat) : (setState p g st c).spares = p.spares := by simp [setState]
@[simp] theorem setState_retired (g : Page) (st : BlockState) (c : Nat) : (setState p g st c).retired = p.retired := by simp [setState]
@[simp] theorem setState_nextSeq (g : Page) (st : BlockState) (c : Nat) : (setState p g st c).nextSeq = p.nextSeq := by simp [setState]
@[simp] theorem setState_nextId (g : Page) (st : BlockState) (c : Nat) : (setState p g st c).nextId = p.nextId := by simp [setState]
@[simp] theorem setState_records (g : Page) (st : BlockState) (c : Nat) : (setState p g st c).records = p.records := by simp [setState]
@[simp] theorem setState_nvPending (g : Page) (st : BlockState) (c : Nat) : (setState p g st c).nvPending = p.nvPending := by simp [setState]
@[simp] theorem setState_nvRecords (g : Page) (st : BlockState) (c : Nat) : (setState p g st c).nvRecords = p.nvRecords := by simp [setState]
@[simp] theorem setState_boots (g : Page) (st : BlockState) (c : Nat) : (setState p g st c).boots = p.boots := by simp [setState]
@[simp] theorem setState_serving (g : Page) (st : BlockState) (c : Nat) : (setState p g st c).serving = p.serving := by simp [setState]
@[simp] theorem setState_pw (g : Page) (st : BlockState) (c : Nat) : (setState p g st c).pw = p.pw := by simp [setState]
@[simp] theorem setState_stackUnits (g : Page) (st : BlockState) (c : Nat) : (setState p g st c).stackUnits = p.stackUnits := by simp [setState]
@[simp] theorem setState_mills (g : Page) (st : BlockState) (c : Nat) : (setState p g st c).mills = p.mills := by simp [setState]
@[simp] theorem setState_sels (g : Page) (st : BlockState) (c : Nat) : (setState p g st c).sels = p.sels := by simp [setState]
@[simp] theorem setState_selPorts (g : Page) (st : BlockState) (c : Nat) : (setState p g st c).selPorts = p.selPorts := by simp [setState]
@[simp] theorem setState_rv (g : Page) (st : BlockState) (c : Nat) : (setState p g st c).rv = p.rv := by simp [setState]
@[simp] theorem setState_boot (g : Page) (st : BlockState) (c : Nat) : (setState p g st c).boot = p.boot := by simp [setState]
@[simp] theorem setState_pins (g : Page) (st : BlockState) (c : Nat) : (setState p g st c).pins = p.pins := by simp [setState]
@[simp] theorem setState_stitches (g : Page) (st : BlockState) (c : Nat) : (setState p g st c).stitches = p.stitches := by simp [setState]
@[simp] theorem setState_thims (g : Page) (st : BlockState) (c : Nat) : (setState p g st c).thims = p.thims := by simp [setState]
@[simp] theorem setState_dbg (g : Page) (st : BlockState) (c : Nat) : (setState p g st c).dbg = p.dbg := by simp [setState]
@[simp] theorem setState_lost (g : Page) (st : BlockState) (c : Nat) : (setState p g st c).lost = p.lost := by simp [setState]
@[simp] theorem setState_out (g : Page) (st : BlockState) (c : Nat) : (setState p g st c).out = p.out := by simp [setState]
@[simp] theorem setState_free (g : Page) (st : BlockState) (c : Nat) : (setState p g st c).free = p.free := by simp [setState]

/-! ## record -/

@[simp] theorem record_bell (g : Option Page) (c : Nat) (st : Status) (sev : Nat) (nv : Bool) (d : List Nat) : (record p g c st sev nv d).bell = p.bell := by unfold record; dsimp only; split <;> simp
@[simp] theorem record_count (g : Option Page) (c : Nat) (st : Status) (sev : Nat) (nv : Bool) (d : List Nat) : (record p g c st sev nv d).count = p.count := by unfold record; dsimp only; split <;> simp
@[simp] theorem record_bellU (g : Option Page) (c : Nat) (st : Status) (sev : Nat) (nv : Bool) (d : List Nat) : (record p g c st sev nv d).bellU = p.bellU := by unfold record; dsimp only; split <;> simp
@[simp] theorem record_ports (g : Option Page) (c : Nat) (st : Status) (sev : Nat) (nv : Bool) (d : List Nat) : (record p g c st sev nv d).ports = p.ports := by unfold record; dsimp only; split <;> simp
@[simp] theorem record_routers (g : Option Page) (c : Nat) (st : Status) (sev : Nat) (nv : Bool) (d : List Nat) : (record p g c st sev nv d).routers = p.routers := by unfold record; dsimp only; split <;> simp
@[simp] theorem record_inbox (g : Option Page) (c : Nat) (st : Status) (sev : Nat) (nv : Bool) (d : List Nat) : (record p g c st sev nv d).inbox = p.inbox := by unfold record; dsimp only; split <;> simp
@[simp] theorem record_budget (g : Option Page) (c : Nat) (st : Status) (sev : Nat) (nv : Bool) (d : List Nat) : (record p g c st sev nv d).budget = p.budget := by unfold record; dsimp only; split <;> simp
@[simp] theorem record_mem (g : Option Page) (c : Nat) (st : Status) (sev : Nat) (nv : Bool) (d : List Nat) : (record p g c st sev nv d).mem = p.mem := by unfold record; dsimp only; split <;> simp
@[simp] theorem record_poison (g : Option Page) (c : Nat) (st : Status) (sev : Nat) (nv : Bool) (d : List Nat) : (record p g c st sev nv d).poison = p.poison := by unfold record; dsimp only; split <;> simp
@[simp] theorem record_ctxs (g : Option Page) (c : Nat) (st : Status) (sev : Nat) (nv : Bool) (d : List Nat) : (record p g c st sev nv d).ctxs = p.ctxs := by unfold record; dsimp only; split <;> simp
@[simp] theorem record_insts (g : Option Page) (c : Nat) (st : Status) (sev : Nat) (nv : Bool) (d : List Nat) : (record p g c st sev nv d).insts = p.insts := by unfold record; dsimp only; split <;> simp
@[simp] theorem record_stores (g : Option Page) (c : Nat) (st : Status) (sev : Nat) (nv : Bool) (d : List Nat) : (record p g c st sev nv d).stores = p.stores := by unfold record; dsimp only; split <;> simp
@[simp] theorem record_wins (g : Option Page) (c : Nat) (st : Status) (sev : Nat) (nv : Bool) (d : List Nat) : (record p g c st sev nv d).wins = p.wins := by unfold record; dsimp only; split <;> simp
@[simp] theorem record_engines (g : Option Page) (c : Nat) (st : Status) (sev : Nat) (nv : Bool) (d : List Nat) : (record p g c st sev nv d).engines = p.engines := by unfold record; dsimp only; split <;> simp
@[simp] theorem record_creqs (g : Option Page) (c : Nat) (st : Status) (sev : Nat) (nv : Bool) (d : List Nat) : (record p g c st sev nv d).creqs = p.creqs := by unfold record; dsimp only; split <;> simp
@[simp] theorem record_atomWins (g : Option Page) (c : Nat) (st : Status) (sev : Nat) (nv : Bool) (d : List Nat) : (record p g c st sev nv d).atomWins = p.atomWins := by unfold record; dsimp only; split <;> simp
@[simp] theorem record_ledgers (g : Option Page) (c : Nat) (st : Status) (sev : Nat) (nv : Bool) (d : List Nat) : (record p g c st sev nv d).ledgers = p.ledgers := by unfold record; dsimp only; split <;> simp
@[simp] theorem record_fences (g : Option Page) (c : Nat) (st : Status) (sev : Nat) (nv : Bool) (d : List Nat) : (record p g c st sev nv d).fences = p.fences := by unfold record; dsimp only; split <;> simp
@[simp] theorem record_quarantined (g : Option Page) (c : Nat) (st : Status) (sev : Nat) (nv : Bool) (d : List Nat) : (record p g c st sev nv d).quarantined = p.quarantined := by unfold record; dsimp only; split <;> simp
@[simp] theorem record_bobs (g : Option Page) (c : Nat) (st : Status) (sev : Nat) (nv : Bool) (d : List Nat) : (record p g c st sev nv d).bobs = p.bobs := by unfold record; dsimp only; split <;> simp
@[simp] theorem record_wells (g : Option Page) (c : Nat) (st : Status) (sev : Nat) (nv : Bool) (d : List Nat) : (record p g c st sev nv d).wells = p.wells := by unfold record; dsimp only; split <;> simp
@[simp] theorem record_spares (g : Option Page) (c : Nat) (st : Status) (sev : Nat) (nv : Bool) (d : List Nat) : (record p g c st sev nv d).spares = p.spares := by unfold record; dsimp only; split <;> simp
@[simp] theorem record_retired (g : Option Page) (c : Nat) (st : Status) (sev : Nat) (nv : Bool) (d : List Nat) : (record p g c st sev nv d).retired = p.retired := by unfold record; dsimp only; split <;> simp
@[simp] theorem record_nextSeq (g : Option Page) (c : Nat) (st : Status) (sev : Nat) (nv : Bool) (d : List Nat) : (record p g c st sev nv d).nextSeq = p.nextSeq := by unfold record; dsimp only; split <;> simp
@[simp] theorem record_nextId (g : Option Page) (c : Nat) (st : Status) (sev : Nat) (nv : Bool) (d : List Nat) : (record p g c st sev nv d).nextId = p.nextId := by unfold record; dsimp only; split <;> simp
@[simp] theorem record_nvRecords (g : Option Page) (c : Nat) (st : Status) (sev : Nat) (nv : Bool) (d : List Nat) : (record p g c st sev nv d).nvRecords = p.nvRecords := by unfold record; dsimp only; split <;> simp
@[simp] theorem record_boots (g : Option Page) (c : Nat) (st : Status) (sev : Nat) (nv : Bool) (d : List Nat) : (record p g c st sev nv d).boots = p.boots := by unfold record; dsimp only; split <;> simp
@[simp] theorem record_serving (g : Option Page) (c : Nat) (st : Status) (sev : Nat) (nv : Bool) (d : List Nat) : (record p g c st sev nv d).serving = p.serving := by unfold record; dsimp only; split <;> simp
@[simp] theorem record_pw (g : Option Page) (c : Nat) (st : Status) (sev : Nat) (nv : Bool) (d : List Nat) : (record p g c st sev nv d).pw = p.pw := by unfold record; dsimp only; split <;> simp
@[simp] theorem record_stackUnits (g : Option Page) (c : Nat) (st : Status) (sev : Nat) (nv : Bool) (d : List Nat) : (record p g c st sev nv d).stackUnits = p.stackUnits := by unfold record; dsimp only; split <;> simp
@[simp] theorem record_mills (g : Option Page) (c : Nat) (st : Status) (sev : Nat) (nv : Bool) (d : List Nat) : (record p g c st sev nv d).mills = p.mills := by unfold record; dsimp only; split <;> simp
@[simp] theorem record_sels (g : Option Page) (c : Nat) (st : Status) (sev : Nat) (nv : Bool) (d : List Nat) : (record p g c st sev nv d).sels = p.sels := by unfold record; dsimp only; split <;> simp
@[simp] theorem record_selPorts (g : Option Page) (c : Nat) (st : Status) (sev : Nat) (nv : Bool) (d : List Nat) : (record p g c st sev nv d).selPorts = p.selPorts := by unfold record; dsimp only; split <;> simp
@[simp] theorem record_rv (g : Option Page) (c : Nat) (st : Status) (sev : Nat) (nv : Bool) (d : List Nat) : (record p g c st sev nv d).rv = p.rv := by unfold record; dsimp only; split <;> simp
@[simp] theorem record_boot (g : Option Page) (c : Nat) (st : Status) (sev : Nat) (nv : Bool) (d : List Nat) : (record p g c st sev nv d).boot = p.boot := by unfold record; dsimp only; split <;> simp
@[simp] theorem record_pins (g : Option Page) (c : Nat) (st : Status) (sev : Nat) (nv : Bool) (d : List Nat) : (record p g c st sev nv d).pins = p.pins := by unfold record; dsimp only; split <;> simp
@[simp] theorem record_stitches (g : Option Page) (c : Nat) (st : Status) (sev : Nat) (nv : Bool) (d : List Nat) : (record p g c st sev nv d).stitches = p.stitches := by unfold record; dsimp only; split <;> simp
@[simp] theorem record_thims (g : Option Page) (c : Nat) (st : Status) (sev : Nat) (nv : Bool) (d : List Nat) : (record p g c st sev nv d).thims = p.thims := by unfold record; dsimp only; split <;> simp
@[simp] theorem record_dbg (g : Option Page) (c : Nat) (st : Status) (sev : Nat) (nv : Bool) (d : List Nat) : (record p g c st sev nv d).dbg = p.dbg := by unfold record; dsimp only; split <;> simp
@[simp] theorem record_lost (g : Option Page) (c : Nat) (st : Status) (sev : Nat) (nv : Bool) (d : List Nat) : (record p g c st sev nv d).lost = p.lost := by unfold record; dsimp only; split <;> simp
@[simp] theorem record_out (g : Option Page) (c : Nat) (st : Status) (sev : Nat) (nv : Bool) (d : List Nat) : (record p g c st sev nv d).out = p.out := by unfold record; dsimp only; split <;> simp
@[simp] theorem record_free (g : Option Page) (c : Nat) (st : Status) (sev : Nat) (nv : Bool) (d : List Nat) : (record p g c st sev nv d).free = p.free := by unfold record; dsimp only; split <;> simp

/-! ## Events, states and tallies -/

/-- The common registers of a page after an event: its bit is set, and EVT_FIRST names it when it is unmasked and the first. -/
theorem block_raise_same (g : Page) (i : Nat) :
    block (raise p g i) g = { block p g with
      evt := withBit (block p g).evt i true
      forced := withBit (block p g).forced i false
      first := if bit (block p g).mask i || (block p g).first.isSome then (block p g).first else some i } := by
  unfold raise; dsimp only; split <;> simp [block, setBlock]

theorem block_raise_other (g h : Page) (i : Nat) (e : h ≠ g) : block (raise p g i) h = block p h := by
  unfold raise; dsimp only
  split <;> simp [block, setBlock, Map.getD_put_other _ _ _ _ _ e]

@[simp] theorem getReg_raise (g h : Page) (i o : Nat) : getReg (raise p g i) h o = getReg p h o := by
  unfold raise; dsimp only; split <;> rfl

@[simp] theorem entryVal_raise (g h : Page) (i t k : Nat) : entryVal (raise p g i) h t k = entryVal p h t k := by
  unfold raise; dsimp only; split <;> rfl

@[simp] theorem stateOf_raise (g h : Page) (i : Nat) : stateOf (raise p g i) h = stateOf p h := by
  by_cases e : h = g
  · subst e; simp [stateOf, block_raise_same]
  · simp [stateOf, block_raise_other p g h i e]

@[simp] theorem enabled_raise (g h : Page) (i : Nat) : enabled (raise p g i) h = enabled p h := by simp [enabled]

/-- A change of state (R36, R43): the new state and cause, and no other block's. -/
@[simp] theorem stateOf_setState_same (g : Page) (st : BlockState) (c : Nat) : stateOf (setState p g st c) g = st := by
  simp [setState, stateOf, block_raise_same]

theorem stateOf_setState_other (g h : Page) (st : BlockState) (c : Nat) (e : h ≠ g) : stateOf (setState p g st c) h = stateOf p h := by
  simp [setState, stateOf, block_raise_other _ _ _ _ e, block_setBlock_other _ _ _ _ e]

@[simp] theorem getReg_setState (g h : Page) (st : BlockState) (c o : Nat) : getReg (setState p g st c) h o = getReg p h o := by
  simp [setState]

theorem cause_setState (g : Page) (st : BlockState) (c : Nat) : (block (setState p g st c) g).cause = c := by
  simp [setState, block_raise_same]

@[simp] theorem tin_tallyIn (g : Page) (n : Nat) : (block (tallyIn p g n) g).tin = (block p g).tin + BitVec.ofNat 64 n := by
  simp [tallyIn]
@[simp] theorem tout_tallyOut (g : Page) (n : Nat) : (block (tallyOut p g n) g).tout = (block p g).tout + BitVec.ofNat 64 n := by
  simp [tallyOut]
@[simp] theorem stateOf_tallyIn (g h : Page) (n : Nat) : stateOf (tallyIn p g n) h = stateOf p h := by
  by_cases e : h = g
  · subst e; simp [stateOf, tallyIn]
  · simp [stateOf, tallyIn, block_setBlock_other _ _ _ _ e]
@[simp] theorem stateOf_tallyOut (g h : Page) (n : Nat) : stateOf (tallyOut p g n) h = stateOf p h := by
  by_cases e : h = g
  · subst e; simp [stateOf, tallyOut]
  · simp [stateOf, tallyOut, block_setBlock_other _ _ _ _ e]
@[simp] theorem getReg_tallyIn (g h : Page) (n o : Nat) : getReg (tallyIn p g n) h o = getReg p h o := rfl
@[simp] theorem getReg_tallyOut (g h : Page) (n o : Nat) : getReg (tallyOut p g n) h o = getReg p h o := rfl

/-- A command that ended with a status has it put out. -/
theorem endItem_out (g : Page) (n : Nat) (st : Status) : (endItem p g n st).out = p.out ++ [.item g n st] := rfl

/-- A record carries the next sequence number (R388) and is the newest in the ring. -/
theorem record_last (g : Option Page) (c : Nat) (st : Status) (sev : Nat) (nv : Bool) (d : List Nat) :
    ∃ r : EvtRec, (record p g c st sev nv d).records.getLast? = some r ∧ r.code = c ∧ r.status = st ∧ r.severity = sev ∧ r.nv = nv ∧ r.detail = d
      ∧ r.seq = getReg p .reeve 0x090 + 1 := by
  unfold record; dsimp only
  split <;> exact ⟨_, List.getLast?_concat, rfl, rfl, rfl, rfl, rfl, rfl⟩

end Sys2Proof.Machine
end

