-- ==== Sys2Proof/Laws/Memory.lean ====
section
/-! SUPPORT. Memory keeps its canonical form; a byte reads as it was last written; the rising list of poisoned lines. -/
namespace Sys2Proof.Machine
open Sys2Proof

/-! ## The canonical form -/

theorem cellsFrom_mono {m n : Nat} (h : m ≤ n) : ∀ l : List Host.Cell, cellsFrom n l = true → cellsFrom m l = true
  | [], _ => rfl
  | (a, b) :: r, hl => by
    simp only [cellsFrom, Bool.and_eq_true, decide_eq_true_eq] at hl ⊢
    exact ⟨⟨Nat.le_trans h hl.1.1, hl.1.2⟩, hl.2⟩

theorem cellPut_from (n k : Nat) (v : Byte) (hk : n ≤ k) : ∀ l : List Host.Cell, cellsFrom n l = true → cellsFrom n (cellPut l k v) = true
  | [], _ => by
    by_cases hv : v = 0#8
    · simp [cellPut, hv, cellsFrom]
    · simp [cellPut, hv, cellsFrom, hk]
  | (a, b) :: r, hl => by
    simp only [cellsFrom, Bool.and_eq_true, decide_eq_true_eq, bne_iff_ne, ne_eq] at hl
    obtain ⟨⟨ha, hb⟩, hr⟩ := hl
    have hb' : ¬b = 0#8 := hb
    unfold cellPut
    split
    · rename_i h1
      split
      · simp [cellsFrom, ha, hb', hr]
      · rename_i hv
        have hv' : ¬v = 0#8 := hv
        have h1' : k + 1 ≤ a := h1
        simp [cellsFrom, hk, hv', hb', hr, h1']
    · split
      · split
        · exact cellsFrom_mono (by omega) r hr
        · rename_i h1 h2 hv
          have hv' : ¬v = 0#8 := hv
          subst h2
          simp [cellsFrom, hk, hv', hr]
      · rename_i h1 h2
        simp only [cellsFrom, Bool.and_eq_true, decide_eq_true_eq, bne_iff_ne, ne_eq]
        exact ⟨⟨ha, hb⟩, cellPut_from (a + 1) k v (by omega) r hr⟩

/-- A byte written keeps the canonical form. -/
theorem cellPut_wf (m : List Host.Cell) (k : Nat) (v : Byte) (h : Memory.wf m = true) : Memory.wf (cellPut m k v) = true :=
  cellPut_from 0 k v (Nat.zero_le _) m h

theorem cellsPut_wf : ∀ (bs : List Byte) (m : List Host.Cell) (a : Nat), Memory.wf m = true → Memory.wf (cellsPut m a bs) = true
  | [], _, _, h => h
  | b :: r, m, a, h => cellsPut_wf r (cellPut m a b) (a + 1) (cellPut_wf m a b h)

theorem cellsFrom_filter (t : Host.Cell → Bool) : ∀ (l : List Host.Cell) (n : Nat), cellsFrom n l = true → cellsFrom n (l.filter t) = true
  | [], _, _ => rfl
  | (a, b) :: r, n, hl => by
    simp only [cellsFrom, Bool.and_eq_true, decide_eq_true_eq, bne_iff_ne, ne_eq] at hl
    obtain ⟨⟨ha, hb⟩, hr⟩ := hl
    by_cases ht : t (a, b) = true
    · simp only [List.filter_cons, ht, if_true, cellsFrom, Bool.and_eq_true, decide_eq_true_eq, bne_iff_ne, ne_eq]
      exact ⟨⟨ha, hb⟩, cellsFrom_filter t r (a + 1) hr⟩
    · rw [List.filter_cons_of_neg ht]
      exact cellsFrom_mono (by omega) _ (cellsFrom_filter t r (a + 1) hr)

/-- Bytes dropped (a store or a stack that loses its contents) keep the canonical form. -/
theorem filter_wf (m : List Host.Cell) (t : Host.Cell → Bool) (h : Memory.wf m = true) : Memory.wf (m.filter t) = true :=
  cellsFrom_filter t m 0 h

theorem reset_memory_wf : Memory.wf State.reset.pkg.mem = true := rfl

/-! ## The operations of the package over memory -/

variable (p : Pkg)

theorem setByte_wf (a : Nat) (v : Byte) (h : Memory.wf p.mem = true) : Memory.wf (setByte p a v).mem = true := cellPut_wf _ _ _ h
theorem setBytes_wf (a : Nat) (bs : List Byte) (h : Memory.wf p.mem = true) : Memory.wf (setBytes p a bs).mem = true := cellsPut_wf _ _ _ h

@[simp] theorem setPoison_mem (a : Nat) (b : Bool) : (setPoison p a b).mem = p.mem := by
  unfold setPoison; split <;> rfl

theorem poisonLine_wf (a : Nat) (h : Memory.wf p.mem = true) : Memory.wf (poisonLine p a).mem = true := by
  simpa [poisonLine] using setBytes_wf p _ _ h

/-- A fold whose steps keep the canonical form keeps it. -/
theorem foldl_wf {α : Type} (f : Pkg → α → Pkg) (hf : ∀ q x, Memory.wf q.mem = true → Memory.wf (f q x).mem = true) :
    ∀ (l : List α) (q : Pkg), Memory.wf q.mem = true → Memory.wf (l.foldl f q).mem = true
  | [], _, h => h
  | x :: r, q, h => foldl_wf f hf r (f q x) (hf q x h)

theorem poisonRange_wf (a n : Nat) (h : Memory.wf p.mem = true) : Memory.wf (poisonRange p a n).mem = true :=
  foldl_wf poisonLine (fun q x => poisonLine_wf q x) _ p h

theorem writeClean_wf (a : Nat) (bs : List Byte) (h : Memory.wf p.mem = true) : Memory.wf (writeClean p a bs).mem = true := by
  refine foldl_wf _ (fun q l hq => ?_) _ _ (setBytes_wf p a bs h)
  split
  · simpa using hq
  · exact hq

theorem writeTagged_wf (a : Nat) (bs : List Byte) (t : Nat → Bool) (h : Memory.wf p.mem = true) :
    Memory.wf (writeTagged p a bs t).mem = true := by
  refine foldl_wf _ (fun q l hq => ?_) _ _ (writeClean_wf p a bs h)
  split
  · exact poisonLine_wf q l hq
  · exact hq

@[simp] theorem markMill_mem (a n : Nat) : (markMill p a n).mem = p.mem := by
  unfold markMill; split <;> simp

/-- A write at a local offset keeps the canonical form (the one operation through which every instruction, bobbin and packet stores). -/
theorem writeLocal_wf (a : Nat) (bs : List Byte) (t : Nat → Bool) (h : Memory.wf p.mem = true) : Memory.wf (writeLocal p a bs t).mem = true := by
  unfold writeLocal
  rw [markMill_mem]
  refine foldl_wf _ (fun q l hq => ?_) _ _ h
  dsimp only
  split
  · exact poisonLine_wf q _ hq
  · exact writeClean_wf q _ _ hq

theorem poisonLocal_wf (a n : Nat) (h : Memory.wf p.mem = true) : Memory.wf (poisonLocal p a n).mem = true :=
  foldl_wf _ (fun q _ hq => poisonLine_wf q _ hq) _ p h

/-! ## Reads after writes -/

theorem cellRead_below : ∀ (l : List Host.Cell) (n k : Nat), cellsFrom n l = true → k < n → cellRead l k = 0
  | [], _, _, _, _ => rfl
  | (a, b) :: r, n, k, hl, hk => by
    simp only [cellsFrom, Bool.and_eq_true, decide_eq_true_eq] at hl
    have : a ≠ k := by omega
    simp [cellRead, this, cellRead_below r (a + 1) k hl.2 (by omega)]

theorem cellRead_put_same (n k : Nat) (v : Byte) : ∀ l : List Host.Cell, cellsFrom n l = true → cellRead (cellPut l k v) k = v
  | [], _ => by by_cases h : v = 0#8 <;> simp [cellPut, cellRead, h]
  | (a, b) :: r, hl => by
    simp only [cellsFrom, Bool.and_eq_true, decide_eq_true_eq] at hl
    unfold cellPut
    split
    · split
      · rename_i h1 hv
        have : a ≠ k := by omega
        simp [cellRead, this, cellRead_below r (a + 1) k hl.2 (by omega), hv]
      · simp [cellRead]
    · split
      · split
        · rename_i h1 h2 hv
          rw [cellRead_below r (a + 1) k hl.2 (by omega), hv]
        · simp [cellRead]
      · rename_i h1 h2
        have : a ≠ k := fun e => h2 e.symm
        simp only [cellRead, this, if_false]
        exact cellRead_put_same (a + 1) k v r hl.2

theorem cellRead_put_other (k j : Nat) (v : Byte) (h : j ≠ k) : ∀ l : List Host.Cell, cellRead (cellPut l k v) j = cellRead l j
  | [] => by by_cases hv : v = 0#8 <;> simp [cellPut, cellRead, hv, Ne.symm h]
  | (a, b) :: r => by
    unfold cellPut
    split
    · split
      · rfl
      · simp [cellRead, Ne.symm h]
    · split
      · rename_i h1 h2
        subst h2
        split
        · simp [cellRead, Ne.symm h]
        · simp [cellRead, Ne.symm h]
      · simp only [cellRead]
        split
        · rfl
        · exact cellRead_put_other k j v h r

/-- A byte written in canonical memory reads as written. -/
theorem memByte_setByte_same (a : Nat) (v : Byte) (h : Memory.wf p.mem = true) : memByte (setByte p a v) a = v :=
  cellRead_put_same 0 a v p.mem h

/-- A byte written leaves every other as it was. -/
theorem memByte_setByte_other (a k : Nat) (v : Byte) (h : k ≠ a) : memByte (setByte p a v) k = memByte p k :=
  cellRead_put_other a k v h p.mem

theorem cellsPut_other : ∀ (bs : List Byte) (m : List Host.Cell) (a k : Nat), (k < a ∨ a + bs.length ≤ k) → cellRead (cellsPut m a bs) k = cellRead m k
  | [], _, _, _, _ => rfl
  | b :: r, m, a, k, h => by
    simp only [List.length_cons] at h
    simp only [cellsPut]
    rw [cellsPut_other r _ (a + 1) k (by omega), cellRead_put_other a k b (by omega)]

theorem cellsPut_in : ∀ (bs : List Byte) (m : List Host.Cell) (a i : Nat) (hi : i < bs.length), Memory.wf m = true →
    cellRead (cellsPut m a bs) (a + i) = bs[i]
  | b :: r, m, a, 0, _, h => by
    simp only [cellsPut, Nat.add_zero, List.getElem_cons_zero]
    rw [cellsPut_other r _ (a + 1) a (by omega), cellRead_put_same 0 a b m h]
  | b :: r, m, a, i + 1, hi, h => by
    simp only [cellsPut, List.getElem_cons_succ]
    have := cellsPut_in r (cellPut m a b) (a + 1) i (by simpa using hi) (cellPut_wf m a b h)
    rw [show a + (i + 1) = a + 1 + i by omega]
    exact this

/-! ## Poisoned lines -/

theorem insertLine_mem (l : List Nat) (k j : Nat) : j ∈ insertLine l k ↔ j = k ∨ j ∈ l := by
  induction l with
  | nil => simp [insertLine]
  | cons a r ih =>
    unfold insertLine
    split
    · simp
    · split
      · rename_i h1 h2
        subst h2
        simp
      · simp only [List.mem_cons, ih]
        constructor
        · rintro (h | h | h)
          · exact .inr (.inl h)
          · exact .inl h
          · exact .inr (.inr h)
        · rintro (h | h | h)
          · exact .inr (.inl h)
          · exact .inl h
          · exact .inr (.inr h)

/-- A line given the tag is poisoned. -/
theorem poisoned_set (a : Nat) : poisoned (setPoison p a true) a = true := by
  simp [poisoned, setPoison, insertLine_mem]

end Sys2Proof.Machine
end

