-- ==== Sys2Proof/Laws/Act.lean ====
section
/-! SUPPORT. What exec and step do around a command's meaning: the package changes by the meaning, then the alert pins follow; the queue
is as it was. -/
namespace Sys2Proof.Machine
open Sys2Proof

@[simp] theorem settle_bell (p : Pkg) : (settle p).bell = p.bell := rfl
@[simp] theorem settle_count (p : Pkg) : (settle p).count = p.count := rfl
@[simp] theorem settle_rg (p : Pkg) : (settle p).rg = p.rg := rfl
@[simp] theorem settle_bellU (p : Pkg) : (settle p).bellU = p.bellU := rfl
@[simp] theorem settle_ports (p : Pkg) : (settle p).ports = p.ports := rfl
@[simp] theorem settle_routers (p : Pkg) : (settle p).routers = p.routers := rfl
@[simp] theorem settle_inbox (p : Pkg) : (settle p).inbox = p.inbox := rfl
@[simp] theorem settle_budget (p : Pkg) : (settle p).budget = p.budget := rfl
@[simp] theorem settle_mem (p : Pkg) : (settle p).mem = p.mem := rfl
@[simp] theorem settle_poison (p : Pkg) : (settle p).poison = p.poison := rfl
@[simp] theorem settle_ctxs (p : Pkg) : (settle p).ctxs = p.ctxs := rfl
@[simp] theorem settle_insts (p : Pkg) : (settle p).insts = p.insts := rfl
@[simp] theorem settle_stores (p : Pkg) : (settle p).stores = p.stores := rfl
@[simp] theorem settle_wins (p : Pkg) : (settle p).wins = p.wins := rfl
@[simp] theorem settle_engines (p : Pkg) : (settle p).engines = p.engines := rfl
@[simp] theorem settle_creqs (p : Pkg) : (settle p).creqs = p.creqs := rfl
@[simp] theorem settle_atomWins (p : Pkg) : (settle p).atomWins = p.atomWins := rfl
@[simp] theorem settle_ledgers (p : Pkg) : (settle p).ledgers = p.ledgers := rfl
@[simp] theorem settle_fences (p : Pkg) : (settle p).fences = p.fences := rfl
@[simp] theorem settle_quarantined (p : Pkg) : (settle p).quarantined = p.quarantined := rfl
@[simp] theorem settle_bobs (p : Pkg) : (settle p).bobs = p.bobs := rfl
@[simp] theorem settle_wells (p : Pkg) : (settle p).wells = p.wells := rfl
@[simp] theorem settle_spares (p : Pkg) : (settle p).spares = p.spares := rfl
@[simp] theorem settle_retired (p : Pkg) : (settle p).retired = p.retired := rfl
@[simp] theorem settle_nextSeq (p : Pkg) : (settle p).nextSeq = p.nextSeq := rfl
@[simp] theorem settle_nextId (p : Pkg) : (settle p).nextId = p.nextId := rfl
@[simp] theorem settle_records (p : Pkg) : (settle p).records = p.records := rfl
@[simp] theorem settle_nvPending (p : Pkg) : (settle p).nvPending = p.nvPending := rfl
@[simp] theorem settle_nvRecords (p : Pkg) : (settle p).nvRecords = p.nvRecords := rfl
@[simp] theorem settle_boots (p : Pkg) : (settle p).boots = p.boots := rfl
@[simp] theorem settle_serving (p : Pkg) : (settle p).serving = p.serving := rfl
@[simp] theorem settle_pw (p : Pkg) : (settle p).pw = p.pw := rfl
@[simp] theorem settle_stackUnits (p : Pkg) : (settle p).stackUnits = p.stackUnits := rfl
@[simp] theorem settle_mills (p : Pkg) : (settle p).mills = p.mills := rfl
@[simp] theorem settle_sels (p : Pkg) : (settle p).sels = p.sels := rfl
@[simp] theorem settle_selPorts (p : Pkg) : (settle p).selPorts = p.selPorts := rfl
@[simp] theorem settle_rv (p : Pkg) : (settle p).rv = p.rv := rfl
@[simp] theorem settle_boot (p : Pkg) : (settle p).boot = p.boot := rfl
@[simp] theorem settle_stitches (p : Pkg) : (settle p).stitches = p.stitches := rfl
@[simp] theorem settle_thims (p : Pkg) : (settle p).thims = p.thims := rfl
@[simp] theorem settle_dbg (p : Pkg) : (settle p).dbg = p.dbg := rfl
@[simp] theorem settle_lost (p : Pkg) : (settle p).lost = p.lost := rfl
@[simp] theorem settle_out (p : Pkg) : (settle p).out = p.out := rfl
@[simp] theorem settle_free (p : Pkg) : (settle p).free = p.free := rfl
@[simp] theorem getReg_settle (p : Pkg) (g : Page) (o : Nat) : getReg (settle p) g o = getReg p g o := rfl
@[simp] theorem getReg64_settle (p : Pkg) (g : Page) (o : Nat) : getReg64 (settle p) g o = getReg64 p g o := rfl
@[simp] theorem block_settle (p : Pkg) (g : Page) : block (settle p) g = block p g := rfl
@[simp] theorem stateOf_settle (p : Pkg) (g : Page) : stateOf (settle p) g = stateOf p g := rfl
@[simp] theorem enabled_settle (p : Pkg) (g : Page) : enabled (settle p) g = enabled p g := rfl
@[simp] theorem entryVal_settle (p : Pkg) (g : Page) (t i : Nat) : entryVal (settle p) g t i = entryVal p g t i := rfl
@[simp] theorem getEntry_settle (p : Pkg) (g : Page) (t i : Nat) : getEntry (settle p) g t i = getEntry p g t i := rfl
@[simp] theorem memByte_settle (p : Pkg) (a : Nat) : memByte (settle p) a = memByte p a := rfl
@[simp] theorem poisoned_settle (p : Pkg) (a : Nat) : poisoned (settle p) a = poisoned p a := rfl
@[simp] theorem pairOk_settle (p : Pkg) (g : Page) (o : Nat) : pairOk (settle p) g o = pairOk p g o := rfl

/-- What the alert pins are functions of does not hold the pins FAULT_N and THERM_N themselves. -/
theorem faultOut_settle (p : Pkg) : faultOut (settle p) = faultOut p := rfl
theorem thermOut_settle (p : Pkg) : thermOut (settle p) = thermOut p := rfl
@[simp] theorem settle_fault (p : Pkg) : (settle p).pins.fault = faultOut p := rfl
@[simp] theorem settle_therm (p : Pkg) : (settle p).pins.therm = thermOut p := rfl
/-- The alert pins once settled do not change by settling again. -/
theorem settle_settle (p : Pkg) : settle (settle p) = settle p := rfl

/-- A command whose meaning gives a package completes, and its package is that one with the alert pins settled. -/
theorem completes_of {c : Instr} {s : State} {r q : Pkg} {P : Pkg → Prop} (h : exec c s = .next { s with pkg := settle r }) (E : r = q)
    (hp : P (settle q)) : Completes c s P := ⟨_, h, rfl, by rw [E]; exact hp⟩

/-- A step takes the command at the front of the queue. -/
theorem step_cons (s : State) (c : Instr) (r : List Instr) (h : s.pending = c :: r) : step s = exec c { s with pending := r } := by
  unfold step
  rw [h]

/-- A step with no command waiting is one tick. -/
theorem step_nil (s : State) (h : s.pending = []) : step s = .next { s with pkg := tick s.pkg } := by
  unfold step
  rw [h]

/-- A frame is kept by the settling of the alert pins. -/
theorem keepsBut_settle {l : List Part} {p q : Pkg} (h : keepsBut l p q) : keepsBut l p (settle q) := by
  intro x hx
  have := h x hx
  cases x <;> first | exact this | (simp only [Part.same] at this ⊢; rw [show (settle q).pins = { q.pins with fault := (settle q).pins.fault, therm := (settle q).pins.therm } from rfl, this])

theorem keepsBut_refl (l : List Part) (p : Pkg) : keepsBut l p p := by
  intro x _
  cases x <;> rfl

/-- Frames compose. -/
theorem keepsBut_trans {l : List Part} {p q r : Pkg} (h : keepsBut l p q) (k : keepsBut l q r) : keepsBut l p r := by
  intro x hx
  have a := h x hx
  have b := k x hx
  cases x <;> simp only [Part.same] at a b ⊢ <;> rw [b, a]

/-- A frame that lists more parts says less. -/
theorem keepsBut_mono {l m : List Part} {p q : Pkg} (h : keepsBut l p q) (k : ∀ x, x ∈ l → x ∈ m) : keepsBut m p q :=
  fun x hx => h x (fun hl => hx (k x hl))

/-- A fold keeps what each of its steps keeps. -/
theorem keepsBut_foldl {α : Type} {l : List Part} (f : Pkg → α → Pkg) (h : ∀ q x, keepsBut l q (f q x)) :
    ∀ (xs : List α) (p : Pkg), keepsBut l p (xs.foldl f p)
  | [], p => keepsBut_refl l p
  | x :: xs, p => keepsBut_trans (h p x) (keepsBut_foldl f h xs (f p x))

end Sys2Proof.Machine
end

