-- ==== Sys2Proof/Laws/Access.lean ====
section
/-! SUPPORT. What the shared operations leave as it was, as frames; and an access that the checks let through. -/
namespace Sys2Proof.Machine
open Sys2Proof

@[simp] theorem raise_rg_regs (p : Pkg) (g : Page) (i : Nat) : (raise p g i).rg.regs = p.rg.regs := by unfold raise; simp only; split <;> rfl
@[simp] theorem raise_rg_staged (p : Pkg) (g : Page) (i : Nat) : (raise p g i).rg.staged = p.rg.staged := by unfold raise; simp only; split <;> rfl
@[simp] theorem raise_rg_latches (p : Pkg) (g : Page) (i : Nat) : (raise p g i).rg.latches = p.rg.latches := by unfold raise; simp only; split <;> rfl
@[simp] theorem raise_rg_snaps (p : Pkg) (g : Page) (i : Nat) : (raise p g i).rg.snaps = p.rg.snaps := by unfold raise; simp only; split <;> rfl
@[simp] theorem raise_rg_drains (p : Pkg) (g : Page) (i : Nat) : (raise p g i).rg.drains = p.rg.drains := by unfold raise; simp only; split <;> rfl
@[simp] theorem raise_rg_undo (p : Pkg) (g : Page) (i : Nat) : (raise p g i).rg.undo = p.rg.undo := by unfold raise; simp only; split <;> rfl
@[simp] theorem raise_rg_tables (p : Pkg) (g : Page) (i : Nat) : (raise p g i).rg.tables = p.rg.tables := by unfold raise; simp only; split <;> rfl
@[simp] theorem setState_rg_regs (p : Pkg) (g : Page) (st : BlockState) (c : Nat) : (setState p g st c).rg.regs = p.rg.regs := by simp [setState]; rfl
@[simp] theorem setState_rg_staged (p : Pkg) (g : Page) (st : BlockState) (c : Nat) : (setState p g st c).rg.staged = p.rg.staged := by simp [setState]; rfl
@[simp] theorem setState_rg_latches (p : Pkg) (g : Page) (st : BlockState) (c : Nat) : (setState p g st c).rg.latches = p.rg.latches := by simp [setState]; rfl
@[simp] theorem setState_rg_snaps (p : Pkg) (g : Page) (st : BlockState) (c : Nat) : (setState p g st c).rg.snaps = p.rg.snaps := by simp [setState]; rfl
@[simp] theorem setState_rg_drains (p : Pkg) (g : Page) (st : BlockState) (c : Nat) : (setState p g st c).rg.drains = p.rg.drains := by simp [setState]; rfl
@[simp] theorem setState_rg_undo (p : Pkg) (g : Page) (st : BlockState) (c : Nat) : (setState p g st c).rg.undo = p.rg.undo := by simp [setState]; rfl
@[simp] theorem setState_rg_tables (p : Pkg) (g : Page) (st : BlockState) (c : Nat) : (setState p g st c).rg.tables = p.rg.tables := by simp [setState]; rfl

/-! ## Frames of the shared operations -/

theorem setReg_keeps (p : Pkg) (g : Page) (o : Nat) (v : Word) : keepsBut [.regs] p (setReg p g o v) := by
  intro x hx; cases x <;> first | rfl | simp at hx
theorem setReg64_keeps (p : Pkg) (g : Page) (o : Nat) (v : DWord) : keepsBut [.regs] p (setReg64 p g o v) := by
  intro x hx; cases x <;> first | rfl | simp at hx
theorem storePair_keeps (p : Pkg) (g : Page) (o : Nat) (v : Word) : keepsBut [.regs] p (storePair p g o v) := by
  intro x hx; cases x <;> first | rfl | simp at hx
theorem storePair64_keeps (p : Pkg) (g : Page) (o : Nat) (v : DWord) : keepsBut [.regs] p (storePair64 p g o v) := by
  intro x hx; cases x <;> first | rfl | simp at hx
theorem bump_keeps (p : Pkg) (g : Page) (o n : Nat) : keepsBut [.regs] p (bump p g o n) := by
  intro x hx; cases x <;> first | rfl | simp at hx
theorem setEntry_keeps (p : Pkg) (g : Page) (t i : Nat) (v : Word) : keepsBut [.tables] p (setEntry p g t i v) := by
  intro x hx; cases x <;> first | rfl | simp at hx
theorem setBlock_keeps (p : Pkg) (g : Page) (b : Block) : keepsBut [.blocks] p (setBlock p g b) := by
  intro x hx; cases x <;> first | rfl | simp at hx
theorem tallyIn_keeps (p : Pkg) (g : Page) (n : Nat) : keepsBut [.blocks] p (tallyIn p g n) := by
  intro x hx; cases x <;> first | rfl | simp at hx
theorem tallyOut_keeps (p : Pkg) (g : Page) (n : Nat) : keepsBut [.blocks] p (tallyOut p g n) := by
  intro x hx; cases x <;> first | rfl | simp at hx
theorem emit_keeps (p : Pkg) (o : Out) : keepsBut [.out] p (emit p o) := by
  intro x hx; cases x <;> first | rfl | simp at hx
theorem setByte_keeps (p : Pkg) (a : Nat) (v : Byte) : keepsBut [.mem] p (setByte p a v) := by
  intro x hx; cases x <;> first | rfl | simp at hx
theorem setBytes_keeps (p : Pkg) (a : Nat) (bs : List Byte) : keepsBut [.mem] p (setBytes p a bs) := by
  intro x hx; cases x <;> first | rfl | simp at hx
theorem setCtx_keeps (p : Pkg) (c : CtxId) (x : Ctx) : keepsBut [.ctxs] p (setCtx p c x) := by
  intro x hx; cases x <;> first | rfl | simp at hx
theorem setPort_keeps (p : Pkg) (n : Fin 32) (x : Port) : keepsBut [.ports] p (setPort p n x) := by
  intro x hx; cases x <;> first | rfl | simp at hx
theorem setRouter_keeps (p : Pkg) (d : Fin 4) (x : Router) : keepsBut [.routers] p (setRouter p d x) := by
  intro x hx; cases x <;> first | rfl | simp at hx
theorem setWin_keeps (p : Pkg) (st : StoreId) (w : Nat) (x : Win) : keepsBut [.wins] p (setWin p st w x) := by
  intro x hx; cases x <;> first | rfl | simp at hx
theorem setStore_keeps (p : Pkg) (st : StoreId) (x : Store) : keepsBut [.stores] p (setStore p st x) := by
  intro x hx; cases x <;> first | rfl | simp at hx
theorem setEngine_keeps (p : Pkg) (c : CoreId) (x : Engine) : keepsBut [.engines] p (setEngine p c x) := by
  intro x hx; cases x <;> first | rfl | simp at hx
theorem setBob_keeps (p : Pkg) (b : BobId) (x : Bobbin) : keepsBut [.bobs] p (setBob p b x) := by
  intro x hx; cases x <;> first | rfl | simp at hx
theorem setStack_keeps (p : Pkg) (n : Fin 12) (x : Stack) : keepsBut [.stackUnits] p (setStack p n x) := by
  intro x hx; cases x <;> first | rfl | simp at hx
theorem setMill_keeps (p : Pkg) (m : MillId) (x : Mill) : keepsBut [.mills] p (setMill p m x) := by
  intro x hx; cases x <;> first | rfl | simp at hx
theorem setWell_keeps (p : Pkg) (d : Fin 4) (x : Well) : keepsBut [.wells] p (setWell p d x) := by
  intro x hx; cases x <;> first | rfl | simp at hx
theorem setLedger_keeps (p : Pkg) (d : Fin 4) (x : Ledger) : keepsBut [.ledgers] p (setLedger p d x) := by
  intro x hx; cases x <;> first | rfl | simp at hx
theorem endItem_keeps (p : Pkg) (g : Page) (t : Nat) (st : Status) : keepsBut [.blocks, .out] p (endItem p g t st) := by
  intro x hx; cases x <;> first | rfl | simp at hx
theorem raise_keeps (p : Pkg) (g : Page) (i : Nat) : keepsBut [.blocks, .alerts] p (raise p g i) := by
  intro x hx
  unfold raise
  simp only
  split <;> (cases x <;> first | rfl | simp at hx)
theorem raiseAll_keeps (p : Pkg) (g : Page) (l : List Nat) : keepsBut [.blocks, .alerts] p (raiseAll p g l) :=
  keepsBut_foldl _ (fun q i => raise_keeps q g i) l p
theorem setState_keeps (p : Pkg) (g : Page) (st : BlockState) (c : Nat) : keepsBut [.blocks, .alerts] p (setState p g st c) := by
  unfold setState
  exact keepsBut_trans (keepsBut_mono (setBlock_keeps _ _ _) (by simp)) (raise_keeps _ _ _)
theorem countRefusal_keeps (p : Pkg) (g : Page) : keepsBut [.regs, .blocks, .alerts] p (countRefusal p g) := by
  unfold countRefusal
  exact keepsBut_trans (keepsBut_mono (bump_keeps _ _ _ _) (by simp)) (keepsBut_mono (raise_keeps _ _ _) (by simp))
theorem record_keeps (p : Pkg) (g : Option Page) (c : Nat) (st : Status) (sev : Nat) (nv : Bool) (d : List Nat) :
    keepsBut [.regs, .blocks, .alerts, .records, .nvPending] p (record p g c st sev nv d) := by
  have A : keepsBut [.regs, .blocks, .alerts] p (setReg p .reeve 0x090 (getReg p .reeve 0x090 + 1)) := keepsBut_mono (setReg_keeps _ _ _ _) (by simp)
  have B : keepsBut [.regs, .blocks, .alerts] p (raise (bump (setReg p .reeve 0x090 (getReg p .reeve 0x090 + 1)) .reeve 0x128 1) .reeve 17) :=
    keepsBut_trans A (keepsBut_trans (keepsBut_mono (bump_keeps _ _ _ _) (by simp)) (keepsBut_mono (raise_keeps _ _ _) (by simp)))
  unfold record
  simp only
  split
  · intro x hx; have := A x (fun h => hx (by revert h; cases x <;> simp)); cases x <;> first | exact this | simp at hx
  · intro x hx; have := B x (fun h => hx (by revert h; cases x <;> simp)); cases x <;> first | exact this | simp at hx

theorem regsBut_settle {l : List (Page × Nat)} {p q : Pkg} (h : regsBut l p q) : regsBut l p (settle q) := h
theorem blocksBut_settle {l : List Page} {p q : Pkg} (h : blocksBut l p q) : blocksBut l p (settle q) := h
theorem regsBut_emit {l : List (Page × Nat)} {p q : Pkg} (o : Out) (h : regsBut l p q) : regsBut l p (emit q o) := h
theorem blocksBut_emit {l : List Page} {p q : Pkg} (o : Out) (h : blocksBut l p q) : blocksBut l p (emit q o) := h
theorem regsBut_raise {l : List (Page × Nat)} {p q : Pkg} (g : Page) (i : Nat) (h : regsBut l p q) : regsBut l p (raise q g i) :=
  fun a b hb => (getReg_raise ..).trans (h a b hb)
theorem blocksBut_raise {l : List Page} {p q : Pkg} (g : Page) (i : Nat) (hg : g ∈ l) (h : blocksBut l p q) : blocksBut l p (raise q g i) :=
  fun a ha => (block_raise_other _ _ _ _ (by rintro rfl; exact ha hg)).trans (h a ha)
theorem regsBut_setReg {l : List (Page × Nat)} {p q : Pkg} (g : Page) (o : Nat) (v : Word) (hg : (g, o) ∈ l) (h : regsBut l p q) : regsBut l p (setReg q g o v) :=
  fun a b hb => (getReg_setReg_other _ _ _ _ _ _ (by rintro ⟨rfl, rfl⟩; exact hb hg)).trans (h a b hb)
theorem regsBut_setState {l : List (Page × Nat)} {p q : Pkg} (g : Page) (st : BlockState) (c : Nat) (h : regsBut l p q) : regsBut l p (setState q g st c) :=
  fun a b hb => (getReg_setState ..).trans (h a b hb)
theorem regsBut_setBlock {l : List (Page × Nat)} {p q : Pkg} (g : Page) (b : Block) (h : regsBut l p q) : regsBut l p (setBlock q g b) := h
theorem blocksBut_setBlock {l : List Page} {p q : Pkg} (g : Page) (b : Block) (hg : g ∈ l) (h : blocksBut l p q) : blocksBut l p (setBlock q g b) :=
  fun a ha => (block_setBlock_other _ _ _ _ (by rintro rfl; exact ha hg)).trans (h a ha)
theorem blocksBut_setState {l : List Page} {p q : Pkg} (g : Page) (st : BlockState) (c : Nat) (hg : g ∈ l) (h : blocksBut l p q) : blocksBut l p (setState q g st c) :=
  blocksBut_raise g _ hg (blocksBut_setBlock g _ hg h)
theorem blocksBut_setReg {l : List Page} {p q : Pkg} (g : Page) (o : Nat) (v : Word) (h : blocksBut l p q) : blocksBut l p (setReg q g o v) := h
theorem regsBut_refl (l : List (Page × Nat)) (p : Pkg) : regsBut l p p := fun _ _ _ => rfl
theorem blocksBut_refl (l : List Page) (p : Pkg) : blocksBut l p p := fun _ _ => rfl
@[simp] theorem getReg_emit (p : Pkg) (o : Out) (g : Page) (k : Nat) : getReg (emit p o) g k = getReg p g k := rfl
@[simp] theorem getReg64_emit (p : Pkg) (o : Out) (g : Page) (k : Nat) : getReg64 (emit p o) g k = getReg64 p g k := rfl
@[simp] theorem getReg64_raise (p : Pkg) (h : Page) (i : Nat) (g : Page) (k : Nat) : getReg64 (raise p h i) g k = getReg64 p g k := by simp [getReg64]
@[simp] theorem block_emit (p : Pkg) (o : Out) (g : Page) : block (emit p o) g = block p g := rfl
@[simp] theorem stateOf_emit (p : Pkg) (o : Out) (g : Page) : stateOf (emit p o) g = stateOf p g := rfl
@[simp] theorem stateOf_bump (p : Pkg) (h : Page) (o n : Nat) (g : Page) : stateOf (bump p h o n) g = stateOf p g := rfl
@[simp] theorem block_bump (p : Pkg) (h : Page) (o n : Nat) (g : Page) : block (bump p h o n) g = block p g := rfl

theorem evt_raise (p : Pkg) (g : Page) (i : Nat) (h : i < 32) : bit (block (raise p g i) g).evt i = true := by
  rw [block_raise_same]
  simp only [withBit, bit, if_true, BitVec.getLsbD_or, BitVec.getLsbD_ofNat, h, decide_true, Bool.true_and, Nat.testBit_two_pow_self, Bool.or_true]

/-! ## 64-bit values and refusals -/

theorem join_halves (v : DWord) : join64 (lo32 v) (hi32 v) = v := by
  apply BitVec.eq_of_toNat_eq
  have := v.isLt
  simp [lo32, hi32, join64, Nat.shiftRight_eq_div_pow]
  omega
theorem halves_join (lo hi : Word) : lo32 (join64 lo hi) = lo ∧ hi32 (join64 lo hi) = hi := by
  have h1 := lo.isLt
  have h2 := hi.isLt
  constructor <;> apply BitVec.eq_of_toNat_eq <;> simp [lo32, hi32, join64, Nat.shiftRight_eq_div_pow] <;> omega
@[simp] theorem getReg64_setReg64 (p : Pkg) (g : Page) (o : Nat) (v : DWord) : getReg64 (setReg64 p g o v) g o = v := by
  unfold setReg64 getReg64
  simp [join_halves]
@[simp] theorem getReg64_bump (p : Pkg) (g : Page) (o n : Nat) : getReg64 (bump p g o n) g o = getReg64 p g o + BitVec.ofNat 64 n := by
  unfold bump
  simp
theorem regsBut_setReg64 {l : List (Page × Nat)} {p q : Pkg} (g : Page) (o : Nat) (v : DWord) (h1 : (g, o) ∈ l) (h2 : (g, o + 4) ∈ l) (h : regsBut l p q) :
    regsBut l p (setReg64 q g o v) := regsBut_setReg g _ _ h2 (regsBut_setReg g _ _ h1 h)
theorem regsBut_bump {l : List (Page × Nat)} {p q : Pkg} (g : Page) (o n : Nat) (h1 : (g, o) ∈ l) (h2 : (g, o + 4) ∈ l) (h : regsBut l p q) :
    regsBut l p (bump q g o n) := regsBut_setReg64 g o _ h1 h2 h
theorem regsBut_storePair {l : List (Page × Nat)} {p q : Pkg} (g : Page) (o : Nat) (v : Word) (h1 : (g, o) ∈ l) (h2 : (g, o + 4) ∈ l) (h : regsBut l p q) :
    regsBut l p (storePair q g o v) := regsBut_setReg g _ _ h2 (regsBut_setReg g _ _ h1 h)
/-- A refusal counted in a CMN page: the counter, the event, and nothing else. -/
theorem countRefusal_says (p : Pkg) (c : Page) : getReg64 (countRefusal p c) c 0x168 = getReg64 p c 0x168 + 1
    ∧ bit (block (countRefusal p c) c).evt evRefusedAccess = true ∧ regsBut [(c, 0x168), (c, 0x16C)] p (countRefusal p c)
    ∧ blocksBut [c] p (countRefusal p c) ∧ (countRefusal p c).out = p.out ∧ ∀ g, stateOf (countRefusal p c) g = stateOf p g := by
  unfold countRefusal
  refine ⟨by simp, evt_raise _ _ _ (by decide), ?_, ?_, by simp, fun g => by simp⟩
  · exact regsBut_raise c _ (regsBut_bump c _ _ (by simp) (by simp) (regsBut_refl _ _))
  · exact blocksBut_raise c _ (by simp) (blocksBut_refl _ _)

/-! ## Bits and events -/

theorem bit_withBit_same {w : Nat} (v : BitVec w) (i : Nat) (h : i < w) : bit (withBit v i true) i = true := by
  simp only [withBit, bit, if_true, BitVec.getLsbD_or, BitVec.getLsbD_ofNat, h, decide_true, Bool.true_and, Nat.testBit_two_pow_self, Bool.or_true]
theorem bit_withBit_other {w : Nat} (v : BitVec w) (i j : Nat) (h : j ≠ i) : bit (withBit v i true) j = bit v j := by
  simp only [withBit, bit, if_true, BitVec.getLsbD_or, BitVec.getLsbD_ofNat, Nat.testBit_two_pow_of_ne (Ne.symm h), Bool.and_false, Bool.or_false]
theorem evt_setState (p : Pkg) (g : Page) (st : BlockState) (c : Nat) : bit (block (setState p g st c) g).evt evStateChange = true :=
  evt_raise _ _ _ (by decide)
/-- A page's other common registers after an event: state, cause, mask and tallies are as they were. -/
theorem block_raise_rest (p : Pkg) (g h : Page) (i : Nat) :
    (block (raise p g i) h).state = (block p h).state ∧ (block (raise p g i) h).cause = (block p h).cause
      ∧ (block (raise p g i) h).mask = (block p h).mask ∧ (block (raise p g i) h).tin = (block p h).tin
      ∧ (block (raise p g i) h).tout = (block p h).tout ∧ (block (raise p g i) h).round = (block p h).round := by
  by_cases e : h = g
  · subst e; rw [block_raise_same]; simp
  · rw [block_raise_other _ _ _ _ e]; simp

/-! ## An access that the checks let through -/

/-- An access of an agent other than the debug port that the checks let through is what the page makes of it. -/
theorem regAccess_through (p : Pkg) (ag : Agent) (g : Page) (off : Nat) (k : Pkg → Pkg) (w : Bool) (hd : ag ≠ .debug) (h : letThrough w p ag g off) :
    regAccess w p ag g off k = k p := by
  obtain ⟨h1, h2⟩ := h
  unfold regAccess
  simp only [h1]
  simp [Status.done, Status.refusedLocked, countDebug, hd, h2]
theorem regGate_through (p : Pkg) (ag : Agent) (g : Page) (off : Nat) (k : Pkg → Pkg) (hd : ag ≠ .debug) (h : letThrough false p ag g off) :
    regGate p ag g off k = k p := regAccess_through p ag g off k false hd h
theorem regGateW_through (p : Pkg) (ag : Agent) (g : Page) (off : Nat) (k : Pkg → Pkg) (hd : ag ≠ .debug) (h : letThrough true p ag g off) :
    regGateW p ag g off k = k p := regAccess_through p ag g off k true hd h
theorem ifOn_on (p : Pkg) (g : Page) (f : Pkg → Pkg) (h : stateOf p g ≠ .off) : ifOn p g f = f p := by simp [ifOn, h]

end Sys2Proof.Machine
end

