-- ==== Sys2Proof/WellFormed.lean ====
section
/-! DEFINITION. Which commands are well formed: the bounds that the manual gives the things a command carries. exec answers every
command; these are the ones that the outside can send. -/
namespace Sys2Proof
open Sys2Proof.Machine

/-- An offset in a register page (R34, R35): aligned, within 4 KiB. -/
def pageOffOk (off : Nat) : Bool := decide (off < 4096) && off % 4 == 0

/-- A packet as a path can carry it (R370): 64 header bytes and at most 2,048 of payload, over I3C or SMBus at most 256. -/
def packetFits (b : List Byte) (most : Nat) : Bool := decide (64 ≤ b.length) && decide (b.length ≤ 64 + most)

/-- A command source (R370). -/
def CmdSrc.wf : CmdSrc → Bool
  | .fabric => true
  | .held => true
  | .mgmt b => packetFits b 2048
  | .i3c b => packetFits b 256

/-- A wake source (R421). -/
def WakeSource.wf : WakeSource → Bool
  | .mgmt b => packetFits b 2048
  | .i3c b => packetFits b 256
  | .burst _ => true
  | .light _ => true
  | .cooled => true

/-- A guest's access on the memory channel: at most the 33 lines of a message, an atomic of a defined operation (R314, R455). -/
def guestOpOk : GuestOp → Bool
  | .read n => decide (1 ≤ n) && decide (n ≤ 2112)
  | .write b => decide (1 ≤ b.length) && decide (b.length ≤ 2112)
  | .atomic opc _ _ _ => decide (opc ≤ 9)
  | .snoop _ => true
  | .interrupt => true
  | .other => true

/-- A table dump that a hand-over reloads names tables and entries of a page (R435). -/
def reloadOk (l : List (Page × Nat × Nat × Word)) : Bool := l.all (fun e => decide (e.2.1 < 4))

/-- Well-formed commands, constructor by constructor. -/
def Instr.wf : Instr → Bool
  | .registerWrite _ addr _ _ => decide (addr < 2 ^ 48)
  | .pairedStage _ _ off _ => pageOffOk off
  | .pairedCommit _ _ off _ => pageOffOk off
  | .pairedPendingExpiry _ off => pageOffOk off
  | .write64HiCommit _ _ off _ => pageOffOk off
  | .tallySnapshotRead .. => true
  | .latchLoRead _ _ off => pageOffOk off
  | .latchHiRead _ _ off => pageOffOk off
  | .evtStatusClear .. => true
  | .evtForceWrite .. => true
  | .ctrlEnable .. => true
  | .ctrlDisable .. => true
  | .selfCheckDone .. => true
  | .drainTimeout .. => true
  | .drainComplete .. => true
  | .roundBoundary => true
  | .bellFrameReceive .. => true
  | .roundJudgement => true
  | .ppsEdge .. => true
  | .refLost .. => true
  | .prkTblDataWrite .. => true
  | .prkSeal .. => true
  | .prkUnseal .. => true
  | .prkSwapArm .. => true
  | .prkSwapCancel .. => true
  | .prickingSwap .. => true
  | .flowDataCommit .. => true
  | .flowData1Read .. => true
  | .tableDataReadInc .. => true
  | .budgetWaitRecheck .. => true
  | .lateReportReceive => true
  | .engineInstrStart .. => true
  | .engineRowDrain .. => true
  | .enginePassBoundary .. => true
  | .throttlePauseEnd .. => true
  | .engineRetire .. => true
  | .engineClockGate .. => true
  | .engineBistEnd .. => true
  | .ctxStart .. => true
  | .ctxStop .. => true
  | .ctxClear .. => true
  | .ctxStopComplete .. => true
  | .instrRetire .. => true
  | .baseBoundCommit .. => true
  | .ilvCommit .. => true
  | .ilvFillEnd .. => true
  | .winOpen .. => true
  | .winClose .. => true
  | .windowExpiry .. => true
  | .windowClosed .. => true
  | .bankGateCommit .. => true
  | .bankSleep .. => true
  | .gateTimeout .. => true
  | .bankWakeFillEnd .. => true
  | .storePatrolRead _ found => found.all (fun e => e.off % 64 == 0)
  | .nop .. => true
  | .endInstr .. => true
  | .policy .. => true
  | .br .. => true
  | .salu .. => true
  | .li .. => true
  | .sld _ found => found.all (fun e => e.off % 64 == 0)
  | .sst .. => true
  | .tstat .. => true
  | .rdbell .. => true
  | .rdid .. => true
  | .waitBell .. => true
  | .waitBellReached .. => true
  | .waitWin .. => true
  | .waitWord .. => true
  | .waitWordRecheck .. => true
  | .waitWordDeadline .. => true
  | .mma .. => true
  | .mmaSp .. => true
  | .mmaAr .. => true
  | .mmaRs .. => true
  | .agMma .. => true
  | .dispMma .. => true
  | .mmaComb .. => true
  | .conv .. => true
  | .ew .. => true
  | .cmp .. => true
  | .cmpAl .. => true
  | .vadd .. => true
  | .vsub .. => true
  | .vmul .. => true
  | .vfma .. => true
  | .vmin .. => true
  | .vmax .. => true
  | .vrcp .. => true
  | .vrsqrt .. => true
  | .vexp .. => true
  | .vsum .. => true
  | .vrmax .. => true
  | .vrmin .. => true
  | .vargmax .. => true
  | .vcvt .. => true
  | .vbcast .. => true
  | .vmerge .. => true
  | .mov .. => true
  | .fill .. => true
  | .cld .. => true
  | .cst .. => true
  | .catom .. => true
  | .mill .. => true
  | .bobPut .. => true
  | .winOpenInstr .. => true
  | .winCloseInstr .. => true
  | .postCmdGo .. => true
  | .descriptorStart .. => true
  | .moveFrameAckReceive .. => true
  | .ackDeadline .. => true
  | .descriptorEnd .. => true
  | .doneHiRead .. => true
  | .landFullClear .. => true
  | .mapCommit .. => true
  | .lineRequest _ off data _ _ _ => decide (off < 2 ^ 36) && (match data with | some b => decide (1 ≤ b.length) && decide (off % 64 + b.length ≤ 64) | none => true)
  | .repairCopyEnd _ found _ => found.all (fun e => decide (e.1 < 128))
  | .patrolScrub .. => true
  | .refreshInterval .. => true
  | .stackTempSample .. => true
  | .compatDutyStep .. => true
  | .repairLogPop .. => true
  | .memcTblWrite .. => true
  | .millCommandArrive .. => true
  | .millAttend .. => true
  | .millTest .. => true
  | .millPageDone .. => true
  | .millCommandEnd .. => true
  | .selRelock .. => true
  | .selRecal .. => true
  | .selWake .. => true
  | .heaterFfUpdate .. => true
  | .lockLoopUpdate .. => true
  | .trimSaturation .. => true
  | .driftQueue .. => true
  | .directedSweepEnd .. => true
  | .sweepRetry .. => true
  | .laneMarkerReceive .. => true
  | .pilotWrongLock .. => true
  | .markerMissing .. => true
  | .recalInterval .. => true
  | .heldRecalEnd .. => true
  | .trackingRecalEnd .. => true
  | .laserStatusWithdrawn .. => true
  | .laserTapLow .. => true
  | .laserLineDark .. => true
  | .rxLightLoss .. => true
  | .wakeBurstSend .. => true
  | .wakeBurstDetect .. => true
  | .steadyLightDetect .. => true
  | .wakingTimeout .. => true
  | .selTblWrite .. => true
  | .linkWordSend .. => true
  | .linkWordReceive _ b => b.length == 32
  | .fecLimitExceeded .. => true
  | .alignComplete .. => true
  | .alignTimeout .. => true
  | .trainingFrameSend .. => true
  | .trainingFrameReceive .. => true
  | .negotiateTimeout .. => true
  | .lnkRetrain .. => true
  | .frameTransmit .. => true
  | .frameReceive _ b _ _ => decide (48 ≤ b.length) && decide (b.length ≤ 2096)
  | .retryRestart .. => true
  | .ackStall .. => true
  | .retrainLimitExpiry .. => true
  | .auditFrameReceive .. => true
  | .txMapUpdate .. => true
  | .chipCommit .. => true
  | .sliceCommit .. => true
  | .portEnCommit .. => true
  | .rtDataCommit .. => true
  | .frameRoute .. => true
  | .routeRevert .. => true
  | .creditHoldDrop .. => true
  | .identityFrameSend .. => true
  | .identityFrameReceive .. => true
  | .commonsWriteReceive .. => true
  | .commonsReadReceive .. => true
  | .commonsAtomicReceive .. => true
  | .twinAtomicReceive .. => true
  | .twinAckReceive .. => true
  | .commonsResponseReceive .. => true
  | .replyDeadline .. => true
  | .atomWindowRelease .. => true
  | .atomLimitExpiry .. => true
  | .flagStoreRelease .. => true
  | .fenceNoticeReceive .. => true
  | .fenceReannounce => true
  | .fenceReqWrite .. => true
  | .samplerPassSet .. => true
  | .samplerPassClear .. => true
  | .lqCmdGo .. => true
  | .cmnTblWrite .. => true
  | .grantReceive .. => true
  | .chunkSend .. => true
  | .chunkDataReceive .. => true
  | .chunkCloseReceive .. => true
  | .chunkCloseResponse .. => true
  | .chunkAckDeadline .. => true
  | .chunkFoldDone .. => true
  | .stageDeadline .. => true
  | .countReceive .. => true
  | .digestReceive .. => true
  | .verdictReceive .. => true
  | .earlyRelease .. => true
  | .tallyDeadline .. => true
  | .wellTblWrite .. => true
  | .phaseChange src => src.wf
  | .phaseStopOld => true
  | .phaseReshardPost => true
  | .phaseReady src => src.wf
  | .phaseVerdict src => src.wf
  | .phaseVerdictMissing => true
  | .phaseStartNew => true
  | .reshardRetry => true
  | .identify src => src.wf
  | .telemetry src => src.wf
  | .eventRead src => src.wf
  | .powerCmd src => src.wf
  | .imageBegin src => src.wf
  | .imageData src => src.wf
  | .imageCommit src _ _ => src.wf
  | .imageInfo src => src.wf
  | .attest src => src.wf
  | .attestRead src => src.wf
  | .debugChallenge src => src.wf
  | .unlockData src => src.wf
  | .unlockCommit src _ => src.wf
  | .certRead src => src.wf
  | .manifestBegin src => src.wf
  | .manifestData src => src.wf
  | .manifestCommit src _ _ => src.wf
  | .manifestWithdraw src => src.wf
  | .startCmd src => src.wf
  | .loadCmd src => src.wf
  | .readCmd src => src.wf
  | .requestCmd src => src.wf
  | .resultAck src => src.wf
  | .ledgerQuery src => src.wf
  | .fenceCmd src => src.wf
  | .maintReset src => src.wf
  | .samplerBegin src => src.wf
  | .samplerState src => src.wf
  | .samplerRecord src => src.wf
  | .samplerDigest src _ _ => src.wf
  | .samplerEnd src => src.wf
  | .samplerReport src => (match src with | some x => x.wf | none => true)
  | .samplerPromote src => src.wf
  | .samplerAdmit src => src.wf
  | .samplerAdmitRound => true
  | .commandBadHeader src => src.wf
  | .cmdFragmentTimeout => true
  | .replyCacheExpiry => true
  | .watchdogRestart => true
  | .watchdogExpiry => true
  | .resultPoll .. => true
  | .resultResend => true
  | .telemetrySnapshot .. => true
  | .nvRecordWrite .. => true
  | .caselmFaultPolicy .. => true
  | .stepStart .. => true
  | .taskReplace .. => true
  | .caselmMirrorRestore .. => true
  | .remirrorCopy .. => true
  | .pwrReqCommit .. => true
  | .powerTransitionStart => true
  | .domainCut .. => true
  | .powerStateReached => true
  | .p1AutoEnter .. => true
  | .wakeDetect w => w.wf
  | .domainRestore .. => true
  | .sensorSample .. => true
  | .tripComputeDie .. => true
  | .tripHub => true
  | .tripStack .. => true
  | .tripStackRailCut .. => true
  | .tripSelvage .. => true
  | .tripCooled .. => true
  | .stackTripClear .. => true
  | .resetRelease .. => true
  | .recoveryRomStart .. => true
  | .caselmHandover reload _ => reloadOk reload
  | .aliasRsaReady => true
  | .unlockExpiry => true
  | .stitchMessageReceive .. => true
  | .moduleOut .. => true
  | .guestIdentityRecord .. => true
  | .guestIdTimeout .. => true
  | .guestAccess _ _ off op => decide (off < 2 ^ 48) && guestOpOk op
  | .guestRateRelease .. => true
  | .outboundGuestAccess _ _ _ _ op _ => guestOpOk op
  | .outboundReplyTimeout .. => true
  | .snoopTimeout .. => true
  | .thimWinOpen .. => true
  | .thimWinClose .. => true
  | .mbDoorbellSet .. => true
  | .mbDoorbellClear .. => true
  | .guestLinkDown .. => true
  | .guestAlert .. => true
  | .rstNAssert => true
  | .powerGoodAccept .. => true
  | .railFault .. => true
  | .powerGoodFall .. => true
  | .railEnableStep => true
  | .railReraise .. => true
  | .refclkLoss => true
  | .debugIdent .. => true
  | .debugRead32 .. => true
  | .debugWrite32 .. => true
  | .debugReadLine .. => true
  | .debugAccessTimeout => true
  | .debugFramingReset => true
  | .dmiAccess .. => true
  | .seqHalt .. => true
  | .seqResume .. => true
  | .seqStep .. => true
  | .jtagIdcode => true
  | .jtagSamplePreload .. => true
  | .jtagExtest .. => true
  | .jtagClamp => true
  | .jtagHighz => true
  | .jtagPrivate .. => true
  | .jtagBypass => true
  | .mrgGo .. => true
  | .mrgAbort .. => true
  | .marginPointDone .. => true
  | .marginRunEnd .. => true
  | .referenceRestored => true
  | .laserStatusAsserted .. => true
  | .moduleIn .. => true
  | .millClockGate .. => true
  | .p2ExitStart => true

end Sys2Proof
end

