-- ==== Sys2Proof/Tests/Slice0.lean ====
section
/-! SUPPORT. The model's own tests: ill-formed commands that WellFormed refuses, and for each statement with hypotheses small states that meet
the hypotheses of its clauses. -/
namespace Sys2Proof.Tests
open Sys2Proof Sys2Proof.Machine

/-! ## Small states -/

/-- The package after reset, with the blocks of some pages in a state. -/
def put_ (st : BlockState) (gs : List Page) (p : Pkg) : Pkg := gs.foldl (fun q g => setBlock q g { block q g with state := st }) p
def on (gs : List Page) (p : Pkg := Pkg.reset) : Pkg := put_ .enabled gs p
/-- At a bell time, and at a local tick. -/
def bellAt (b : DWord) (p : Pkg) : Pkg := { p with bell := b }
def tickAt (n : Nat) (p : Pkg) : Pkg := { p with count := n }
/-- With one part changed. -/
def withCtx (c : CtxId) (f : Ctx → Ctx) (p : Pkg) : Pkg := setCtx p c (f (ctxOf p c))
def withPort (n : Fin 32) (f : Port → Port) (p : Pkg) : Pkg := setPort p n (f (portOfPkg p n))
def withStore (st : StoreId) (f : Store → Store) (p : Pkg) : Pkg := setStore p st (f (storeOf p st))
def withDbg (f : Debug → Debug) (p : Pkg) : Pkg := { p with dbg := f p.dbg }
def withBoot (f : Boot → Boot) (p : Pkg) : Pkg := { p with boot := f p.boot }
def withRv (f : Reeve → Reeve) (p : Pkg) : Pkg := { p with rv := f p.rv }
def withPw (f : Power → Power) (p : Pkg) : Pkg := { p with pw := f p.pw }
def withPins (f : Pins → Pins) (p : Pkg) : Pkg := { p with pins := f p.pins }
def withBell (f : BellUnit → BellUnit) (p : Pkg) : Pkg := { p with bellU := f p.bellU }
def withRg (f : Regs → Regs) (p : Pkg) : Pkg := { p with rg := f p.rg }
/-- A register with its complement. -/
def paired (g : Page) (off : Nat) (v : Word) (p : Pkg) : Pkg := storePair p g off v
/-- The package after a command. -/
def after (c : Instr) (p : Pkg) : Pkg := match exec c ⟨[], p⟩ with | .next t => t.pkg | _ => p

def c0 : CoreId := ⟨0, 0, 0⟩
def x0 : CtxId := ⟨c0, 0⟩
def r0 : Agent := .reeve 0

/-! ## Ill-formed commands -/

/-- Every check of WellFormed refuses an ill-formed command, and takes a well-formed one at the bound. -/
theorem test_wf_addresses :
    (Instr.registerWrite r0 (2 ^ 48) 4 0).wf = false ∧ (Instr.registerWrite r0 (2 ^ 48 - 4) 4 0).wf = true
    ∧ (Instr.pairedStage r0 .bell 4096 0).wf = false ∧ (Instr.pairedStage r0 .bell 0x0A9 0).wf = false ∧ (Instr.pairedStage r0 .bell 4092 0).wf = true
    ∧ (Instr.pairedCommit r0 .bell 4096 0).wf = false ∧ (Instr.pairedPendingExpiry .bell 2).wf = false
    ∧ (Instr.write64HiCommit r0 .bell 4096 0).wf = false ∧ (Instr.latchLoRead r0 .bell 1).wf = false ∧ (Instr.latchHiRead r0 .bell 4096).wf = false
    ∧ (Instr.lineRequest 0 (2 ^ 36) none false false .clean).wf = false ∧ (Instr.lineRequest 0 63 (some [1, 2]) false false .clean).wf = false
    ∧ (Instr.lineRequest 0 (2 ^ 36 - 64) none false false .clean).wf = true
    ∧ (Instr.guestAccess 0 0 (2 ^ 48) (.read 1)).wf = false ∧ (Instr.repairCopyEnd 0 [(128, .one 0)] true).wf = false := by decide

theorem test_wf_payloads :
    (Instr.storePatrolRead (.core c0) [⟨1, 0, false⟩]).wf = false ∧ (Instr.sld x0 [⟨63, 0, false⟩]).wf = false
    ∧ (Instr.linkWordReceive 0 [0]).wf = false ∧ (Instr.frameReceive 0 [0] false 0).wf = false ∧ (Instr.identify (.mgmt [])).wf = false
    ∧ (Instr.identify .fabric).wf = true ∧ (Instr.manifestCommit (.i3c []) ⟨none, [], [], [], [], [], [], [], [], [], [], []⟩ none).wf = false
    ∧ (Instr.samplerReport (some (.mgmt []))).wf = false ∧ (Instr.samplerReport none).wf = true ∧ (Instr.wakeDetect (.mgmt [])).wf = false
    ∧ (Instr.caselmHandover [(.bell, 4, 0, 0)] []).wf = false ∧ (Instr.guestAccess 0 0 0 (.read 0)).wf = false
    ∧ (Instr.guestAccess 0 0 0 (.read 2113)).wf = false ∧ (Instr.guestAccess 0 0 0 (.write [])).wf = false
    ∧ (Instr.guestAccess 0 0 0 (.atomic 10 false 0 0)).wf = false ∧ (Instr.outboundGuestAccess r0 0 0 0 (.read 0) none).wf = false
    ∧ (Instr.commandBadHeader (.i3c [])).wf = false ∧ (Instr.resultAck (.mgmt [])).wf = false := by decide

/-- The commands that carry a packet refuse one that no path can carry. -/
theorem test_wf_packets : ([.phaseChange, .phaseReady, .phaseVerdict, .identify, .telemetry, .eventRead, .powerCmd, .imageBegin, .imageData, .imageInfo,
    .attest, .attestRead, .debugChallenge, .unlockData, .certRead, .manifestBegin, .manifestData, .manifestWithdraw, .startCmd, .loadCmd, .readCmd,
    .requestCmd, .ledgerQuery, .fenceCmd, .maintReset, .samplerBegin, .samplerState, .samplerRecord, .samplerEnd, .samplerPromote, .samplerAdmit]
    : List (CmdSrc → Instr)).all (fun f => !(f (.mgmt [])).wf) = true
    ∧ (Instr.imageCommit (.mgmt []) ⟨true, true⟩ 0).wf = false ∧ (Instr.unlockCommit (.mgmt []) ⟨true, true⟩).wf = false
    ∧ (Instr.samplerDigest (.mgmt []) 0 []).wf = false := by decide

/-! ## Steps, reset and invariants -/

theorem witness_StepRunsTheCommandInFront : ({ State.reset with pending := [.jtagBypass] } : State).pending = .jtagBypass :: [] ∧ State.reset.pending = [] := by
  decide
/-- A state with a byte of memory and an issued instruction that meets the invariants and steps. -/
def busy : State :=
  ⟨[.jtagClamp], { Pkg.reset with mem := [(5, 1)], nextId := 1, insts := [⟨0, x0, 0, 0, .engine, 0, 0, 0, 0, 0, 0, 0, [], none, 0, false, none⟩] }⟩
theorem witness_EveryStepKeepsMemoryCanonical : Memory.wf busy.pkg.mem = true ∧ ∃ t, step busy = .next t := ⟨by decide, _, rfl⟩
theorem witness_EveryStepKeepsIssueNumbersFresh : (∀ i, i ∈ busy.pkg.insts → i.id < busy.pkg.nextId) ∧ ∃ t, Runs busy t := ⟨by decide, _, rfl⟩
theorem witness_AlertPinsFollowThePackage :
    busy.pkg.pins.fault = faultOut busy.pkg ∧ busy.pkg.pins.therm = thermOut busy.pkg ∧ ∃ t, step busy = .next t := ⟨by decide, by decide, _, rfl⟩
/-- The one stop is reached: a permitted private instruction. -/
theorem test_jtagPrivate_stops : exec (.jtagPrivate 0xFE) ⟨[], withBoot (fun b => { b with scope := 0x20 }) Pkg.reset⟩ = .refused .jtagPrivate := by rfl

/-! ## Register access -/

def snapped : Pkg := withRg (fun r => { r with snaps := [((r0, .lnk 3), ⟨5, 3⟩)] }) Pkg.reset
theorem witness_TallySnapshotHeldForTheReader :
    letThrough false Pkg.reset r0 (.lnk 3) 0x028 ∧ Map.look snapped.rg.snaps (r0, .lnk 3) = some ⟨5, 3⟩
    ∧ (Map.look snapped.rg.snaps (r0, .lnk 4) = none ∧ 0x02C ≤ 0x03C ∧ 0x03C < 0x040) := by decide

theorem witness_LatchedReadsOf64BitValues :
    (letThrough false Pkg.reset r0 (.lnk 3) 0x100 ∧ 0x080 ≤ 0x100 ∧ wide64 (.lnk 3) 0x100 = some (0x100, 0))
    ∧ (letThrough false Pkg.reset r0 (.lnk 3) 0x104 ∧ wide64 (.lnk 3) 0x104 = some (0x100, 1))
    ∧ Map.look (withRg (fun r => { r with latches := [((r0, .lnk 3), ⟨0x100, 7⟩)] }) Pkg.reset).rg.latches (r0, .lnk 3) = some ⟨0x100, 7⟩
    ∧ (∀ l, Map.look Pkg.reset.rg.latches (r0, .lnk 3) = some l → l.off ≠ 0x100) := by
  refine ⟨by decide, by decide, by decide, fun l h => ?_⟩
  simp [Pkg.reset, Map.look] at h

def staged (g : Page) (o : Nat) (w : Map Nat Word) : Pkg := withRg (fun r => { r with staged := [(⟨g, o⟩, ⟨r0, w, 0⟩)] }) Pkg.reset
theorem witness_PairedValuesCommitWholeOrNotAtAll_stage :
    letThrough true Pkg.reset r0 (.lnk 3) 0x008 ∧ letThrough true Pkg.reset r0 (.lnk 3) 0x088
    ∧ findRow (.lnk 3) 0x088 = some (⟨0x088, 1, 0, "LNK_CFG", .rwp, 0x32282603, 0xFFFFFF03⟩, 0x088, 0)
    ∧ letThrough true Pkg.reset r0 .bell 0x0B0
    ∧ findRow .bell 0x0B0 = some (⟨0x0A8, 1, 0, "EPOCH", .rwp64, 0x0, 0xFFFFFFFF⟩, 0x0A8, 2) := by decide
theorem witness_PairedValuesCommitWholeOrNotAtAll_commit :
    letThrough true (staged (.lnk 3) 0x088 [(0, 5)]) r0 (.lnk 3) 0x08C
    ∧ findRow (.lnk 3) 0x08C = some (⟨0x088, 1, 0, "LNK_CFG", .rwp, 0x32282603, 0xFFFFFF03⟩, 0x088, 1)
    ∧ stagedOf (staged (.lnk 3) 0x088 [(0, 5)]) (.lnk 3) 0x088 = some ⟨r0, [(0, 5)], 0⟩ ∧ Map.look ([(0, 5)] : Map Nat Word) 0 = some (~~~(~~~(5#32)))
    ∧ stagedOf (tickAt 4096 (staged (.lnk 3) 0x088 [(0, 5)])) (.lnk 3) 0x088 = none := by decide
theorem witness_PairedValuesCommitWholeOrNotAtAll_expiry :
    Map.look (staged .reeve 0x088 [(0, 5)]).rg.staged ⟨.reeve, 0x088⟩ = some ⟨r0, [(0, 5)], 0⟩ ∧ 0 + 4096 ≤ (tickAt 4096 (staged .reeve 0x088 [(0, 5)])).count
    ∧ (tickAt 4095 (staged .reeve 0x088 [(0, 5)])).count < 0 + 4096 := by decide
theorem witness_PairedValuesCommitWholeOrNotAtAll_wide :
    let w : Map Nat Word := [(0, 1), (1, 2), (2, ~~~1)]
    letThrough true (staged .bell 0x0A8 w) r0 .bell 0x0B4 ∧ stagedOf (staged .bell 0x0A8 w) .bell 0x0A8 = some ⟨r0, w, 0⟩ ∧ Map.look w 0 = some 1
    ∧ Map.look w 1 = some 2 ∧ Map.look w 2 = some (~~~1) ∧ stagedOf Pkg.reset .bell 0x0A8 = none := by decide

theorem witness_EventBitsClearAndForce : letThrough true Pkg.reset r0 (.prk 31) 0x018 ∧ letThrough true Pkg.reset r0 (.prk 31) 0x020 := by decide

theorem witness_ControlCommitsMoveTheBlock_enable :
    letThrough true Pkg.reset r0 (.lnk 3) 0x008 ∧ Pkg.reset.dbg.margin = none ∧ inService Pkg.reset (.lnk 3) = true ∧ stateOf Pkg.reset (.lnk 3) = .disabled
    ∧ letThrough true Pkg.reset r0 (.core ⟨0, 0, 8⟩) 0x008 ∧ inService Pkg.reset (.core ⟨0, 0, 8⟩) = false
    ∧ stateOf (put_ .fault [.lnk 3] Pkg.reset) (.lnk 3) ≠ .disabled := by decide
theorem witness_ControlCommitsMoveTheBlock_disable :
    (letThrough true (on [.ledg 0]) r0 (.ledg 0) 0x008 ∧ stateOf (on [.ledg 0]) (.ledg 0) = .enabled ∧ contained (.ledg 0) = [] ∧ coreOfPage (.ledg 0) = none
      ∧ clstOfPage (.ledg 0) = none ∧ selOfPage (.ledg 0) = none ∧ siteOfPage (.ledg 0) = none ∧ noItems (.ledg 0) = false)
    ∧ (letThrough true (on [.thrm 4]) r0 (.thrm 4) 0x008 ∧ stateOf (on [.thrm 4]) (.thrm 4) = .enabled ∧ noItems (.thrm 4) = true ∧ Page.thrm 4 ≠ .bell)
    ∧ stateOf (put_ .draining [.ledg 0] Pkg.reset) (.ledg 0) = .draining ∧ stateOf (put_ .quarantined [.ledg 0] Pkg.reset) (.ledg 0) = .quarantined
    ∧ stateOf (put_ .enabling [.ledg 0] Pkg.reset) (.ledg 0) = .enabling
    ∧ stateOf (put_ .fault [.ledg 0] Pkg.reset) (.ledg 0) = .fault ∧ Map.look Pkg.reset.rg.drains (.ledg 0) = none := by decide

theorem witness_EnablingAndDrainsEnd_selfCheck :
    (stateOf (put_ .enabling [.bell] Pkg.reset) .bell = .enabling ∧ coreOfPage .bell = none ∧ millOfPage .bell = none ∧ selOfPage .bell = none ∧ Page.bell.type ≠ 0x0B)
    ∧ Page.bell ∉ Pkg.reset.rg.undo
    ∧ (let p := tickAt 100000000000 (put_ .enabling [.mill ⟨11, 7⟩] Pkg.reset)
       stateOf p (.mill ⟨11, 7⟩) = .enabling ∧ (block p (.mill ⟨11, 7⟩)).since + testCycles (bits (getReg p (.mill ⟨11, 7⟩) 0x088) 1 0) ≤ p.count
       ∧ Page.mill ⟨11, 7⟩ ∉ p.rg.undo)
    ∧ stateOf (put_ .enabling [.sel 15] Pkg.reset) (.sel 15) = .enabling := by decide
def draining (g : Page) (n : Nat) : Pkg := tickAt n (withRg (fun r => { r with drains := [(g, ⟨0, 1000000, 0x01⟩)] }) (put_ .draining [g] Pkg.reset))
theorem witness_EnablingAndDrainsEnd_drains :
    (Map.look (draining (.ledg 0) 0).rg.drains (.ledg 0) = some ⟨0, 1000000, 0x01⟩ ∧ stateOf (draining (.ledg 0) 0) (.ledg 0) = .draining
      ∧ tallyHeld (draining (.ledg 0) 0) (.ledg 0) = 0 ∧ containedDone (draining (.ledg 0) 0) (.ledg 0) = true)
    ∧ lnkOfPage (.ledg 0) = none ∧ (lnkOfPage (.lnk 31) = some 31 ∧ stateOf (draining (.lnk 31) 0) (.lnk 31) = .draining)
    ∧ Map.look Pkg.reset.rg.drains (.ledg 0) = none
    ∧ (draining .sec 999999).count < 0 + 1000000
    ∧ (0 + 1000000 ≤ (draining .sec 1000000).count ∧ stateOf (draining .sec 1000000) .sec = .draining ∧ ctrlRun (draining .sec 1000000) .sec ≠ 1
      ∧ Page.sec.type = 0x02)
    ∧ (stateOf (draining (.prk 0) 1000000) (.prk 0) = .draining ∧ (portOfPkg (draining (.prk 0) 1000000) 0).queue = []) := by decide

theorem witness_ContainedBlocksDrainTogether :
    let p := on [.drt 3, .prk 31]
    letThrough true p r0 (.drt 3) 0x008 ∧ p.dbg.margin = none ∧ stateOf p (.drt 3) = .enabled ∧ noItems (.drt 3) = false ∧ Page.prk 31 ∈ contained (.drt 3) := by
  decide

theorem witness_RegisterWriteTakenOrRefused :
    (2 ≠ 4 ∧ r0 ≠ .debug ∧ (0x0F0001CFFFFD : Nat) % 4 ≠ 0 ∧ rangeOf (0x0F0001C1F081) = .page (.lnk 31) 0x081 ∧ (0x0F0001C1F081 : Nat) % 4 ≠ 0)
    ∧ (rangeOf 0x0F0001C1F088 = .page (.lnk 31) 0x088 ∧ regStatus true (put_ .off [.lnk 31] Pkg.reset) r0 (.lnk 31) 0x088 ≠ Status.done)
    ∧ (rangeOf 0x0F0001C1F01C = .page (.lnk 31) 0x01C ∧ letThrough true Pkg.reset r0 (.lnk 31) 0x01C)
    ∧ (rangeOf 0x0F0001C1F07C = .page (.lnk 31) 0x07C ∧ 0x040 ≤ 0x07C ∧ 0x07C < 0x080 ∧ letThrough true Pkg.reset r0 (.lnk 31) 0x07C)
    ∧ (0x7FFFFC % 4 = 0 ∧ 0x7FFFFC < 0x800000 ∧ Memory.wf Pkg.reset.mem = true) := by decide

/-! ## Bell time and prickings -/

def linked (n : Fin 32) (p : Pkg) : Pkg := withPort n (fun x => { x with lstate := .up, version := 2 }) p
/-- A 64-byte payload that carries the complement of its first half. -/
def frame64 (b : List Byte) : List Byte := b ++ complBytes b
def bell32 (valid : Nat) : List Byte := leBytes 8 (3 * 2 ^ 15 + 8) ++ List.replicate 6 0 ++ [BitVec.ofNat 8 valid] ++ List.replicate 17 0
theorem witness_BellFramesSentAndMeasured :
    (slotOf (bellAt (7 * 32768) Pkg.reset).bell = 0 ∧ (withBell (fun u => { u with roundDone := some 6 }) (bellAt (7 * 32768) Pkg.reset)).bellU.roundDone = some 6
      ∧ 6 < roundNow (bellAt (7 * 32768) Pkg.reset))
    ∧ slotOf (bellAt 32767 Pkg.reset).bell ≠ 0 ∧ carriesBell Pkg.reset 31 = false ∧ carriesBell (linked 31 Pkg.reset) 31 = true
    ∧ complOk 32 (List.replicate 64 0) = false ∧ complOk 32 (frame64 (bell32 0x20)) = true ∧ (leField (frame64 (bell32 0x20)) 14 1).testBit 5 = true
    ∧ (leField (frame64 (bell32 0)) 14 1).testBit 5 = false
    ∧ (withBell (fun u => { u with parent := some 31, state := .joining }) Pkg.reset).bellU.parent = some 31
    ∧ (withBell (fun u => { u with parent := some 31, state := .locked }) Pkg.reset).bellU.state ≠ .joining := by decide

def judging (f : BellUnit → BellUnit) : Pkg := withBell f (bellAt (7 * 32768 + 512 * 8) Pkg.reset)
/-- Root entry 0 names chip 5, which is this package. -/
def rootPkg : Pkg := paired (.drt 0) 0x090 0x10005 (judging (fun u => { u with state := .joining, inForce := ⟨0x0080F001#32, 5, 0, 0⟩ }))
theorem witness_BellJudgementAndReferences :
    slotOf (bellAt 0 Pkg.reset).bell ≠ 512
    ∧ (slotOf (judging id).bell = 512 ∧ (judging id).bellU.judged = none ∧ enabled (judging id) hubCmn = false ∧ neighbours (judging id) = [])
    ∧ (judging id).bellU.state = .unjoined
    ∧ (slotOf rootPkg.bell = 512 ∧ rootPkg.bellU.state = .joining ∧ isRootEntry rootPkg 0 = true ∧ rootPkg.bellU.parent = none) := by decide
/-- A follower that hears nothing. -/
def deafUnit (st : BellState) (n : Nat) : Pkg :=
  judging (fun u => { u with state := st, rootSilent := 1, holdRounds := n, ports := (List.finRange 32).map (fun k => (k, { BellPort.reset with silent := 1 })) })
theorem witness_BellJudgementAndReferences_silent :
    (∀ k, isRootEntry (deafUnit .locked 0) k = false)
    ∧ (∀ n, (bellPort (deafUnit .locked 0) n).arrived = false ∧ 1 ≤ (bellPort (deafUnit .locked 0) n).silent)
    ∧ (deafUnit .locked 0).bellU.state = .locked ∧ 1 ≤ (deafUnit .locked 0).bellU.rootSilent
    ∧ (∀ n, (deafUnit .locked 0).bellU.parent = some n → (bellPort (deafUnit .locked 0) n).ofs.natAbs ≤ 256)
    ∧ (deafUnit .holdover 100000).bellU.inForce.holdLimit ≤ (deafUnit .holdover 100000).bellU.holdRounds := by
  refine ⟨fun k => ?_, by decide, by decide, by decide, by decide, by decide⟩
  have h : chipAssigned (deafUnit .locked 0) = false := by decide
  simp [isRootEntry, h]
theorem witness_BellJudgementAndReferences_edges :
    isRoot (withBell (fun u => { u with state := .locked, hops := 0, inForce := ⟨0x0080F011#32, 5, 0, 9⟩ }) rootPkg) = true
    ∧ (withBell (fun u => { u with inForce := ⟨0x0080F011#32, 5, 0, 9⟩ }) rootPkg).bellU.inForce.extRef = true ∧ rootPkg.bellU.ppsEdges = 0
    ∧ isRoot Pkg.reset = false := by decide

def sel_ (slot : Nat) (p : Pkg) : Pkg := setReg p (.prk 31) 0x100 (BitVec.ofNat 32 slot)
def armed (m : Nat) (p : Pkg) : Pkg := setRouter p 3 { (router p 3) with armed := some (9, m) }
theorem witness_PrickingsWrittenSealedAndSwapped_write :
    stateOf Pkg.reset (.prk 31) ≠ .off ∧ bits (0x12345678#32) 31 16 + bits (0x12345678#32) 15 0 ≠ 0xFFFF
    ∧ (bits (0x7FFE8001#32) 31 16 + bits (0x7FFE8001#32) 15 0 = 0xFFFF ∧ bits (getReg (sel_ 0 Pkg.reset) (.prk 31) 0x100) 11 0 = 0
      ∧ bits (0x7FFE8001#32) 15 0 ≠ 0x8000)
    ∧ (bits (getReg (sel_ 4095 Pkg.reset) (.prk 31) 0x100) 11 0 = 4095 ∧ swapArmedOn (armed 0x80 Pkg.reset) 31 = true ∧ swapArmedOn (armed 0x7F Pkg.reset) 31 = false) := by
  decide
theorem witness_PrickingsWrittenSealedAndSwapped_arm :
    let p := bellAt (7 * 32768) Pkg.reset
    stateOf p (.drt 3) ≠ .off ∧ (0x80#8) ≠ 0
    ∧ (2 ≤ ((9#24).toNat + 2 ^ 24 - roundNow p % 2 ^ 24) % 2 ^ 24 ∧ (router p 3).armed = none)
    ∧ (∀ n, n ∈ portsOf 3 → (0x80#8).toNat.testBit (portIdx n) = true
        → (portOfPkg (withPort 31 (fun x => { x with sealedB := true }) p) n).sealed (standbyCopy (withPort 31 (fun x => { x with sealedB := true }) p) n) = true)
    ∧ ¬(2 ≤ ((8#24).toNat + 2 ^ 24 - roundNow p % 2 ^ 24) % 2 ^ 24)
    ∧ (router (armed 0x80 Pkg.reset) 3).armed = some (9, 0x80)
    ∧ (roundNow (bellAt (9 * 32768) (armed 0x80 Pkg.reset)) % 2 ^ 24 = 9 ∧ slotOf (bellAt (9 * 32768) (armed 0x80 Pkg.reset)).bell = 0) := by decide

theorem witness_FlowTableAndTableReads :
    (let p := setReg (setReg (setReg Pkg.reset (.drt 3) 0x120 0x80000FFE) (.drt 3) 0x124 0x00400000) (.drt 3) 0x12C (~~~0x00400000)
     stateOf p (.drt 3) ≠ .off ∧ getReg p (.drt 3) 0x12C = ~~~(getReg p (.drt 3) 0x124) ∧ getReg p (.drt 3) 0x128 = 0 ∧ bit (getReg p (.drt 3) 0x120) 31 = true)
    ∧ getReg Pkg.reset (.drt 3) 0x12C ≠ ~~~(getReg Pkg.reset (.drt 3) 0x124)
    ∧ letThrough false Pkg.reset r0 (.drt 3) 0x128 ∧ letThrough false Pkg.reset r0 (.memc 11) (tableAddr (.memc 11)).1 := by decide

/-! ## Contexts and stores -/

def run0 (p : Pkg) : Pkg := withCtx x0 (fun x => { x with state := .running }) p
def inState (st : CtxState) : Pkg := withCtx x0 (fun x => { x with state := st }) (on [.core c0])
def inst0 (u : UnitKind) (e : Option Status) : Inst := ⟨4, x0, 7, 0, u, 0, 0, 0, 0, 0, 0, 0, [], none, 0, true, e⟩
theorem witness_ContextCommandsAndRetirement_commands :
    (stateOf (on [.core c0]) (.core c0) ≠ .off ∧ (ctxOf (on [.core c0]) x0).state = .idle ∧ enabled (on [.core c0]) (.core c0) = true
      ∧ pairOk (on [.core c0]) (.core c0) (ctxReg x0 0x08) = true)
    ∧ enabled Pkg.reset (.core c0) = false ∧ (ctxOf (inState .running) x0).state = .running ∧ (ctxOf (inState .waiting) x0).state = .waiting
    ∧ waitInst (inState .running) x0 = none ∧ (ctxOf (inState .stopped) x0).state = .stopped ∧ (ctxOf (inState .idle) x0).state ≠ .stopped
    ∧ Map.getD Pkg.reset.pw.die 0 0 ≠ 1 := by decide
theorem witness_ContextCommandsAndRetirement_complete :
    let p := paired (.core c0) 0x118 0x01000000 (inState .stopping)
    let off := pairBase p x0 .core + pairBound p x0 .core - 64
    (ctxOf p x0).state = .stopping ∧ instsOf p x0 = [] ∧ Memory.wf p.mem = true ∧ pairBound p x0 .core ≠ 0 ∧ off + 64 ≤ StoreId.size (.core c0)
    ∧ rangeAsleep p (.core c0) off 64 = false ∧ pairBound (inState .stopping) x0 .core = 0 := by decide
theorem witness_ContextCommandsAndRetirement_retire :
    let p := { inState .running with insts := [inst0 .engine (some Status.done)] }
    (instsOf p x0)[0]? = some (inst0 .engine (some Status.done)) ∧ (inst0 .engine (some Status.done)).ended = some Status.done
    ∧ fatal (ctxOf p x0).policy Status.done = false ∧ fatal (ctxOf p x0).policy Status.failedFormat = true ∧ (inst0 .engine none).unit ≠ .waitUnit := by decide
theorem witness_ContextCommandsAndRetirement_pairs :
    pairRange 0 0x01010000 = false ∧ pairRange 0 0x01000000 = true ∧ (ctxOf (inState .idle) x0).state ≠ .running ∧ (ctxOf (inState .idle) x0).state ≠ .waiting := by
  decide

def withBank (st : StoreId) (t : Nat) (n : Nat) : Pkg := tickAt n (withStore st (fun x => { x with filling := some t, pend := [(0, t)], bankFill := [(0, t)] }) Pkg.reset)
theorem witness_StoreBanksAndFills_commits :
    (stateOf Pkg.reset (StoreId.core c0).page ≠ .off ∧ bits (0x30#32) 5 4 = 3)
    ∧ (bits (0x10#32) 5 4 ≠ 3 ∧ bits (0x10#32) 5 4 ≠ ilvOf Pkg.reset (.core c0) ∧ ilvFree (inState .running) (.core c0) = false
      ∧ ilvFree Pkg.reset (.core c0) = true ∧ (storeOf Pkg.reset (.core c0)).asleep = 0)
    ∧ ((Map.look (storeOf (withStore (.cluster 3 9) (fun x => { x with pend := [(63, 0)] }) Pkg.reset) (.cluster 3 9)).pend 63).isSome = true
      ∧ engineHolds Pkg.reset (.cluster 3 9) 63 = false) := by decide
theorem witness_StoreBanksAndFills_times :
    ((storeOf (withBank (.core c0) 10 0) (.core c0)).filling = some 10 ∧ cyclesPast (withBank (.core c0) 10 437) 10 512 = true
      ∧ cyclesPast (withBank (.core c0) 10 436) 10 512 = false)
    ∧ (Map.look (storeOf (withBank (.core c0) 10 0) (.core c0)).pend 0 = some 10
      ∧ 10 + gateLimit (withBank (.core c0) 10 1000010) (.core c0) ≤ (withBank (.core c0) 10 1000010).count
      ∧ (withBank (.core c0) 10 1000009).count < 10 + gateLimit (withBank (.core c0) 10 1000009) (.core c0))
    ∧ (Map.look (storeOf (withBank (.core c0) 10 0) (.core c0)).bankFill 0 = some 10)
    ∧ (bit (getReg Pkg.reset (StoreId.core c0).page 0x088) 0 = true ∧ cyclesPast (tickAt 54614 Pkg.reset) 0 65536 = true
      ∧ bankRow Pkg.reset (.core c0) 64 = 0 ∧ (storeOf Pkg.reset (.core c0)).asleep.testBit (bankOf Pkg.reset (.core c0) 64) = false ∧ 64 < StoreId.size (.core c0))
    ∧ bit (getReg (paired (.core c0) 0x088 0 Pkg.reset) (StoreId.core c0).page 0x088) 0 = false := by decide
theorem witness_GateRequestsTimeOutOrAreCancelled :
    let p := withBank (.core c0) 10 1000010
    0 < StoreId.banks (.core c0) ∧ Map.look (storeOf p (.core c0)).pend 0 = some 10
    ∧ 10 + (if bits (getReg p (StoreId.core c0).page 0x088) 19 8 = 0 then 1000 else bits (getReg p (StoreId.core c0).page 0x088) 19 8) * 1000 ≤ p.count
    ∧ stateOf p (StoreId.core c0).page ≠ .off ∧ bit (0xFFFFFFFFFFFFFFFE#64) 0 = false := by decide
theorem witness_Mxint8ReadsAndClamps :
    (0x81#8 ∈ (convertRow .mxint8 true [.fin true 1 7]).2 ∨ (convertRow .mxint8 true [.fin true 1 7]).2 ≠ [])
    ∧ 0xC0 ∈ (mxBlock .mxint8 [.fin true 1 7]).2 ∧ ([.fin true 1 7] : List Machine.Num)[0]? = some (.fin true 1 7) := by decide

def winAt (st : StoreId) (w : Nat) (x : Win) (p : Pkg) : Pkg := setWin p st w x
def opened : Win := { Win.reset with state := .opened, owner := some x0 }
theorem witness_WindowsOpenAndClose_commands :
    (stateOf Pkg.reset (StoreId.core c0).page ≠ .off ∧ ownerOf Pkg.reset (.core c0) 3 0 = some ⟨c0, 3⟩ ∧ (7 : Fin 16).val < StoreId.windows (.core c0)
      ∧ (winOf Pkg.reset (.core c0) 7).state = .closed ∧ winPending Pkg.reset (.core c0) 7 = false)
    ∧ ownerOf Pkg.reset (.cluster 0 0) 0 9 = none ∧ StoreId.windows (.core c0) ≤ (8 : Fin 16).val
    ∧ (winOf (winAt (.core c0) 7 opened Pkg.reset) (.core c0) 7).state = .opened := by decide
theorem witness_WindowsOpenAndClose_ends :
    let p := setReg (winAt (.core c0) 0 opened (bellAt 9 Pkg.reset)) (.core c0) 0x620 9
    (winOf p (.core c0) 0).state = .opened ∧ winExpiry p (.core c0) 0 ≠ 0 ∧ winExpiry p (.core c0) 0 ≤ p.bell.toNat
    ∧ winExpiry Pkg.reset (.core c0) 0 = 0 ∧ (bellAt 8 p).bell.toNat < winExpiry (bellAt 8 p) (.core c0) 0
    ∧ (winOf (winAt (.core c0) 0 { opened with state := .closing } Pkg.reset) (.core c0) 0).state = .closing
    ∧ closesWin (.core c0) 0 ⟨0, x0, 0, 0xA2#128, .sequencer, 0, 0, 0, 0, 0, 0, 0, [], none, 0, true, none⟩ = true := by decide

/-! ## Instructions -/

/-- A word by its fields: value and lowest bit. -/
def word (l : List (Nat × Nat)) : BitVec 128 := BitVec.ofNat 128 ((l.map (fun f => f.1 * 2 ^ f.2)).sum)
/-- Context 0.0.0.0 running at the start of its core store, with a word there and scalar registers 1 to 4. -/
def prog (w : BitVec 128) (s : Map Nat DWord := []) (p : Pkg := on [.core c0]) : Pkg :=
  setBytes (paired (.core c0) 0x118 0x01000000 (withCtx x0 (fun x => { x with state := .running, s := s }) p)) (StoreId.base (.core c0)) (leBytes 16 w.toNat)
def nopW : BitVec 128 := 0
def brW : BitVec 128 := word [(0x03, 0), (0xFFFF, 64)]
def saluW : BitVec 128 := word [(0x04, 0), (10, 24), (1, 39), (2, 44), (3, 49)]
/-- mayRun, as a test. -/
def runnable (p : Pkg) (c : CtxId) (w : BitVec 128) : Bool :=
  (ctxOf p c).state == .running && !(ctxOf p c).halted && (ctxOf p c).stepInst.isNone && decide ((ctxOf p c).brUntil ≤ p.count)
  && pairSound p c .core && (match fetch p c (ctxOf p c).pc with | .ok v => v == w | .error _ => false) && mayIssue p c w
  && ((ctxOf p c).skipBp || (breakpointsOk p && (breakpointAt p c (ctxOf p c).pc).isNone)) && (handlePairs (ctxOf p c) w).all (fun k => pairSound p c k) && wordOk w && mayTurn p c
theorem mayRun_of_runnable (p : Pkg) (c : CtxId) (w : BitVec 128) (h : runnable p c w = true) : mayRun p c w := by
  unfold runnable at h
  simp only [Bool.and_eq_true, beq_iff_eq, Bool.not_eq_true', decide_eq_true_eq, Option.isNone_iff_eq_none, List.all_eq_true, Bool.or_eq_true] at h
  obtain ⟨⟨⟨⟨⟨⟨⟨⟨⟨⟨h1, h2⟩, h3⟩, h4⟩, h5⟩, h6⟩, h7⟩, h8⟩, h9⟩, h10⟩, h11⟩ := h
  refine ⟨h1, h2, h3, h4, h5, ?_, h7, h8, h9, h10, h11⟩
  split at h6
  · rename_i v hv
    rw [hv, beq_iff_eq.mp h6]
  · cases h6

theorem witness_TaskControlAndScalarInstructions :
    (mayRun (prog nopW) x0 nopW ∧ opOf nopW = 0x00) ∧ (mayRun (prog 0x01#128) x0 0x01#128 ∧ (ctxOf (prog 0x01#128) x0).stop = none)
    ∧ (mayRun (prog (word [(0x02, 0), (0x1F, 24)])) x0 (word [(0x02, 0), (0x1F, 24)]))
    ∧ (mayRun (prog brW) x0 brW ∧ bits brW 26 24 ≠ 7 ∧ branchTaken (bits brW 26 24) 0 0 = true) :=
  ⟨⟨mayRun_of_runnable _ _ _ (by decide), by decide⟩, ⟨mayRun_of_runnable _ _ _ (by decide), by decide⟩, mayRun_of_runnable _ _ _ (by decide),
   mayRun_of_runnable _ _ _ (by decide), by decide⟩

theorem witness_TaskControlAndScalarInstructions_writes :
    (mayRun (prog saluW) x0 saluW ∧ bits saluW 27 24 ≤ 10) ∧ mayRun (prog (word [(0x05, 0), (3, 49)])) x0 (word [(0x05, 0), (3, 49)])
    ∧ mayRun (prog (word [(0x09, 0), (31, 49)])) x0 (word [(0x09, 0), (31, 49)]) ∧ mayRun (prog (word [(0x0A, 0)])) x0 (word [(0x0A, 0)])
    ∧ (mayRun (prog (word [(0x04, 0), (11, 24)])) x0 (word [(0x04, 0), (11, 24)]) ∧ 10 < bits (word [(0x04, 0), (11, 24)]) 27 24)
    ∧ (mayRun (prog (word [(0x03, 0), (7, 24)])) x0 (word [(0x03, 0), (7, 24)]) ∧ bits (word [(0x03, 0), (7, 24)]) 26 24 = 7)
    ∧ (mayRun (prog (word [(0x03, 0), (2, 24)])) x0 (word [(0x03, 0), (2, 24)]) ∧ branchTaken 2 (0 : DWord) 0 = false) :=
  ⟨⟨mayRun_of_runnable _ _ _ (by decide), by decide⟩, mayRun_of_runnable _ _ _ (by decide), mayRun_of_runnable _ _ _ (by decide),
   mayRun_of_runnable _ _ _ (by decide), ⟨mayRun_of_runnable _ _ _ (by decide), by decide⟩, ⟨mayRun_of_runnable _ _ _ (by decide), by decide⟩,
   mayRun_of_runnable _ _ _ (by decide), by decide⟩
/-- A store's check or a fetch, as a Bool; and what that says. -/
def checksTo {α : Type} [BEq α] (r : Except Status α) (n : α) : Bool := match r with | .ok a => a == n | .error _ => false
def checksErr {α : Type} (r : Except Status α) (e : Status) : Bool := match r with | .ok _ => false | .error x => x == e
theorem eq_of_checksTo {α : Type} [BEq α] [LawfulBEq α] (r : Except Status α) (n : α) (h : checksTo r n = true) : r = .ok n := by
  cases r with
  | ok a => simp only [checksTo, beq_iff_eq] at h; rw [h]
  | error e => cases h
theorem eq_of_checksErr {α : Type} (r : Except Status α) (e : Status) (h : checksErr r e = true) : r = .error e := by
  cases r with
  | ok a => cases h
  | error x => simp only [checksErr, beq_iff_eq] at h; rw [h]
/-- An undefined opcode at a context that passes an armed breakpoint. -/
def undefP : Pkg := withCtx x0 (fun x => { x with skipBp := true }) (prog 0xFF#128)
theorem witness_TaskControlAndScalarInstructions_undefined :
    usedBits 0xFF#128 = none ∧ (ctxOf undefP x0).state = .running ∧ (ctxOf undefP x0).halted = false ∧ (ctxOf undefP x0).stepInst = none
    ∧ (ctxOf undefP x0).brUntil ≤ undefP.count ∧ pairSound undefP x0 .core = true ∧ fetch undefP x0 (ctxOf undefP x0).pc = .ok 0xFF#128
    ∧ mayIssue undefP x0 0xFF#128 = true ∧ (ctxOf undefP x0).skipBp = true
    ∧ (∀ k, k ∈ handlePairs (ctxOf undefP x0) 0xFF#128 → pairSound undefP x0 k = true) :=
  ⟨by decide, by decide, by decide, by decide, by decide, by decide, eq_of_checksTo _ _ (by decide), by decide, by decide, by decide⟩

def sldW : BitVec 128 := word [(0x06, 0), (1, 39), (3, 49)]
def sstW : BitVec 128 := word [(0x07, 0), (1, 39), (2, 44)]
theorem witness_StoreWordsAndStatusLatches_access :
    (mayRun (prog sldW [(1, 0xFFFF8)]) x0 sldW ∧ Memory.wf (prog sldW [(1, 0xFFFF8)]).mem = true
      ∧ storeCheck (prog sldW [(1, 0xFFFF8)]) x0 .core 0xFFFF8 8 = .ok (0x010000000000 + 0xFFFF8)
      ∧ localPoisoned (prog sldW [(1, 0xFFFF8)]) (0x010000000000 + 0xFFFF8) 8 = false)
    ∧ (mayRun (prog sstW [(1, 0xFFFF8)]) x0 sstW ∧ storeCheck (prog sstW [(1, 0xFFFF8)]) x0 .core 0xFFFF8 8 = .ok (0x010000000000 + 0xFFFF8))
    ∧ (mayRun (prog sldW [(1, 4)]) x0 sldW ∧ (sreg (ctxOf (prog sldW [(1, 4)]) x0) (slotA sldW) + imm64 sldW).toNat % 8 ≠ 0)
    ∧ (mayRun (prog sstW [(1, 0x100000)]) x0 sstW ∧ storeCheck (prog sstW [(1, 0x100000)]) x0 .core 0x100000 8 = .error Status.refusedBound) :=
  ⟨⟨mayRun_of_runnable _ _ _ (by decide), by decide, eq_of_checksTo _ _ (by decide), by decide⟩, ⟨mayRun_of_runnable _ _ _ (by decide), eq_of_checksTo _ _ (by decide)⟩,
   ⟨mayRun_of_runnable _ _ _ (by decide), by decide⟩, mayRun_of_runnable _ _ _ (by decide), eq_of_checksErr _ _ (by decide)⟩
def tstatW (t : Nat) : BitVec 128 := word [(0x08, 0), (t, 24), (3, 49)]
theorem witness_StoreWordsAndStatusLatches_tstat :
    (mayRun (prog (tstatW 7)) x0 (tstatW 7) ∧ bits (tstatW 7) 27 24 < 8) ∧ (mayRun (prog (tstatW 8)) x0 (tstatW 8) ∧ bits (tstatW 8) 27 24 = 8)
    ∧ (mayRun (prog (tstatW 9)) x0 (tstatW 9) ∧ 8 < bits (tstatW 9) 27 24)
    ∧ localPoisoned { prog sldW [(1, 64)] with poison := [0x010000000040 / 64] } 0x010000000040 8 = true :=
  ⟨⟨mayRun_of_runnable _ _ _ (by decide), by decide⟩, ⟨mayRun_of_runnable _ _ _ (by decide), by decide⟩,
   ⟨mayRun_of_runnable _ _ _ (by decide), by decide⟩, by decide⟩

def waitBellW : BitVec 128 := word [(0x10, 0), (1, 39)]
def waitWinW : BitVec 128 := word [(0x11, 0), (7, 25)]
def waitWordW : BitVec 128 := word [(0x12, 0), (1, 39), (2, 44), (3, 54)]
theorem witness_WaitsBeginAndEnd_begin :
    (mayRun (prog waitBellW [(1, 9)]) x0 waitBellW ∧ (bellAt 9 (prog waitBellW [(1, 9)])).bell = 9 ∧ (9 : DWord).toNat < (bellAt 10 Pkg.reset).bell.toNat
      ∧ (bellAt 8 Pkg.reset).bell.toNat < (9 : DWord).toNat)
    ∧ (let p := winAt (.core c0) 7 { opened with state := .closed } (prog waitWinW)
       mayRun p x0 waitWinW ∧ bits waitWinW 28 25 < StoreId.windows (.core c0) ∧ (winOf p (.core c0) 7).owner = some x0 ∧ (winOf p (.core c0) 7).state = .closed)
    ∧ (winOf (winAt (.core c0) 7 opened (prog waitWinW)) (.core c0) 7).state ≠ .closed ∧ (winOf (prog waitWinW) (.core c0) 7).owner ≠ some x0 :=
  ⟨⟨mayRun_of_runnable _ _ _ (by decide), by decide⟩, ⟨mayRun_of_runnable _ _ _ (by decide), by decide⟩, by decide, by decide⟩
/-- The word waited for reads 0 and has to be equal to rB. -/
def waitP (v dl : DWord) (t : DWord) : Pkg := bellAt t (prog waitWordW [(1, 64), (2, v), (3, dl)])
theorem witness_WaitsBeginAndEnd_word :
    (mayRun (waitP 0 0 0) x0 waitWordW ∧ bits waitWordW 25 24 ≠ 3 ∧ storeCheck (waitP 0 0 0) x0 .core 64 8 = .ok 0x010000000040)
    ∧ wordTest (waitP 0 0 0) (.core c0) 64 (bits waitWordW 25 24) 0 = some Status.done
    ∧ wordTest (waitP 1 0 0) (.core c0) 64 (bits waitWordW 25 24) 1 = none
    ∧ ((waitP 1 9 8).bell.toNat < (9 : DWord).toNat ∧ (9 : DWord) ≠ 0 ∧ (9 : DWord).toNat ≤ (waitP 1 9 9).bell.toNat) :=
  ⟨⟨mayRun_of_runnable _ _ _ (by decide), by decide, eq_of_checksTo _ _ (by decide)⟩, by decide, by decide, by decide⟩
def waiting (u : WaitFor) (t : DWord) : Pkg :=
  { bellAt t (withCtx x0 (fun x => { x with state := .waiting, wait := some u }) Pkg.reset) with insts := [inst0 .waitUnit none] }
theorem witness_WaitsBeginAndEnd_end :
    (waitInst (waiting (.bell 9) 9) x0 = some (inst0 .waitUnit none) ∧ (ctxOf (waiting (.bell 9) 9) x0).state = .waiting
      ∧ (ctxOf (waiting (.bell 9) 9) x0).wait = some (.bell 9) ∧ (9 : DWord).toNat ≤ (waiting (.bell 9) 9).bell.toNat
      ∧ (waiting (.bell 9) 8).bell.toNat < (9 : DWord).toNat)
    ∧ (let u : WaitFor := .word (.core c0) 64 0 0 9
       (ctxOf (waiting u 9) x0).wait = some u ∧ rangeAsleep (waiting u 9) (.core c0) 64 8 = false ∧ wordTest (waiting u 9) (.core c0) 64 0 0 = some Status.done
       ∧ wordTest (waiting u 9) (.core c0) 64 0 1 = none ∧ (9 : DWord) ≠ 0 ∧ (9 : DWord).toNat ≤ (waiting u 9).bell.toNat) := by decide

/-- A handle of a core-store plane, and a dimension register. -/
def hd (eplane epitch : Nat) : DWord := BitVec.ofNat 64 (eplane + epitch * 2 ^ 46)
def dims (m k n : Nat) : DWord := BitVec.ofNat 64 (m * 2 ^ 48 + k * 2 ^ 23 + n)
def rABCD : List (Nat × Nat) := [(1, 39), (2, 44), (3, 49), (4, 54)]
def mmaW (op : Nat) : BitVec 128 := word ([(op, 0), (6, 24), (6, 28), (9, 32)] ++ rABCD)
def convW : BitVec 128 := word ([(0x30, 0), (6, 24), (6, 28), (9, 32), (1, 73)] ++ rABCD)
def mmaS : Map Nat DWord := [(1, hd 256 1), (2, hd 512 1), (3, hd 1024 1), (4, dims 1 1 1)]
def ewS : Map Nat DWord := [(1, hd 256 0), (2, hd 512 0), (3, hd 1024 0), (4, 1)]
def cmpW (op : Nat) : BitVec 128 := word ([(op, 0)] ++ rABCD)
/-- An engine instruction passes its format and range checks. -/
def engineReadyAt (w : BitVec 128) (s : Map Nat DWord) : Bool :=
  let r := issueInst (prog w s) x0 w
  match jobOf r.2 with
  | some j => plainSuffix w && j.ok && engineCheck r.1 x0 j.ins j.outs j.accs == Status.done
  | none => false
theorem witness_EngineAndFusedInstructionsIssue_plain :
    (mayRun (prog (mmaW 0x20) mmaS) x0 (mmaW 0x20) ∧ engineReadyAt (mmaW 0x20) mmaS = true ∧ bits (mmaW 0x20) 66 64 = 0)
    ∧ (mayRun (prog (mmaW 0x21) mmaS) x0 (mmaW 0x21)) ∧ (mayRun (prog convW mmaS) x0 convW ∧ engineReadyAt convW mmaS = true)
    ∧ (mayRun (prog (mmaW 0x40) ewS) x0 (mmaW 0x40) ∧ engineReadyAt (mmaW 0x40) ewS = true)
    ∧ (mayRun (prog (cmpW 0x50) mmaS) x0 (cmpW 0x50) ∧ engineReadyAt (cmpW 0x50) mmaS = true)
    ∧ (mayRun (prog (cmpW 0x51) ewS) x0 (cmpW 0x51) ∧ engineReadyAt (cmpW 0x51) ewS = true)
    ∧ jobOf (issueInst (prog (mmaW 0x40)) x0 (mmaW 0x40)).2 = none :=
  ⟨⟨mayRun_of_runnable _ _ _ (by decide), by decide, by decide⟩, mayRun_of_runnable _ _ _ (by decide),
   ⟨mayRun_of_runnable _ _ _ (by decide), by decide⟩, ⟨mayRun_of_runnable _ _ _ (by decide), by decide⟩,
   ⟨mayRun_of_runnable _ _ _ (by decide), by decide⟩, ⟨mayRun_of_runnable _ _ _ (by decide), by decide⟩, by decide⟩
/-- A group of one member on die 0, its block in the core store. -/
def fusedW (n : Nat) : BitVec 128 := word ([(0x20, 0), (6, 24), (6, 28), (9, 32), (n, 64), (5, 86)] ++ rABCD)
def fusedP (w : BitVec 128) : Pkg :=
  setBytes (prog w [(1, hd 256 1), (2, hd 512 1), (3, hd 1536 1), (4, dims 1 1 1), (5, hd 4096 0)]
      (setEntry (setEntry (on [.core c0, .well 0]) (.well 0) 0 0 0x80000000) (.well 0) 0 1 1000)) (StoreId.base (.core c0) + 4096 * 64)
    (List.replicate 16 0 ++ [hd 1024 1, hd 2048 0, hd 2560 0, hd 3072 1, hd 3584 0, 1].flatMap (fun v => leBytes 8 v.toNat))
def fusedG : Grp := ⟨0, 8000, [⟨1, 0, 0, 0, false, 0, 0⟩]⟩
def fusedChecks (w : BitVec 128) : Bool :=
  let p := fusedP w
  let r := issueInst p x0 w
  let b := (handleOf r.2.k).flat 64
  let q := (withBlock p x0 w).1
  let i := (withBlock p x0 w).2
  suffixOk r.2 && grpOf r.1 0 (bits w 85 78) == some fusedG && engineCheck r.1 x0 [b] [] [] == Status.done && !b.anyBad r.1 x0
  && (match mmOf i with
    | some x => (Job.mm x).ok && engineCheck q x0 ((Job.mm x).ins ++ (fusedRanges q i fusedG).1) ((Job.mm x).outs ++ (fusedRanges q i fusedG).2) (Job.mm x).accs == Status.done
    | none => false)
  && fusedHandlesOk i && fusedFormOk r.2 fusedG && enabled q (.well 0) && grpSound q 0 (bits w 85 78) && (rankOf q 0 fusedG c0).isSome
  && decide (q.bell.toNat ≤ leField i.blk 0 8 + fusedG.tally)
theorem fusedReady_of_checks (w : BitVec 128) (h : fusedChecks w = true) (h67 : bit w 67 = false) : ∃ x, fusedReady (fusedP w) x0 w fusedG x := by
  unfold fusedChecks at h
  simp only [Bool.and_eq_true, beq_iff_eq, Bool.not_eq_true', decide_eq_true_eq] at h
  obtain ⟨⟨⟨⟨⟨⟨⟨⟨⟨⟨h1, h2⟩, h3⟩, h4⟩, h5⟩, h6⟩, h6b⟩, h7⟩, h8⟩, h9⟩, h10⟩ := h
  split at h5
  · rename_i x hx
    simp only [Bool.and_eq_true, beq_iff_eq] at h5
    exact ⟨x, h1, h2, h3, h4, hx, h5.1, h6, h6b, h7, h8, h9, fun _ => by decide, fun h => absurd h (by rw [h67]; decide), h10, h5.2⟩
  · cases h5
theorem witness_EngineAndFusedInstructionsIssue_fused (n : Fin 5) :
    mayRun (fusedP (fusedW (n + 1))) x0 (fusedW (n + 1)) ∧ (∃ x, fusedReady (fusedP (fusedW (n + 1))) x0 (fusedW (n + 1)) fusedG x)
    ∧ instAt (fusedP (fusedW (n + 1))) 0 0 0 = none ∧ ((wellOf (fusedP (fusedW (n + 1))) 0).insts.filter (fun y => y.group == 0)).length < 2 := by
  have h : ∀ n : Fin 5, runnable (fusedP (fusedW (n + 1))) x0 (fusedW (n + 1)) = true ∧ fusedChecks (fusedW (n + 1)) = true
      ∧ bit (fusedW (n + 1)) 67 = false ∧ instAt (fusedP (fusedW (n + 1))) 0 0 0 = none
      ∧ ((wellOf (fusedP (fusedW (n + 1))) 0).insts.filter (fun y => y.group == 0)).length < 2 := by decide
  obtain ⟨h1, h2, h3, h4, h5⟩ := h n
  exact ⟨mayRun_of_runnable _ _ _ h1, fusedReady_of_checks _ h2 h3, h4, h5⟩

/-! ## The engine at work -/

def issuedP : Pkg := after (.mma x0) (prog (mmaW 0x20) mmaS)
def mmaInst : Inst := (issueInst (prog (mmaW 0x20) mmaS) x0 (mmaW 0x20)).2
/-- The engine of core 0.0.0 in a run of the one instruction. -/
def noTile : HeldTile := ⟨0, 0, [], true, false⟩
def runP (r : EngineRun) (pause : Option (Nat × Nat)) : Pkg :=
  { prog (mmaW 0x20) mmaS with insts := [mmaInst], engines := [(c0, { engineOf Pkg.reset c0 with run := some r, pause := pause })] }
theorem witness_TheEngineRunsItsInstructions_start :
    (engineOf issuedP c0).run = none ∧ (engineOf issuedP c0).pause = none
    ∧ (engineNext issuedP c0).any (fun i => (jobOf i).isSome && collOf i.word == 0) = true
    ∧ (engineOf (runP ⟨mmaInst.id, 0, 0, 0, none, noTile, false⟩ none) c0).run ≠ none := by decide
theorem witness_TheEngineRunsItsInstructions_run :
    let r : EngineRun := ⟨mmaInst.id, 0, 0, 0, none, noTile, false⟩
    (engineOf (runP r none) c0).run = some r ∧ runInst (runP r none) r = some mmaInst
    ∧ (jobOf mmaInst).any (fun j => j.passes == 1 && j.rows == 1 && j.watched) = true ∧ collOf mmaInst.word = 0
    ∧ contribOf (runP ⟨mmaInst.id, 1, 0, 0, none, noTile, false⟩ none) mmaInst = none ∧ Status.cls (0 : Status) = 0 := by decide
theorem witness_TheEngineRunsItsInstructions_times :
    (let p := tickAt 100 (runP ⟨mmaInst.id, 0, 0, 0, none, noTile, false⟩ (some (0, 12)))
     (engineOf p c0).pause = some (0, 12) ∧ cyclesPast p 0 12 = true ∧ cyclesPast (tickAt 9 p) 0 12 = false)
    ∧ (let p := tickAt 1000000 Pkg.reset
       (engineOf p c0).run = none ∧ bits (getReg p (.core c0) 0x408) 11 8 ≠ 0
       ∧ cyclesPast p (engineOf p c0).idleAt (16 * bits (getReg p (.core c0) 0x408) 11 8) = true)
    ∧ (let p := tickAt 100000 (put_ .enabling [.core c0] Pkg.reset)
       stateOf p (.core c0) = .enabling ∧ cyclesPast p (block p (.core c0)).since (bistCycles p c0) = true ∧ p.rg.undo.contains (.core c0) = false) := by decide

/-! ## The vector unit -/

/-- A vector word of lane format FP32 with one row. -/
def vW (op : Nat) (l : List (Nat × Nat)) : BitVec 128 := word ([(op, 0), (9, 24), (1, 64)] ++ l)
def vS : Map Nat DWord := [(1, hd 256 0), (2, hd 512 0), (3, hd 1024 0), (4, hd 1536 0)]
/-- A vector word: operand registers by the operands its opcode uses, from registers when reg is set. -/
def vecW (op : Nat) (reg : Bool) : BitVec 128 :=
  vW op ([(1, 39), (3, 49)] ++ (if op < 0x66 then [(2, 44)] else []) ++ (if op == 0x63 then [(4, 59)] else [])
    ++ [((if reg then 1 else 0) + (if op == 0x6E then 0 else if op == 0x63 then 14 else if op < 0x66 then 6 else 2), 32)]
    ++ (if op == 0x6D then [(8, 28)] else []))
/-- The form and the ranges of a vector instruction pass, nothing is poisoned, and a store range as destination meets no source. -/
def vecReady (op : Nat) (reg : Bool) : Bool :=
  let w := vecW op reg
  let p := prog w vS
  let i := (issueInst p x0 w).2
  let ins := (vecSources i).flatMap VOperand.rng
  let dst := operandOf i 0 (slotC w) i.c
  runnable p x0 w && (laneFmt (bits w 27 24)).isSome && vecFormOk i 0 && operandPlain i 0 i.c
  && rangeCheck (issueInst p x0 w).1 x0 ins dst.rng false == Status.done && !ins.any (Rng.anyBad p x0)
  && (match dst with | .reg _ => reg | .mem r => !reg && ins.all (fun a => !Rng.meets p x0 a r))
theorem witness_ElementwiseVectorInstructions (n : Fin 9) (reg : Bool) : vecReady (0x60 + n) reg = true := by revert n reg; decide
theorem witness_ElementwiseVectorInstructions_refused :
    Memory.wf (prog (vecW 0x60 true) vS).mem = true ∧ laneFmt (bits (word [(0x66, 0), (1, 64), (3, 32)]) 27 24) = none
    ∧ runnable (prog (word [(0x66, 0), (1, 64), (3, 32)])) x0 (word [(0x66, 0), (1, 64), (3, 32)]) = true
    ∧ (let p := { prog (vecW 0x66 true) [(1, hd 256 0)] with ctxs := [] }
       rangeCheck p x0 [(handleOf (hd 0x3FFFFFFF 0)).flat 512] [] false ≠ Status.done) := by decide
/-- The same for a reduction, its results at consecutive elements of the destination. -/
def reduceReady (op : Nat) (reg : Bool) : Bool :=
  let w := vecW op reg
  let p := prog w vS
  let i := (issueInst p x0 w).2
  let src := operandOf i 1 (slotA w) i.a
  let o := (handleOf i.c).flat (repOf i * 4)
  runnable p x0 w && vecFormOk i (512 / 4) && operandPlain i 0 i.c && !src.rng.any (Rng.anyBad p x0) && repOf i == 1
  && rangeCheck (issueInst p x0 w).1 x0 src.rng (if reg then [] else [o]) false == Status.done && src.rng.all (fun a => !Rng.meets p x0 a o)
theorem witness_ReductionsConversionsAndMoves_reduce (n : Fin 4) (reg : Bool) : reduceReady (0x69 + n) reg = true := by revert n reg; decide
theorem witness_ReductionsConversionsAndMoves_convert (reg : Bool) :
    vecReady 0x6D reg = true ∧ vecReady 0x6E reg = true
    ∧ (opFmt (bits (vecW 0x6D reg) 31 28)).any (fun d => !d.isMx && decide (rowBytes d 128 ≤ 512)) = true := by revert reg; decide
def movW : BitVec 128 := word [(0x80, 0), (1, 39), (3, 49), (4, 54)]
def fillW : BitVec 128 := word [(0x81, 0), (2, 44), (3, 49), (4, 54)]
def movS : Map Nat DWord := [(1, hd 256 1), (2, 5), (3, hd 512 1), (4, dims 1 0 64)]
theorem witness_ReductionsConversionsAndMoves_moves :
    (runnable (prog movW movS) x0 movW = true ∧ movFormOk (handleOf (hd 256 1)) (dims 1 0 64) = true ∧ movFormOk (handleOf (hd 512 1)) (dims 1 0 64) = true
      ∧ rangeCheck (issueInst (prog movW movS) x0 movW).1 x0 [movRng (handleOf (hd 256 1)) (dims 1 0 64)] [movRng (handleOf (hd 512 1)) (dims 1 0 64)] true = Status.done)
    ∧ (runnable (prog fillW movS) x0 fillW = true
      ∧ rangeCheck (issueInst (prog fillW movS) x0 fillW).1 x0 [] [movRng (handleOf (hd 512 1)) (dims 1 0 64)] false = Status.done) := by decide

/-! ## Commons instructions, bobbins, mills and stacks -/

/-- Core 0.0.0 with the commons pair open on its first megabyte, chip 7 in the domain, the router and the commons unit ENABLED. -/
def cmPkg : Pkg :=
  setEntry (paired (.core c0) 0x138 0 (paired (.core c0) 0x140 1 (on [.core c0, .memc 0, .cmn 0, .drt 0]))) (.cmn 0) 0 0 0x80000007
def cS (chip : DWord) : Map Nat DWord := [(1, chip), (2, 64), (3, hd 256 0)]
def cldW : BitVec 128 := word [(0xB0, 0), (1, 39), (2, 44), (3, 59), (0xFFF, 64), (64, 76)]
def cstW : BitVec 128 := word [(0xB1, 0), (1, 39), (2, 44), (3, 59), (0xFFF, 64), (64, 76)]
def catomW : BitVec 128 := word [(0xB2, 0), (1, 28), (1, 39), (2, 44), (3, 59), (0xFFF, 64)]
/-- A request can be admitted on flow 0xFFF. -/
def admits (p : Pkg) (n : Nat) : Bool := match admitCheck p 0 0xFFF none n with | .ok _ => true | _ => false
theorem witness_CommonsInstructionsAndBudget_own :
    (let p := prog cldW (cS 0) cmPkg
     runnable p x0 cldW = true ∧ pairAddr p x0 .commons 64 64 = some 64 ∧ checksTo (storeCheck p x0 .core (256 * 64) 64) (StoreId.base (.core c0) + 256 * 64) = true
     ∧ (0 : Chip) = ownChip p ∧ dramReach p 64 64 = Status.done ∧ localPoisoned p 64 64 = false ∧ Memory.wf p.mem = true)
    ∧ (let p := prog cstW (cS 0) cmPkg
       runnable p x0 cstW = true ∧ dramWrite p 64 64 = Status.done ∧ localPoisoned p (StoreId.base (.core c0) + 256 * 64) 64 = false)
    ∧ (let p := prog catomW (cS 0) cmPkg
       runnable p x0 catomW = true ∧ bits catomW 27 24 ≤ 9 ∧ pairAddr p x0 .commons 64 8 = some 64 ∧ dramWrite p 64 8 = Status.done) := by decide
theorem witness_CommonsInstructionsAndBudget_sent :
    (let p := prog cldW (cS 7) cmPkg
     runnable p x0 cldW = true ∧ p.quarantined = false ∧ enabled p (cmnDie 0) = true ∧ fenced p 7 = false ∧ (7 : Chip) ≠ ownChip p
     ∧ inDomain p (cmnDie 0) 7 = true ∧ enabled p (.drt 0) = true ∧ admits p 8 = true ∧ p.creqs = [])
    ∧ (let p := prog cstW (cS 7) cmPkg
       runnable p x0 cstW = true ∧ admits p 64 = true ∧ bit cstW 24 = false
       ∧ fenced { p with fences := [⟨7, 2, false⟩] } 7 = true)
    ∧ (let p := prog catomW (cS 7) cmPkg
       runnable p x0 catomW = true ∧ admits p 32 = true ∧ windowRoom (atomWinOf p 0 7) = true)
    ∧ { prog cldW (cS 7) cmPkg with quarantined := true }.quarantined = true := by decide
def budgetReq : CReq := ⟨9, 0, 9, x0, 4, .budget, 7, 64, 64, 0xFFF, none, false, 0, 0, false, false, 0, 0, 0, none, 0, 0, 0, 0, 0, 0⟩
/-- A late report's payload that names item 5, with its complement. -/
def latePayload : List Byte := withCompl (leBytes 2 0x1000 ++ List.replicate 10 0 ++ leBytes 4 5 ++ List.replicate 16 0)
def lateFrame (b : List Byte) : Delivered := ⟨0, { controlFrame Pkg.reset 3 0 0 b with off := 3 }, none, 0, none⟩
theorem witness_CommonsInstructionsAndBudget_budget :
    (let p := { cmPkg with creqs := [budgetReq] }
     p.creqs = [budgetReq] ∧ budgetReq.stage = .budget ∧ budgetReq.copies = 0 ∧ p.bobs = [] ∧ admits p budgetReq.payloadLen = true ∧ enabled p (.drt 0) = true)
    ∧ (let p := { cmPkg with inbox := [lateFrame latePayload], creqs := [{ budgetReq with seq := 5, stage := .sent, copies := 1 }] }
       (p.inbox.find? (fun x => x.frame.kind == 3 && x.frame.off == 3)) = some (lateFrame latePayload) ∧ complOk 32 latePayload = true
       ∧ (lateStatus (leField latePayload 0 2 / 4096)).isSome = true ∧ (pendingTwin p (BitVec.ofNat 32 (leField latePayload 12 4))).isNone = true
       ∧ (reqBySeq p (BitVec.ofNat 32 (leField latePayload 12 4))).any (fun r => r.kind == 4) = true ∧ complOk 32 (latePayload.take 63) = false) := by decide

def b0 : BobId := .cluster 0 0 0
/-- A move of one line within the core store, as a descriptor's bytes; for a posting both spaces are local offsets. -/
def descBytes (space src dst : Nat) : List Byte :=
  leBytes 1 1 ++ leBytes 1 (space + 8 * space) ++ leBytes 2 0xFFF ++ leBytes 4 64 ++ leBytes 8 src ++ leBytes 8 dst ++ leBytes 2 1 ++ leBytes 2 1
    ++ leBytes 2 1 ++ List.replicate 34 0
def putW : BitVec 128 := word [(0xA0, 0), (1, 39)]
def putP : Pkg :=
  setBytes (prog putW [(1, hd 256 0)] (paired (.bob b0) 0x088 0xFFFF (on [.core c0, .bob b0]))) (StoreId.base (.core c0) + 256 * 64) (descBytes 0 512 1024)
def yes (o : Offer) : Bool := match o with | .yes d => d.source == .posting | _ => false
def descAt (op : Nat) (active : Bool) (fs : List MoveFrame) (gone : Bool) : Desc :=
  ⟨0, .posting, op, false, false, 0xFFF, none, 64, none, StoreId.base (.core c0), none, StoreId.base (.core c0) + 64, if op = 3 then some 5 else none, 1, 1, 1, 0, 0, 0, 0,
    7, 3, active, if gone then [] else [(0, 0, 64)], fs, Status.done, false, false, 0, none, 0, [], 0, none⟩
def withDesc (b : BobId) (d : Desc) (p : Pkg) : Pkg := setBob p b { bobOf p b with descs := [d], reserved := 1 }
theorem witness_BobbinsQueueMoveAndEnd_put :
    runnable putP x0 putW = true ∧ (∀ i, i ∈ putP.insts → i.id < putP.nextId) ∧ bits putW 68 64 = 0
    ∧ (handleOf (hd 256 0)).plain = true ∧ (handleOf (hd 256 0)).cluster = false
    ∧ checksTo (storeCheck putP x0 .core (256 * 64) 64) (StoreId.base (.core c0) + 256 * 64) = true
    ∧ yes (offer putP b0 (some x0) 0 (readLocal putP (StoreId.base (.core c0) + 256 * 64) 64)) = true := by decide
theorem witness_BobbinsQueueMoveAndEnd_post :
    (let p := paired (.bob b0) 0x088 0xFFFF (on [.core c0, .bob b0])
     letThrough true p r0 (.bob b0) 0x240 ∧ yes (offer p b0 none 0 (descBytes 4 (StoreId.base (.core c0)) (StoreId.base (.core c0) + 64))) = true)
    ∧ (match offer Pkg.reset b0 none 0 (descBytes 4 0 64) with | .no st => st == Status.refusedOffline | _ => false) = true := by decide
theorem witness_BobbinsQueueMoveAndEnd_run :
    nextQueue (bobOf Pkg.reset b0) = none
    ∧ (let p := withDesc (.gateway 0) (descAt 3 false [] false) (on [.core c0, .bob (.gateway 0)])
       (bobOf p (.gateway 0)).descs = [descAt 3 false [] false] ∧ (descAt 3 false [] false).slot = some 5
       ∧ (checkAccess p (.bobbin (.gateway 0)) (StoreId.base (.core c0) + 64) 64).2 = Status.done ∧ writeBarred p (StoreId.base (.core c0) + 64) 64 = false)
    ∧ (let p := bellAt 99 (withDesc b0 (descAt 1 true [⟨5, false, false, 0, 64, 0, 9, none⟩] false) (on [.bob b0]))
       (frameHolder p 5).any (fun h => h.1 == b0 && !h.2.2.read && decide (h.2.2.deadline.toNat ≤ p.bell.toNat)) = true ∧ (frameHolder p 6).isNone = true)
    ∧ (let p := withDesc b0 (descAt 1 true [] true) (on [.bob b0])
       (((bobOf p b0).queueDescs 0).find? (fun x => x.isOver)).any (fun d => d.source == .posting) = true ∧ p.insts = [])
    ∧ stateOf (on [.bob (.gateway 2)]) (.bob (.gateway 2)) ≠ .off := by decide
theorem witness_BobbinsQueueMoveAndEnd_done :
    let p := setLatch (setBob (on [.bob b0]) b0 { bobOf Pkg.reset b0 with popHeld := true, fifo := [(0, 0, 7)] }) r0 (.bob b0) ⟨0x0A0, 7⟩
    letThrough false p r0 (.bob b0) 0x0A4 ∧ (bobOf p b0).popHeld = true ∧ Map.look p.rg.latches (r0, .bob b0) = some ⟨0x0A0, 7⟩ := by decide

def m0 : MillId := ⟨0, 0⟩
/-- A command block of a self-test, and a command with it. -/
def testBlk : List Byte := withCompl (leBytes 1 2 ++ List.replicate 31 0)
def attendBlk : List Byte := withCompl (leBytes 1 1 ++ List.replicate 31 0)
def millCmd (b : List Byte) : MillCmd := ⟨4, x0, b, [], 1, 0, 1, 0, StoreId.base (.core c0) + 512⟩
def millRun (b : List Byte) (st : Option Status) : MillRun := ⟨millCmd b, 0, 10, 0, 1, 0, [], st, 0, []⟩
def withMill (f : Mill → Mill) (p : Pkg) : Pkg := setMill p m0 (f (millOf p m0))
def millW : BitVec 128 := word [(0x90, 0), (1, 39), (3, 49), (1, 64), (1, 76)]
def millP : Pkg := setBytes (prog millW [(1, hd 256 0), (3, hd 512 0)]) (StoreId.base (.core c0) + 256 * 64) testBlk
theorem witness_MillsAttendAndTest_mill :
    let q0 := (issueInst millP x0 millW).1
    let ha := handleOf (hd 256 0)
    let b := (ha.flat 64).read millP x0 0
    let rows : Rng := ⟨ha.pair, ha.eplane * 64 + 64, 0, 128 * blkRows b, 128 * blkRows b⟩
    runnable millP x0 millW = true ∧ selectedMills millW ≠ [] ∧ rangeCheck q0 x0 [ha.flat 64] [] false = Status.done ∧ (ha.flat 64).bad millP x0 0 = false
    ∧ b = testBlk ∧ blkOk b = true ∧ blkCmd b = 2
    ∧ rangeCheck q0 x0 [ha.flat 64, rows] [(handleOf (hd 512 0)).flat (recordRows b * (selectedMills millW).length * recordBytes b)] true = Status.done
    ∧ rows.anyBad millP x0 = false ∧ blkOk (List.replicate 64 0) = false := by decide
theorem witness_MillsAttendAndTest_run :
    (let p := withMill (fun x => { x with path := [millCmd testBlk] }) (on [.mill m0, .memc 0])
     (millOf p m0).path.find? (fun c => c.ctx.core == c0) = some (millCmd testBlk) ∧ enabled p (.mill m0) = true ∧ enabled p (.memc m0.stack) = true ∧ (millOf p m0).queue.length < 32)
    ∧ enabled Pkg.reset (.mill m0) = false
    ∧ (let p := withMill (fun x => { x with queue := [millCmd testBlk] }) (on [.mill m0, .memc 0])
       (millOf p m0).run = none ∧ (millOf p m0).queue = millCmd testBlk :: [] ∧ blkCmd testBlk = 2)
    ∧ (let p := withMill (fun x => { x with queue := [millCmd attendBlk] }) (on [.mill m0, .memc 0])
       blkCmd (millCmd attendBlk).blk = 1 ∧ enabled p (.memc 0) = true ∧ inRelief p 0 (blkList attendBlk) = false ∧ poisoned p (blkList attendBlk) = false)
    ∧ (let p := tickAt 20 (withMill (fun x => { x with run := some (millRun testBlk (some Status.done)) }) (on [.mill m0]))
       (millOf p m0).run = some (millRun testBlk (some Status.done)) ∧ Memory.wf p.mem = true ∧ (millRun testBlk none).readyAt ≤ p.count ∧ Status.cls Status.done = 0)
    ∧ (let p := tickAt 100000 (setReg Pkg.reset (.mill m0) 0x088 0x100)
       (millOf p m0).run = none ∧ bits (getReg p (.mill m0) 0x088) 11 8 ≠ 0 ∧ (millOf p m0).idleAt + 16 * 1 ≤ p.count) := by decide
/-- An entry of a page list with one row's page, in the DRAM of stack 0. -/
theorem witness_MillsAttendAndTest_page :
    let p := tickAt 20 (setBytes (withMill (fun x => { x with run := some (millRun attendBlk none) }) (on [.mill m0, .memc 0])) 64 [1, 0, 0, 4])
    let r := millRun attendBlk none
    let es := blkList attendBlk + 64 + 8 * r.cur
    let e := ((listLine p 0 r es).1.drop (es % 64)).take 8
    (millOf p m0).run = some r ∧ blkCmd attendBlk = 1 ∧ r.cur < r.stop ∧ r.readyAt ≤ p.count ∧ (stackOf p 0).copy = none ∧ leField e 3 1 = 4
    ∧ (millLines p 0 [] (entryLines true es (leField e 0 3))).2 = Status.done := by decide

theorem witness_MapCommitAndLineRequests :
    (stateOf Pkg.reset (.memc 0) ≠ .off ∧ bits (64 : Word) 6 0 ≤ 64 ∧ (∀ n, stateOf Pkg.reset (.memc n) ≠ .enabled ∧ stateOf Pkg.reset (.memc n) ≠ .draining)
      ∧ stateOf (on [.memc 3]) (.memc 3) = .enabled)
    ∧ (let p := on [.memc 0]
       pairOk p (.memc 0) 0x090 = true ∧ enabled p (.memc 0) = true ∧ inRelief p 0 64 = false ∧ poisoned p 64 = false ∧ unrelieved p 0 64 = false
       ∧ Memory.wf p.mem = true ∧ poisoned { p with poison := [1] } 64 = true)
    ∧ enabled Pkg.reset (.memc 0) = false := by decide
def copy0 (k : Nat) : RepairCopy := ⟨0, 0, 3, k, 2, 0⟩
def withStack (f : Stack → Stack) (p : Pkg) : Pkg := setStack p 0 (f (stackOf p 0))
theorem witness_StacksRepairRefreshAndCool :
    (∀ k : Fin 3, let p := withStack (fun x => { x with copy := some (copy0 (k + 1)) }) (on [.memc 0])
      (stackOf p 0).copy = some (copy0 (k + 1)) ∧ (stackOf p 0).waiting = [] ∧ (stackOf p 0).log.length < 32)
    ∧ (let p := tickAt 1000000 (paired (.memc 0) 0x088 0x00010000 (on [.memc 0]))
       bits (getReg p (.memc 0) 0x088) 23 16 * 256 ≠ 0 ∧ enabled p (.memc 0) = true ∧ (stackOf p 0).patrolAt + 256 ≤ p.count
       ∧ (stackOf p 0).refreshAt + refreshTicks p 0 ≤ p.count ∧ (stackOf p 0).sampleAt + 10000 ≤ p.count)
    ∧ (Pkg.reset.count < (withStack (fun x => { x with sampleAt := 5 }) Pkg.reset |> fun p => (stackOf p 0).sampleAt) + 10000)
    ∧ (letThrough false (on [.memc 0]) r0 (.memc 0) 0x0AC ∧ Map.look (countDebug (on [.memc 0]) r0).rg.latches (r0, .memc 0) = none)
    ∧ (let p := put_ .disabled [.memc 0] Pkg.reset
       stateOf p (.memc 0) = .disabled ∧ (0xFFFFFFFF : Word) = ~~~getReg p (.memc 0) 0x204 ∧ bits (getReg p (.memc 0) 0x200) 30 29 = 0
       ∧ bits (getReg p (.memc 0) 0x200) 10 0 < 1024 ∧ (0 : Word) ≠ ~~~getReg p (.memc 0) 0x204) := by decide
theorem witness_StacksRepairRefreshAndCool_duty :
    ∃ p : Pkg, compatMode p 0 = true ∧ 85 < (stackOf p 0).temp ∧ (stackOf p 0).compatAt + 100000 ≤ p.count :=
  ⟨tickAt 1000000 (withStack (fun x => { x with temp := 90 }) (paired (.memc 0) 0x088 0x01000000 (on [.memc 0]))), by decide⟩

/-! ## Selvage engines and links -/

def ring0 : Fin 64 := 0
def se0 : Fin 16 := 0
/-- Ring 0 of an ENABLED engine 0 with changes. -/
def withRing (r : Fin 64) (f : Ring → Ring) (p : Pkg := on [.sel 0, .lnk 0]) : Pkg := setRing p se0 r (f (ringOf p se0 r))
theorem witness_SelvageRingsLockAndRecalibrate_commands :
    (let p := withRing ring0 (fun x => { x with state := .locked })
     stateOf p (.sel 0) ≠ .off ∧ selOn p se0 = true ∧ (ringOf p se0 ring0).state = .locked ∧ (selOf p se0).pass = false
     ∧ ringRx ring0 = false ∧ (5 : Fin 16).val ≠ ringLane ring0)
    ∧ selOn Pkg.reset se0 = false
    ∧ (selOn (tickAt 600000000001 (on [.sel 0])) se0 = true ∧ (selOf (tickAt 600000000001 (on [.sel 0])) se0).passAt + 600000000000 ≤ 600000000001)
    ∧ (let p := tickAt 200000 (withRing (ringNo 0 true 2) (fun x => { x with state := .locked }))
       selOn p (seOfPort 0) = true ∧ ringNo (portHalf 0) true 2 = ringNo 0 true 2 ∧ (ringOf p se0 (ringNo 0 true 2)).state = .locked
       ∧ (ringOf p se0 (ringNo 0 true 2)).markAt + 100000 ≤ p.count ∧ bits (0xD24B : DWord) 7 0 = 0x4B ∧ bits (0xD24B : DWord) 11 8 + bits (0xD24B : DWord) 15 12 = 15) := by decide
theorem witness_SelvageRingsLockAndRecalibrate_times :
    (let p := tickAt 30000000 (withRing ring0 (fun x => { x with state := .locked, satAt := some 0, driftAt := some 0, cal := some (true, 0) }))
     (ringOf p se0 ring0).satAt = some 0 ∧ 0 + 10000 ≤ p.count ∧ 0 + 1000000 ≤ p.count ∧ (ringOf p se0 ring0).loopAt + integTicks p se0 ≤ p.count
     ∧ 0 + 10000000 ≤ p.count ∧ (ringOf p se0 ring0).queued = false)
    ∧ (let p := tickAt 100 (withRing ring0 (fun x => { x with state := .sweep, cal := some (false, 0) }))
       (ringOf p se0 ring0).state = .sweep ∧ p.count ≤ (ringOf p se0 ring0).sweepAt + 200000 ∧ p.count ≤ 0 + 200000)
    ∧ (let p := tickAt 2000000 (withRing ring0 (fun x => { x with state := .hold, failedAt := some 0 }))
       (ringOf p se0 ring0).failedAt = some 0 ∧ (ringOf p se0 ring0).state = .hold ∧ 0 + 1000000 ≤ p.count ∧ selOn p se0 = true
       ∧ (selOf p se0).ffAt + 10000 ≤ p.count) := by decide
theorem witness_SelvageLaserLightAndTables :
    (let p := on [.sel 0]
     stateOf p (.sel 0) ≠ .off ∧ selOn p se0 = true ∧ (selOf p se0).laserFault = false)
    ∧ (selOf (setSel Pkg.reset se0 { selOf Pkg.reset se0 with laserFault := true }) se0).laserFault = true
    ∧ (∀ o : Fin 3, let p := tickAt 20000000 (withPort 0 (fun x => { x with optic := [Optic.dark, .waking, .lit][o] }) (setReg (on [.sel 0, .lnk 0]) (.sel 0) 0x088 0x5001))
       (portOfPkg p 0).optic = [Optic.dark, .waking, .lit][o] ∧ selOn p (seOfPort 0) = true ∧ bit (selCfg p se0) 0 = true ∧ (selPort p 0).rxLight = false
       ∧ (selPort p 0).wakingAt + 10000000 ≤ p.count ∧ (selPort p 0).burstAt = none)
    ∧ (let p := put_ .disabled [.sel 0] Pkg.reset
       stateOf p (.sel 0) = .disabled ∧ bits (0xFFF0000F : Word) 15 0 + bits (0xFFF0000F : Word) 31 16 = 0xFFFF ∧ bits (getReg p (.sel 0) 0x200) 30 29 = 0) := by decide
/-- Port 0 in a link state. -/
def linkIn (l : LinkState) (f : Port → Port := id) : Pkg := withPort 0 (fun x => f { x with lstate := l, version := 2 }) (on [.sel 0, .lnk 0, .prk 0, .drt 0])
theorem witness_LinkTrainingAndLimits_states :
    (let p := tickAt 300000 (linkIn .align (fun x => { x with rxRing := 0xFFFF, txRing := 0x7FFF }))
     let x := portOfPkg p 0
     x.lstate = .align ∧ 15 ≤ popcount 16 x.rxRing.toNat ∧ 15 ≤ popcount 16 x.txRing.toNat ∧ x.stateAt + 50000 ≤ p.count ∧ x.retry = [] ∧ x.queue = [])
    ∧ (let p := tickAt 300000 (linkIn .negotiate)
       (portOfPkg p 0).lstate = .negotiate ∧ (portOfPkg p 0).stateAt + 200000 ≤ p.count ∧ (portOfPkg p 0).noVersion = false)
    ∧ (let p := tickAt 300000000 (linkIn .retrain (fun x => { x with retrainAt := some 0 }))
       (portOfPkg p 0).retrainAt = some 0 ∧ 0 + retrainLimit p 0 ≤ p.count)
    ∧ (let p := tickAt 300000000 (linkIn .up (fun x => { x with retry := [⟨0, controlFrame Pkg.reset 4 7 0 []⟩] }))
       stateOf p (.lnk 0) ≠ .off ∧ (portOfPkg p 0).lstate = .up ∧ (portOfPkg p 0).retry ≠ [] ∧ (portOfPkg p 0).ackAt + stallLimit p 0 ≤ p.count) := by decide
theorem witness_LinkTrainingAndLimits_frames :
    (let b := trainingPayload 3 2 3 1 true 7 0xFFFF 0x010A0010 [1, 1, 1, 1] 0
     let x := portOfPkg (linkIn .negotiate (fun x => { x with sentStep := 3 })) 0
     complOk 32 b = true ∧ commonVersion (ownVersions (linkIn .negotiate) 0) (leField b 0 1) ≠ 0 ∧ leField b 2 1 % 4 = 3 ∧ x.sentStep = 3
     ∧ (portOfPkg (linkIn .negotiate (fun x => { x with gotStep := 3 })) 0).gotStep = 3
     ∧ (portOfPkg (linkIn .negotiate (fun x => { x with gotStep := 3 })) 0).peerChanged = false
     ∧ commonVersion (ownVersions (linkIn .negotiate) 0) 0 = 0 ∧ complOk 32 (b.take 63) = false)
    ∧ (let x := portOfPkg (linkIn .up) 0
       x.version = 2 ∧ complOk 32 (auditPayload [0, 0, 0, 0] [0, 0, 0, 0]) = true ∧ auditOk x (auditPayload [0, 0, 0, 0] [0, 0, 0, 0]) = true
       ∧ auditOk x (auditPayload [5, 0, 0, 0] [0, 0, 0, 0]) = false) := by decide
/-- A control frame to chip 7, queued. -/
def f7 : Frame := controlFrame Pkg.reset 4 7 0 []
theorem witness_LinkWordsRetryAndFrames :
    (let b := linkWordBytes 1 false false 0xFFFF [0, 0, 0, 0]
     complOk 16 b = true ∧ (leField b 2 1).testBit 1 = false ∧ (leField (linkWordBytes 1 false true 0 [0, 0, 0, 0]) 2 1).testBit 1 = true
     ∧ (portOfPkg (linkIn .up) 0).lstate = .up ∧ (portOfPkg (linkIn .up (fun x => { x with restart := true })) 0).restart = true)
    ∧ (let p := withRing (ringNo 0 true 2) (fun x => { x with state := .locked }) (linkIn .up)
       (ringOf p (seOfPort 0) (ringNo (portHalf 0) true 2)).state = .locked ∧ (portOfPkg p 0).lstate ≠ .down ∧ 38 * 1024 < 40000)
    ∧ (let p := linkIn .up (fun x => { x with txRing := 0xFFFF, peerRx := 0xFFFD, txMap := 0xFFFF })
       firstDiff (portOfPkg p 0).txMap ((portOfPkg p 0).txRing &&& (portOfPkg p 0).peerRx) = some 1 ∧ bit (0xFFFD : Half) 1 = false)
    ∧ (let p := linkIn .up (fun x => { x with queue := [⟨f7, none⟩], txMap := 0xFFFF, credits := { x.credits with held := [9, 9, 9, 9] } })
       (((portOfPkg p 0).queue.map Queued.frame).find? (fun f => sendsUnreserved p 0 f && hasUnits (portOfPkg p 0) f && roomInRetry (portOfPkg p 0) f
         && decide (wireSize f ≤ roomFor p 0 f false))).isSome = true ∧ (portOfPkg p 0).restart = false) := by decide
theorem witness_LinkWordsRetryAndFrames_receive :
    let b := frameBytes 2 0 { f7 with dst := 0, src := 7 }
    wireCheck1 2 b = true ∧ wireCheck2 b = true ∧ 2 < wireKind b ∧ leField b (wireTrailer b) 2 = 0 ∧ wireCheck1 2 (b.take 20) = false := by decide +kernel

/-! ## Routers, the commons and fences -/

/-- Die 0 with chip 7 in its table by port 0, which is UP. -/
def routed : Pkg := setEntry (paired (.drt 0) 0x0A0 1 (linkIn .up (fun x => { x with txMap := 0xFFFF }))) (.drt 0) 0 7 0x8003FFC0
def withInq (r : RouterIn) (p : Pkg) : Pkg := setRouter p 0 { router p 0 with inq := [r] }
theorem witness_RoutersCommitRouteAndIdentify_commits :
    (stateOf Pkg.reset (.drt 0) ≠ .off ∧ (∀ d, stateOf Pkg.reset (.drt d) = .disabled) ∧ stateOf (on [.drt 1]) (.drt 1) ≠ .disabled)
    ∧ (0xFFFFFFFF : Word) = ~~~getReg Pkg.reset (.drt 0) 0x144 ∧ (router Pkg.reset 0).inq = [] := by decide
theorem witness_RoutersCommitRouteAndIdentify_route :
    (let p := withInq ⟨f7, none⟩ (setReg (setReg routed (.drt 0) 0x090 0x10004) (.drt 0) 0x094 (~~~0x10004#32))
     (router p 0).inq = ⟨f7, none⟩ :: [] ∧ lookupOk p 0 f7 = true ∧ chipAssigned p = true ∧ fenced p f7.src = false ∧ fenced p f7.dst = false
     ∧ f7.dst ≠ ownChip p ∧ inSlice p 0 f7.dst = true ∧ (choosePort p (rtEntry p 0 f7.dst) f7.cls).1 = 0 ∧ usable p 0 f7.cls = true)
    ∧ (let p := withInq ⟨{ f7 with src := 7 }, some 0⟩ { routed with fences := [⟨7, 1, false⟩] }
       fenced p 7 = true ∧ passHolds p 7 { f7 with src := 7 } = false ∧ lookupOk p 0 { f7 with src := 7 } = true)
    ∧ lookupOk (setReg routed (.drt 0) 0x094 0) 0 f7 = false := by decide
theorem witness_RoutersCommitRouteAndIdentify_ports :
    (let p := bellAt (4096 * 8 * 100000) (withPort 0 (fun x => { x with moved := true, usableFrom := some 0 }) (setReg routed (.drt 0) 0x088 1))
     (portOfPkg p 0).moved = true ∧ bit (getReg p (.drt (dieOfPort 0)) 0x088) 0 = true ∧ usable p 0 0 = true ∧ slotOf p.bell = 0
     ∧ (portOfPkg p 0).usableFrom = some 0 ∧ 0 + revertHold p (dieOfPort 0) ≤ roundNow p)
    ∧ (let p := tickAt 100000000 (withPort 0 (fun x => { x with queue := [⟨{ f7 with cls := 2 }, some 0⟩] }) routed)
       ((portOfPkg p 0).queue.find? (heldTooLong p 0)).isSome = true ∧ (portOfPkg p 0).lstate = .up ∧ (portOfPkg p 0).identityAt = none)
    ∧ (let y : Delivered := ⟨0, { f7 with off := 1, payload := List.replicate 64 0 }, some 0, 0, none⟩
       ({ routed with inbox := [y] }.inbox.find? (localFrom 0 1)) = some y) := by decide
def dlv (kind off : Nat) (due : DWord) (inj : Nat) (payload : List Byte) : Delivered := ⟨0, ⟨kind, 2, false, true, 0, 7, 0xFFF, due, off, inj, 5, payload, 0⟩, some 0, 0, none⟩
/-- dramServes of the line at 64, as a test. -/
def servesDram (p : Pkg) : Bool := rangeOf 64 == .dram && sameRange 64 64 && rangeServes p 64 64 && pairOk p (.memc (dramPlace (mapGib p) 64).1) 0x088
  && !writeBarred p 64 64 && !guestHolds p 64 64
theorem dramServes_of_servesDram (p : Pkg) (h : servesDram p = true) (w : Bool) : dramServes p 64 64 w := by
  simp only [servesDram, Bool.and_eq_true, beq_iff_eq, Bool.not_eq_true'] at h
  exact ⟨h.1.1.1.1.1, h.1.1.1.1.2, h.1.1.1.2, h.1.1.2, fun _ => ⟨h.1.2, h.2⟩⟩
def served (x : Delivered) : Pkg := { cmPkg with inbox := [x], rg := (on [.ledg 0] cmPkg).rg }
/-- An atomic's payload: add 3, sequence 0. -/
def atomPl (twin : Bool) : List Byte :=
  leBytes 1 (if twin then 0x50 else 0x10) ++ leBytes 1 0 ++ leBytes 2 (if twin then 7 else 0) ++ leBytes 4 0 ++ leBytes 8 3 ++ List.replicate 16 0
theorem witness_CommonsAccessesServed :
    (let x := dlv 4 64 0 0 (List.replicate 64 1)
     (served x).inbox.find? (isKind 0 4) = some x ∧ arriveBar (served x) 0 = Status.done ∧ servesDram (served x))
    ∧ (let x := dlv 5 64 0 0 (leBytes 2 64 ++ List.replicate 6 0)
       (served x).inbox.find? (isKind 0 5) = some x ∧ x.frame.payload.length = 8 ∧ leField x.frame.payload 2 6 = 0 ∧ leField x.frame.payload 0 2 = 64
       ∧ servesDram (served x))
    ∧ (let x := dlv 6 64 0 0 (atomPl false)
       ((served x).inbox.find? (fun x => isKind 0 6 x && !atomTwin x.frame)) = some x ∧ enabled (served x) (.ledg 0) = true
       ∧ inDomain (served x) (cmnDie 0) x.frame.src = true ∧ atomPayloadOk x.frame = true ∧ atomFormOk (atomOpc x.frame) 64 (atomWide x.frame) = true
       ∧ (ownEntries (served x) 0 (7, 0)).length < 8 ∧ mirrorOf (served x) (cmnDie 0) 64 = none)
    ∧ (let x := dlv 6 64 0 0 (atomPl true)
       ((served x).inbox.find? (fun x => isKind 0 6 x && atomTwin x.frame)) = some x ∧ (ledgerOf (served x) 0).primary = none)
    ∧ (let x := dlv 8 64 0x60000 0x4FF []
       ((served x).inbox.find? (isTwinResp 0)).isSome = true ∧ (pendingTwin (served x) 5).isNone = true) := by decide
theorem witness_CommonsRequestsEndAndWait :
    (let x := dlv 8 64 0x40000 0x400 []
     let r := { budgetReq with seq := 5, stage := .sent, copies := 1, deadline := 9 }
     let p := bellAt 99 { served x with creqs := [r] }
     (p.inbox.find? (isCoreResp 0)) = some x ∧ respStale x.frame = false ∧ reqBySeq p 5 = some r ∧ r.deadline.toNat ≤ p.bell.toNat ∧ reqBySeq p 6 = none
     ∧ (pendingTwin p 6).isNone = true)
    ∧ (let r := { budgetReq with kind := 6, stage := .window, len := 8 }
       let p := bellAt 100000000 { cmPkg with creqs := [r] }
       p.creqs.find? (fun r => r.stage == .window && r.ctx.core.die == 0 && r.chip == 7) = some r ∧ windowRoom (atomWinOf p 0 7) = true ∧ admits p r.payloadLen = true
       ∧ p.creqs.find? (fun r => r.id == 9 && r.kind == 6) = some r ∧ r.firstAt.toNat + atomLimit p 0 ≤ p.bell.toNat)
    ∧ (let r := { budgetReq with stage := .flagHeld, flag := true }
       let p := { cmPkg with creqs := [r] }
       p.creqs.find? (fun r => r.id == 9 && r.stage == .flagHeld) = some r ∧ flagOpen p r = false ∧ flagOpen { p with creqs := [r, { r with id := 3 }] } r = true)
    ∧ stateOf (on [.ledg 0]) (.ledg 0) ≠ .off
    ∧ (let p := put_ .disabled [.cmn 0] Pkg.reset
       stateOf p (.cmn 0) = .disabled ∧ (0xFFFFFFFF : Word) = ~~~getReg p (.cmn 0) 0x204 ∧ cmnEntryMask (bits (getReg p (.cmn 0) 0x200) 30 29) (bits (getReg p (.cmn 0) 0x200) 9 0) = some 0x8000FFFF#32) := by decide
/-- A fence notice that names chip 7. -/
def notice7 : List Byte := withCompl (leBytes 2 7 ++ leBytes 2 0 ++ leBytes 1 2 ++ List.replicate 27 0)
theorem witness_FencesAndQuarantine :
    (let p := on [.cmn 4] routed
     stateOf p hubCmn ≠ .off ∧ bit (0x80000007 : Word) 31 = true ∧ chipInSlice p 7 = true ∧ (7 : Chip) ≠ ownChip p ∧ fenced p 7 = false ∧ p.fences.length < 1024
     ∧ portsTo p 7 = [] ∧ p.creqs = [] ∧ p.bobs = [] ∧ p.ledgers = [] ∧ p.rv.job = none ∧ noticePorts p = [])
    ∧ (let y : Delivered := ⟨0, { f7 with off := 2, payload := notice7 }, some 0, 0, none⟩
       ({ routed with inbox := [y] }.inbox.find? (localFrom 0 2)) = some y ∧ complOk 32 notice7 = true ∧ leField notice7 4 1 = 2 ∧ complOk 32 (notice7.take 63) = false)
    ∧ (let p := bellAt 4096 (withPort 0 (fun x => { x with lastPeer := some ⟨7, 0, true, 0⟩, lastVersion := 2 }) (setReg (on [.cmn 4] routed) (.cmn 4) 0x090 0x10))
       slotOf p.bell = 512 ∧ p.bellU.judged = none ∧ enabled p hubCmn = true ∧ p.bellU.state = .unjoined ∧ neighbours p = [7] ∧ portsTo p 7 = [0]
       ∧ (bellPort p 0).arrived = false ∧ silentRounds p ≤ (bellPort p 0).hbSilent + 1) := by decide

/-! ## Collectives -/

/-- The group entry of the fused witness, with one open instance on die 0. -/
def wellP : Pkg := setEntry (setEntry (on [.core c0, .well 0]) (.well 0) 0 0 0x80000000) (.well 0) 0 1 1000
def inst1 : Instance_ := ⟨0, 1, word [(0x20, 0), (1, 64), (1, 68)], dims 1 1 1, 0, 0, false, [⟨4, x0, 0, some 0, [], false, none, false⟩], [], [], [], [], [], [], false⟩
def withInst (x : Instance_) (p : Pkg := wellP) : Pkg := setWell p 0 { wellOf p 0 with insts := [x] }
def ctl (type : Nat) : List Byte := withCompl (leBytes 1 type ++ [0] ++ leBytes 2 0 ++ leBytes 4 1 ++ List.replicate 24 0)
def ctlAt (type : Nat) : Delivered := ⟨0, { f7 with off := 5, payload := ctl type }, none, 0, none⟩
theorem witness_CollectivesMoveFoldAndConclude_idle : Pkg.reset.inbox = [] ∧ ∀ e, (wellOf Pkg.reset e).insts = [] := by decide
theorem witness_CollectivesMoveFoldAndConclude_control :
    (∀ k : Fin 4, let p := { withInst inst1 with inbox := [ctlAt (k + 2)] }
      (p.inbox.find? (controlAt 0 (k + 2))) = some (ctlAt (k + 2)) ∧ instAt p 0 (ctlGroup (ctl (k + 2))) (ctlEpoch (ctl (k + 2))) = some inst1)
    ∧ (grpOf (withInst inst1) 0 inst1.group).isSome = true ∧ inst1.reports = [] ∧ inst1.concluded = false
    ∧ (inst1.contribs.any (fun k => !k.gone)) = true := by decide
theorem witness_CollectivesMoveFoldAndConclude_chunks :
    (let x : Delivered := ⟨0, ⟨7, 1, false, false, 0, 0, 0, BitVec.ofNat 64 256, 0, 0x400, 0, [1, 2], 0⟩, none, 0, none⟩
     let p := { withInst inst1 with inbox := [x] }
     (p.inbox.find? (fun x => x.die == 0 && x.frame.kind == 7 && !x.frame.last)) = some x ∧ frameInst p 0 x.frame = some inst1
     ∧ frameInst { p with wells := [] } 0 x.frame = none)
    ∧ (let y : Delivered := ⟨0, ⟨7, 1, false, true, 0, 0, 0, BitVec.ofNat 64 256, 0, 0x400, 0, [], 0⟩, none, 0, none⟩
       ({ withInst inst1 with inbox := [y] }.inbox.find? (closeReady (withInst inst1) 0)) = some y ∧ (inst1.inOf (frameKey y.frame)).isNone = true)
    ∧ (let o : ChunkOut := ⟨⟨0, 0, 0, 0, 0⟩, 7, 0, 0, 5, 1, true, 9, 0, 0, none, 0, 0⟩
       let p := bellAt 100000 (withInst { inst1 with outs := [o] })
       (wellOf p 0).insts.findSome? (fun x => (x.outs.find? (fun o => o.seq == 5 && o.ended.isNone && decide (o.deadline.toNat + 65536 < p.bell.toNat))).map (fun o => (x, o)))
         = some ({ inst1 with outs := [o] }, o)) := by decide
theorem witness_CollectivesMoveFoldAndConclude_folds :
    (let x := { inst1 with ins := [⟨⟨0, 0, 0, 0, 0⟩, [(0, [0, 0, 0, 0])], some 0, false, false⟩] }
     let p := withInst x
     x.coll = 1 ∧ (grpOf p 0 0).any (fun g => decide (0 < x.chunks g) && homeDie p 0 g 0 == 0 && decide (0 < g.n 0) && (contribution x g 0 0 0).isSome) = true)
    ∧ (let p := bellAt 10000000 (withInst inst1)
       (grpOf p 0 0).any (fun g => decide (inst1.start.toNat + g.tally < p.bell.toNat)) = true)
    ∧ (let p := { withInst { inst1 with contribs := [⟨(inst0 .engine none).id, x0, 0, some 0, [], false, none, false⟩] } with insts := [inst0 .engine none] }
       bit inst1.word 68 = true ∧ ((wellOf p 0).insts.any (fun x => x.contribs.any (fun k => (k.instr p).isSome && k.computed.isSome && k.final.isNone && !k.gone))) = true)
    ∧ (let p := wellP
       stateOf p (.well 0) ≠ .off ∧ (0xFFFFFFFF : Word) = ~~~getReg p (.well 0) 0x204 ∧ (wellOf p 0).insts = [] ∧ bits (getReg p (.well 0) 0x200) 30 29 = 0) := by decide

/-! ## Command packets -/

/-- A request's bytes on the management port. -/
def req (code : Nat) (args : List Nat) (payload : List Byte) (job : Word := 0) : List Byte := packetBytes false false code 0 0 1 job args 0 0 payload
/-- Under Caselm, with a job of tag 5 whose one request ring lies in Reeve SRAM-free DRAM. -/
def man0 : Manifest := ⟨none, [], [], [], [], [], [], [], [], [], [], [⟨false, 0, 0x10000, 64, 4, 0x20000⟩]⟩
def job5 : InForce := ⟨man0, [], [], 2, 0, 5, 0, []⟩
def served0 : Pkg := withBoot (fun b => { b with stage := .caselm }) (on [.bob (.gateway 4), .bob (.gateway 0), .cmn 4, .memc 0])
def served5 : Pkg := withRv (fun r => { r with job := some job5 }) served0
/-- runsCmd of the first packet of a source, as a test; of a request on the management port. -/
def runsSrc (p : Pkg) (src : CmdSrc) (code : Nat) (f : Packet → Bool) : Bool :=
  match takePacket p src with
  | some (pk, path, _) => pk.hcrcOk && pk.code == code && pk.flags % 2 == 0 && packetCheck p pk path == Status.done && (cached p (keyOf pk path)).isNone
      && decide (p.rv.runs.length < 64) && !(changesState pk.code && manifestBusy p) && (p.boot.stage != .recovery || recoveryRuns code pk.arg2) && f pk
  | none => false
theorem runsCmd_of_runsSrc (p : Pkg) (src : CmdSrc) (code : Nat) (f : Packet → Bool) (h : runsSrc p src code f = true) :
    ∃ pk path, runsCmd p src code pk path ∧ f pk = true := by
  unfold runsSrc at h
  split at h
  · rename_i pk path q hq
    simp only [Bool.and_eq_true, beq_iff_eq, Bool.not_eq_true', decide_eq_true_eq, Option.isNone_iff_eq_none, Bool.or_eq_true, bne_iff_ne] at h
    obtain ⟨⟨⟨⟨⟨⟨⟨⟨h1, h2⟩, h3⟩, h4⟩, h5⟩, h6⟩, h7⟩, h8⟩, h9⟩ := h
    exact ⟨pk, path, ⟨⟨⟨q, hq⟩, h1, h2, h3⟩, ⟨h4, h5, h6, h7⟩, fun hr => h8.resolve_left (fun hn => hn hr)⟩, h9⟩
  · cases h
def runsReq (p : Pkg) (code : Nat) (b : List Byte) : Bool := runsSrc p (.mgmt b) code (fun _ => true)
/-- The first packet of the management port passes the checks before its command's own, for every code that it may carry with no job, and with a job for the rest. -/
theorem witness_PacketsCheckedInOrder_free :
    ∀ code ∈ [0x01, 0x02, 0x03, 0x04, 0x10, 0x11, 0x12, 0x13, 0x14, 0x15, 0x16, 0x17, 0x18, 0x19, 0x20, 0x21, 0x22, 0x70, 0x71, 0x75, 0x76, 0x77, 0x78],
      runsReq served0 code (req code [] []) = true := by decide +kernel
theorem witness_PacketsCheckedInOrder_job :
    ∀ code ∈ [0x23, 0x24, 0x30, 0x31, 0x40, 0x41, 0x60, 0x61], runsReq served5 code (req code [] [] 5) = true := by decide +kernel
theorem witness_PacketsCheckedInOrder_turned :
    (let b := req 0x24 [] [] 6
     (takePacket served5 (.mgmt b)).any (fun t => packetCheck served5 t.1 t.2.1 == Status.refusedJob) = true)
    ∧ (takePacket Pkg.reset (.mgmt (req 1 [] []))).isNone = true
    ∧ (takePacket served0 (.mgmt (List.replicate 64 0))).any (fun t => !t.1.hcrcOk) = true
    ∧ (takePacket served0 (.mgmt (packetBytes true false 2 0 0 1 0 [] 0 0 []))).any (fun t => t.1.hcrcOk && t.1.flags % 2 == 1) = true
    ∧ (takePacket served0 (.mgmt (req 0x7F [] []))).any (fun t => t.1.hcrcOk && (cmdForm t.1.code).isNone) = true
    ∧ (let p := withBoot (fun b => { b with stage := .recovery }) Pkg.reset
       (takePacket p (.mgmt (req 0x20 [] []))).isSome = true ∧ recoveryRuns 0x20 0 = false)
    ∧ (let p := withRv (fun r => { r with cache := [⟨⟨1, 0, 1⟩, [], 0⟩] }) served0
       (cached p ⟨1, 0, 1⟩).isSome = true) := by decide +kernel
theorem witness_PacketsCheckedInOrder_fragments :
    (let x : Delivered := ⟨0, { f7 with off := 4, last := false }, none, 0, none⟩
     let p := tickAt 70000 { served0 with inbox := [x] }
     (p.inbox.find? (fun x => carriesPacket x && !x.frame.last && decide (x.at_ + 65536 ≤ p.count)
       && !(p.inbox.any (fun y => followsOn x y && decide (y.at_ < x.at_ + 65536))))) = some x)
    ∧ (let x : Delivered := ⟨0, { f7 with off := 4, payload := req 1 [] [] }, some 0, 0, none⟩
       (takePacket { served0 with inbox := [x] } .fabric).isSome = true) := by decide +kernel
/-- A payload is held at its port while no landing slot is free (R209). -/
theorem test_landing_slots :
    let full := setBob served0 (.gateway 4) { bobOf served0 (.gateway 4) with slots := (List.range 32).map (fun i => (i, [])) }
    (takePacket full (.mgmt (req 0x21 [] [1]))).isNone = true ∧ (takePacket full (.mgmt (req 0x21 [] []))).isSome = true
    ∧ (takePacket served0 (.mgmt (req 0x21 [] [1]))).isSome = true := by decide +kernel

/-! ## What Caselm does for a command -/

/-- A request of the management port that is run, whose packet meets a condition; and one that comes over port 0. -/
def runsWith (p : Pkg) (code : Nat) (args : List Nat) (payload : List Byte) (f : Packet → Bool) (job : Word := 0) : Bool :=
  runsSrc p (.mgmt (req code args payload job)) code f
def runsFab (p : Pkg) (code : Nat) (args : List Nat) (payload : List Byte) (f : Packet → Bool) : Bool :=
  runsSrc { p with inbox := [⟨0, { f7 with off := 4, payload := req code args payload 5 }, some 0, 0, none⟩] } .fabric code f
/-- With every stack ENABLED. -/
def stacksOn (p : Pkg) : Pkg := on ((List.finRange 12).map Page.memc) p
def caselmP (f : Reeve → Reeve) : Pkg := withRv f served0
theorem witness_PacketReadsAndStaging :
    runsWith served0 0x02 [] [1, 0, 0, 0] (fun pk => pk.payload.length == 4) = true ∧ runsWith served0 0x02 [] [1] (fun pk => pk.payload.length == 1) = true
    ∧ runsWith served0 0x03 [0, 32, 1] [] (fun pk => pk.arg1 == 32 && pk.arg2 == 1) = true ∧ runsWith served0 0x03 [0, 33, 0] [] (fun pk => pk.arg1 == 33) = true
    ∧ runsWith served0 0x10 [5260192] [] (fun pk => pk.arg0 == 5260192) = true ∧ runsWith served0 0x10 [5260193] [] (fun pk => pk.arg0 == 5260193) = true
    ∧ runsWith (withBoot (fun b => { b with staging := some ⟨8, 0, [], []⟩ }) served0) 0x11 [4] [1, 2, 3, 4] (fun pk => pk.arg0 + pk.payload.length == 8) = true
    ∧ runsWith served0 0x13 [2] [] (fun pk => pk.arg0 == 2) = true ∧ runsWith served0 0x19 [3] [] (fun pk => pk.arg0 == 3) = true
    ∧ runsWith served0 0x17 [17311] [1] (fun pk => pk.arg0 + pk.payload.length == 17312) = true
    ∧ runsWith (withBoot (fun b => { b with aliasRsa := true }) served0) 0x14 [] (List.replicate 32 0) (fun pk => pk.payload.length == 32) = true
    ∧ (let p := withBoot (fun b => { b with reports := [⟨7, [], 0⟩] }) served0
       runsWith p 0x15 [7] [] (fun pk => (p.boot.reports.find? (fun r => r.handle == pk.arg0 && decide (p.count < r.at_ + 10000000000))) == some ⟨7, [], 0⟩) = true) := by
  decide +kernel
theorem witness_BootImagesAndUnlocks_stages :
    Pkg.reset.boot.stage = .held ∧ (withBoot (fun b => { b with stage := .rom }) Pkg.reset).boot.stage = .rom
    ∧ (flashCheck Pkg.reset ⟨true, true⟩ true).2 = Status.done ∧ (flashCheck Pkg.reset ⟨true, true⟩ false).2 ≠ Status.done
    ∧ (let p := withBoot (fun b => { b with unlockAt := some 5 }) (tickAt 5 served0)
       p.boot.unlockAt = some 5 ∧ 5 ≤ p.count ∧ p.dbg.margin = none) := by decide
theorem witness_BootImagesAndUnlocks_commits :
    (let p := withBoot (fun b => { b with staging := some ⟨2, 0, [(0, 2)], [(0, [0, 0])]⟩ }) served0
     runsReq p 0x12 (req 0x12 [] []) = true ∧ p.serving = false ∧ (⟨2, 0, [(0, 2)], [(0, [0, 0])]⟩ : Staging).whole = true
     ∧ (imageCheck p (⟨2, 0, [(0, 2)], [(0, [0, 0])]⟩ : Staging).all ⟨true, true⟩).2 ≠ Status.done)
    ∧ (⟨2, 0, [], []⟩ : Staging).whole = false
    ∧ runsWith { withBoot (fun b => { b with staging := some ⟨2, 0, [], []⟩ }) served0 with serving := true } 0x12 [2] [] (fun pk => pk.arg0.testBit 1) = true
    ∧ (runsReq served0 0x18 (req 0x18 [] []) = true ∧ served0.boot.token.whole && served0.boot.token.total == 17312) = false := by decide +kernel
theorem witness_ManifestsCommitWithdrawAndStart :
    (let p := stacksOn (caselmP (fun r => { r with staging := some ⟨2, 0, [], []⟩ }))
     runsWith p 0x21 [0] [1, 2] (fun pk => pk.arg0 + pk.payload.length == 2
       && (enabled p (.bob (.gateway pk.gateway)) && pairOk p (.memc 0) 0x090 && (checkAccess p (.bobbin (.gateway pk.gateway)) caselmBase 2).2 == Status.done
         && !writeBarred p caselmBase 2)) = true
     ∧ runsWith p 0x21 [1] [1, 2] (fun pk => decide (2 < pk.arg0 + pk.payload.length)) = true
     ∧ runsReq p 0x22 (req 0x22 [] []) = true ∧ p.rv.job = none ∧ p.dbg.margin = none ∧ p.boot.scope &&& 0x15 = 0 ∧ manifestCheck p ⟨2, 0, [], []⟩ man0 none = some (1, 0))
    ∧ runsReq served5 0x23 (req 0x23 [] [] 5) = true
    ∧ samplerHold served5 5 = false ∧ runsWith served5 0x24 [4] [] (fun pk => decide (roundNow served5 + 4 ≤ pk.arg0)) 5 = true
    ∧ runsWith served5 0x24 [3] [] (fun pk => decide (pk.arg0 < roundNow served5 + 4)) 5 = true ∧ served5.rv.started = false := by decide +kernel
theorem witness_JobDataQueriesAndMaintenance :
    let p := stacksOn served5
    runsWith p 0x30 [64] (List.replicate 64 1) (fun pk => pk.arg0 == 64 && pk.payload.length == 64 && !reachesCaselm 64 64 && inDram 64
      && enabled p (.bob (.gateway pk.gateway)) && pairOk p (.memc 0) 0x090 && (checkAccess p (.bobbin (.gateway pk.gateway)) 64 64).2 == Status.done
      && !writeBarred p 64 64) 5 = true
    ∧ runsWith p 0x30 [1] (List.replicate 64 1) (fun pk => pk.arg0 == 1) 5 = true
    ∧ runsWith p 0x30 [caselmBase] (List.replicate 64 1) (fun pk => pk.arg0 % 64 == 0 && inDram pk.arg0 && reachesCaselm pk.arg0 64) 5 = true
    ∧ runsWith p 0x31 [64, 2048] [] (fun pk => pk.arg1 == 2048 && (checkAccess p (.reeve 0) pk.arg0 pk.arg1).2 == Status.done) 5 = true
    ∧ runsWith p 0x31 [64, 63] [] (fun pk => pk.arg1 == 63) 5 = true
    ∧ runsWith p 0x40 [0] (List.replicate 64 1) (fun pk => jobRing p false pk.arg0 == some ⟨false, 0, 0x10000, 64, 4, 0x20000⟩ && pk.payload.length == 64
      && (checkAccess p (.bobbin (.gateway pk.gateway)) 0x10000 64).2 == Status.done && (checkAccess p (.reeve 0) 0x20000 8).2 == Status.done
      && !writeBarred p 0x20000 8) 5 = true
    ∧ (jobRing p false 1).isNone = true
    ∧ (takePacket p (.mgmt (packetBytes true false 0x41 0 0 1 0 [] 0 0 []))).any (fun t => t.1.hcrcOk && t.1.code == 0x41 && t.1.flags % 2 == 1) = true
    ∧ runsWith p 0x60 [0, 4] [] (fun pk => pk.arg1 == 4) 5 = true ∧ ledgerLookup p 0 0 0 0 0 = none := by decide +kernel
/-- A candidate's sampler, and one of the model. -/
def smp (joins : Bool) : Sampler := ⟨joins, 3, 9, 0, 1, [], 0, 0, false, 0⟩
def samplerP (joins : Bool) : Pkg := withRv (fun r => { r with sampler := some (smp joins), job := some job5 }) served0
theorem witness_SamplersJoinJudgeAndAdmit_packets :
    runsWith served0 0x71 [3 + 9 * 65536] [] (fun pk => BitVec.ofNat 16 pk.arg0 == (3 : Chip)) = true
    ∧ (let p := samplerP true
       runsFab p 0x72 [64, 1] (List.replicate 64 1) (fun pk => pk.arg1 == (smp true).nextSeq && enabled p (.bob (.gateway pk.gateway))
         && (checkAccess p (.bobbin (.gateway pk.gateway)) 64 64).2 == Status.done) = true
       ∧ runsFab p 0x73 [0, 2] [] (fun pk => pk.arg1 != (smp true).nextSeq) = true ∧ (journalRing p).isNone = true
       ∧ runsFab p 0x74 [0, 0, 1] [] (fun pk => pk.arg2 == (smp true).nextSeq) = true ∧ stepFails p 0 0 [] [] = none ∧ stepFails p 0 1 [] [] = some 3
       ∧ stepFails p 0 0 [1] [2] = some 4
       ∧ runsWith p 0x75 [3] [] (fun pk => BitVec.ofNat 16 pk.arg0 == (smp true).candidate) = true)
    ∧ runsFab (samplerP false) 0x72 [] [] (fun _ => true) = true := by decide +kernel
theorem witness_SamplersJoinJudgeAndAdmit_rounds :
    (smp true).reported + 64 ≤ { smp true with clean := 64 }.clean
    ∧ (let p := caselmP (fun r => { r with admission := some ⟨3, 0⟩ })
       p.rv.admission = some ⟨3, 0⟩ ∧ 0 ≤ roundNow p ∧ (3 : Chip) ≠ ownChip p)
    ∧ (let p := caselmP (fun r => { r with admission := some ⟨3, 1⟩ })
       roundNow p < 1) := by decide +kernel
def chg (stage : Nat) (verdict : Option Bool) (entries : List Reshard := []) : PhaseChange := ⟨1, 200, 400, stage, entries, verdict, none, 0, [], 0, []⟩
def changing (round : Nat) (c : PhaseChange) : Pkg := bellAt (BitVec.ofNat 64 (round * 4096 * 8)) (withRv (fun r => { r with job := some job5, change := some c }) served0)
def moved_ : Reshard := ⟨0xFFF, 2, 0, 0, 1, 3, 0, false, false, 0, none, 0, none⟩
theorem witness_PhaseChangesStopReshardAndStart_packets :
    runsFab served5 0x50 [1, 200, 400] [] (fun pk => decide (roundNow served5 + 200 ≤ pk.arg1) && decide (pk.arg1 + 200 ≤ pk.arg2) && decide (pk.arg0 < job5.phases)) = true
    ∧ runsFab served5 0x50 [2, 200, 400] [] (fun pk => decide (job5.phases ≤ pk.arg0)) = true
    ∧ runsFab served5 0x50 [1, 199, 400] [] (fun pk => decide (pk.arg1 < roundNow served5 + 200)) = true
    ∧ runsFab (changing 0 (chg 0 none)) 0x51 [] [] (fun _ => true) = true ∧ runsFab (changing 0 (chg 0 (some false))) 0x52 [1] [] (fun pk => pk.arg0 == 1) = true := by
  decide +kernel
theorem witness_PhaseChangesStopReshardAndStart_rounds :
    (roundNow (changing 197 (chg 0 none)) + 2 < 200 ∧ 200 ≤ roundNow (changing 198 (chg 0 none)) + 2 ∧ (chg 0 none).stage = 0)
    ∧ (let p := changing 200 (chg 2 none)
       200 ≤ roundNow p ∧ swapsOver p = true ∧ windowEntries p (chg 1 none) = [] ∧ (∀ d, (wellOf p d).insts = []))
    ∧ (400 ≤ roundNow (changing 396 (chg 3 none)) + 4 ∧ roundNow (changing 395 (chg 3 none)) + 4 < 400)
    ∧ (let p := changing 402 (chg 3 (some true))
       400 + 2 ≤ roundNow p ∧ (withRv (fun r => { r with phase := 1 }) p).rv.phase = (chg 3 (some true)).phase)
    ∧ (let p := changing 402 (chg 3 (some false) [moved_])
       400 + 2 ≤ roundNow p ∧ liveBobs p moved_.die = [] ∧ mine p { moved_ with src := ownChip p } = true) := by decide +kernel
theorem witness_CaselmWorksByItself_times :
    (let p := tickAt 1000000 served0
     caselmRuns p = true ∧ p.rv.wdogAt + 1000000 ≤ p.count ∧ p.rv.pollAt + 20000 ≤ p.count ∧ p.rv.job = none ∧ p.rv.commitRound = none ∧ p.rv.withdrawAt = none
     ∧ p.rv.change = none)
    ∧ (let p := tickAt 1000000000000 served0
       wdogRuns p = true ∧ p.rv.wdogAt + wdogLimit p ≤ p.count ∧ p.rv.snapAt + 10000000 ≤ p.count ∧ slotOf p.bell = 0)
    ∧ (let r : ResultOut := ⟨⟨1, 0, 1⟩, 0, 0, true, Status.done, [], 0, 7⟩
       let p := tickAt 1000000 (withRv (fun x => { x with results := [r] }) served0)
       p.rv.results.find? (fun r => decide (r.at_ + 1000000 ≤ p.count)) = some r ∧ r.resends < 8)
    ∧ caselmRuns Pkg.reset = false := by decide +kernel

/-! ## Power, guests, pins and debug -/

def mirror7 : MirrorDef := ⟨0, 16, 7, 0, 3, [], []⟩
def jobM : InForce := ⟨⟨none, [], [], [], [mirror7], [], [], [], [], [], [], []⟩, [], [(0x20, 1048576)], 2, 0, 5, 0, []⟩
theorem witness_RestoresAndRemirrorCopies_ended :
    let x : Posted := ⟨.gateway 4, 9, 0, 64, 7, true⟩
    let y : Posted := ⟨.gateway 4, 9, 0, 65536, 7, false⟩
    let p (z : Posted) := setBob (caselmP (fun r => { r with posted := [z], job := some jobM })) (.gateway 4)
      { bobOf served0 (.gateway 4) with fifo := [(0, Status.done, 9)] }
    caselmRuns (p x) = true ∧ (reapFirst (p x) true).map (fun t => t.2) = some (x, Status.done) ∧ (reapFirst (p y) false).map (fun t => t.2) = some (y, Status.done)
    ∧ (reapFirst (p x) false).isNone = true := by decide +kernel
theorem witness_RestoresAndRemirrorCopies_posts :
    let p := withStack (fun x => { x with log := [(0x80000000, 0)] }) { routed with boot := served0.boot, rv := { served0.rv with job := some jobM, exposed := [(2, 4)] } }
    caselmRuns p = true ∧ (reapFirst p true).isNone = true ∧ logHolds p 0 = true ∧ logHolds p 1 = false ∧ mirrorFor p 0 = some mirror7
    ∧ stepOver p jobM = true ∧ contextsIdle p = true ∧ 0 < (policyOf p 0x20 - p.rv.mirrored) / 65536 ∧ mirrorFor p (2 * 65536) = some mirror7
    ∧ reachable p 0 mirror7.partner = true := by decide +kernel
def trans (target dies : Nat) (running exit : Bool) (left : List Domain) : Transition := ⟨target, dies, 2, running, exit, left, 0⟩
def inTrans (t : Transition) (round : Nat := 2) : Pkg := bellAt (BitVec.ofNat 64 (round * 32768)) (withPw (fun w => { w with trans := some t }) Pkg.reset)
theorem witness_PowerTransitionsEnterAndExit_requests :
    let p := on [.pwr]
    stateOf Pkg.reset .pwr = .disabled ∧ stateOf p .pwr ≠ .off ∧ pwrDecide p 5 1 2 = some Status.failedFormat ∧ pwrDecide p 2 1 1 = some Status.refusedPower
    ∧ pwrDecide p 0 1 2 = some Status.done ∧ pwrDecide p 2 1 2 = none ∧ pwrDecide p 4 0 2 = none
    ∧ runsWith served0 0x04 [2 + 256, 4] [] (fun pk => (pwrDecide served0 (pk.arg0 % 8) (pk.arg0 / 256 % 16) pk.arg1).isNone) = true
    ∧ runsWith served0 0x04 [5] [] (fun pk => pwrDecide served0 (pk.arg0 % 8) (pk.arg0 / 256 % 16) 4 == some Status.failedFormat) = true := by decide +kernel
theorem witness_PowerTransitionsEnterAndExit_turns :
    (roundCome (inTrans (trans 2 1 false false [])) 2 = true ∧ roundCome (inTrans (trans 2 1 false false []) 1) 2 = false
     ∧ maskDies 1 = [0] ∧ dieState (inTrans (trans 1 1 false false [])) 0 ≠ 2)
    ∧ (let p := inTrans (trans 2 1 true false [.die 0])
       p.pw.trans = some (trans 2 1 true false [.die 0]) ∧ drained p (.die 0) = true ∧ drained p (.optics 0) = true ∧ drained p .hub = true)
    ∧ (trans 2 1 true false []).left = [] ∧ (trans 0 1 true true []).dies ≠ 0
    ∧ (let p := tickAt 100000 (withRg (fun g => g) (setReg (on [.pwr]) .pwr 0x088 0x800000))
       bit (pwrCfg p) 23 = true ∧ dieState p 0 = 0 ∧ dieIdle p 0 = true ∧ p.pw.cut.contains (.die 0) = false
       ∧ Map.getD p.pw.idleAt 0 0 + (if bits (pwrCfg p) 31 24 = 0 then 100 else bits (pwrCfg p) 31 24) * 1000 ≤ p.count) := by decide +kernel
theorem witness_PowerTransitionsEnterAndExit_wakes :
    (let p := withPw (fun w => { w with p3 := true }) Pkg.reset
     hearthHolds p = true ∧ p.pw.held.length < 16 ∧ p.pw.heldI3c = none ∧ hearthHolds Pkg.reset = false)
    ∧ (let p := withPw (fun w => { w with p3 := true, trips := [4] }) Pkg.reset
       wakeEnabled p .cooled = true ∧ p.pw.trans = none)
    ∧ (let p := withPw (fun w => { w with trips := [4] }) (inTrans (trans 3 0 true false [.hub]))
       wakeEnabled p .cooled = true ∧ p.pw.wake = none)
    ∧ wakeEnabled Pkg.reset .cooled = false := by decide
theorem witness_SensorsThrottleAndTrips :
    (let p := setReg (on [.thrm 0]) (.thrm 0) 0x088 0x69411A01
     (List.replicate 32 (0 : Int)).length = 32 ∧ stateOf p (.thrm 0) ≠ .off ∧ bit (getReg p (.thrm 0) 0x088) 0 = true ∧ bits (getReg p (.thrm 0) 0x088) 31 24 * 16 = 1680)
    ∧ (Pkg.reset.pw.cut.contains (.die 0) = false ∧ Pkg.reset.pw.cut.contains .hub = false ∧ Pkg.reset.pw.kept.contains (.die 0) = false)
    ∧ (let p := tickAt 10000000000 (withStack (fun x => { x with tripped := true, coolAt := some 0 }) (on [.memc 0]))
       (stackOf p 0).coolAt = some 0 ∧ (stackOf p 0).tripped = true ∧ (stackOf p 0).railCut = false ∧ 0 + 10000000000 ≤ p.count ∧ enabled p (.memc 0) = true)
    ∧ ((stackOf Pkg.reset 0).tripped = false ∧ stateOf (on [.sel 15]) (.sel 15) = .enabled)
    ∧ (let p := withPw (fun w => { w with trips := [3] }) Pkg.reset
       p.pw.trips.contains 3 = true ∧ p.pw.p3 = false)
    ∧ (let p := withPw (fun w => { w with trips := [4], p3 := true }) Pkg.reset
       p.pw.trips.contains 4 = true ∧ p.pw.trans = none ∧ p.pw.p3 = true) := by decide
/-- Site 0 fitted, its link UP and its thimble ENABLED with every kind of access allowed, window 0 open at 0. -/
def guestP : Pkg :=
  let p := paired (.thim 0) (winOff 0 + 24) 1 (paired (.thim 0) (winOff 0) 0x78000000 (paired (.thim 0) 0x088 0x3F (setReg (on [.thim 0, .memc 0]) .fuse 0x100 1)))
  setThim (setStitch p (.guest 0) { stitchOf p (.guest 0) with lstate := 2, mods := 255 }) 0 { thimOf p 0 with admitted := true, wins := [(0, 1)] }
theorem witness_StitchLinksAndGuests_links :
    (let p := setStitch (on [.stch (.guest 0)]) (.guest 0) { stitchOf Pkg.reset (.guest 0) with lstate := 2, mods := 0xF }
     linkModules (.guest 0) = 8 ∧ stateOf p (.stch (.guest 0)) ≠ .off ∧ (stitchOf p (.guest 0)).mods.testBit 3 = true
     ∧ popcount 16 (0xF - 8) < linkMinimum (.guest 0) ∧ (stitchOf p (.guest 0)).lstate = 2)
    ∧ (let p := setReg (setStitch (on [.stch (.hub 0)]) (.hub 0) { stitchOf Pkg.reset (.hub 0) with mods := 0x7FF }) (.stch (.hub 0)) 0x088 0xFFFF
       inService p (.stch (.hub 0)) = true ∧ (stitchOf p (.hub 0)).gone.testBit 15 = false ∧ bit (getReg p (.stch (.hub 0)) 0x088) 15 = true
       ∧ (stitchOf p (.hub 0)).mods.testBit 15 = false ∧ linkMinimum (.hub 0) ≤ popcount 16 (0x7FF + 2 ^ 15))
    ∧ (bits (0xFFFB000000000004 : DWord) 63 48 + bits (0xFFFB000000000004 : DWord) 15 0 = 0xFFFF ∧ bits (0xFFFB000000000004 : DWord) 2 0 = 4)
    ∧ (let p := put_ .enabling [.thim 0] guestP
       stateOf p (.thim 0) = .enabling ∧ siteFitted p 0 = true ∧ siteFitted Pkg.reset 1 = false) := by decide
theorem witness_StitchLinksAndGuests_accesses :
    (let p := guestP
     enabled p (.thim 0) = true ∧ inService p (.thim 0) = true ∧ thimPairsOk p 0 = true ∧ pairOk p (.memc 0) 0x090 = true ∧ bucketEmpty p 0 (fillBuckets p 0) = false ∧ (fillBuckets p 0).held = []
     ∧ (opAllow .interrupt).any (fun i => bit (getReg p (.thim 0) 0x088) i) = true ∧ (opAllow (.read 4)).any (fun i => bit (getReg p (.thim 0) 0x088) i) = true
     ∧ rangeOf (0x0F0000000000 + 0x100000 * (Page.thim 0).type + 0xC00) = .page (.thim 0) 0xC00 ∧ bit (getReg p (.thim 0) 0x098) 0 = false
     ∧ Map.look (thimOf p 0).wins 0 = some 1 ∧ Map.look (thimOf p 0).wins 1 = none ∧ thimFind p 0 false (opPerm (.read 64)) (thimSize p 0 0) 64 = none
     ∧ (∀ op ∈ [GuestOp.read 64, .write (List.replicate 64 1), .atomic 0 false 1 0, .snoop true], thimFind p 0 false (opPerm op) 0 (opLen op) = some 0
        ∧ (checkAccess p (.guest 0) (thimPbase p 0 0) (opLen op)).2 = Status.done)
     ∧ permitted r0 (.guest 0 0) = true ∧ permitted (.remote 0) (.guest 0 0) = false)
    ∧ (let p := setThim (paired (.thim 0) 0x090 1 guestP) 0 { thimOf guestP 0 with reqs := 999 }
       thimPairsOk p 0 = true ∧ bucketEmpty p 0 (fillBuckets p 0) = true)
    ∧ stateOf (put_ .quarantined [.thim 0] guestP) (.thim 0) = .quarantined := by decide +kernel
theorem witness_PinsRailsAndResets :
    (Pkg.reset.stackUnits.map (fun e => e.1)).Nodup
    ∧ (let p := tickAt 1010000 (withPins (fun x => { x with en := [(.die 0, 0)], good := [] }) Pkg.reset)
       Map.look p.pins.en (.die 0) = some 0 ∧ p.pins.good.contains (.die 0) = false ∧ 0 + 60000 ≤ p.count ∧ p.count ≤ 0 + 1010000 ∧ 0 + 1000000 ≤ p.count)
    ∧ (let p := withPins (fun x => { x with en := [(.hub, 0), (.die 3, 0), (.optics 3, 0), (.stack 11, 0)], good := [.hub, .die 3, .optics 3, .stack 11], guestEn := [1] }) Pkg.reset
       (∀ d ∈ [Domain.hub, .die 3, .optics 3, .stack 11], p.pins.good.contains d = true ∧ (Map.look p.pins.en d).isSome = true) ∧ p.pins.guestEn.contains 1 = true)
    ∧ (let p := withPins (fun x => { x with en := [] }) served0
       p.boot.stage = .caselm ∧ p.pw.p3 = false ∧ p.pw.trans = none ∧ enableGroups.find? (fun g => g.any (mayRaise p)) = some [.stack 0, .stack 1, .stack 2])
    ∧ (let p := withPins (fun x => { x with again := [(.hub, 0)] }) Pkg.reset
       Map.look p.pins.again .hub = some 0 ∧ 0 ≤ p.count) := by decide
/-- A request's bits with its CRC. -/
def dbgReq (l : List Bool) : List Bool := l ++ ((List.range 8).map (fun i => (crc8 0x07 0 l).testBit (7 - i)))
def msb (n v : Nat) : List Bool := (List.range n).map (fun i => v.testBit (n - 1 - i))
theorem witness_DebugPortSequencersAndTap :
    (portSilent served0 = false ∧ served0.dbg.pending = none ∧ portSilent Pkg.reset = true)
    ∧ (∀ op ∈ [0, 1, 2, 4, 5], let r := dbgReq (msb 4 op ++ msb 48 64); r.length = reqBits (reqOp r) ∧ reqCrcOk r = true ∧ reqOp r = op)
    ∧ (let r := dbgReq (msb 4 3 ++ msb 48 64 ++ msb 32 1); r.length = reqBits (reqOp r) ∧ reqCrcOk r = true ∧ reqOp r = 3)
    ∧ (let r := (dbgReq (msb 4 1 ++ msb 48 64)).map (fun b => !b && false); r.length = reqBits (reqOp r))
    ∧ debugLocked served0 (some 3) = true ∧ debugLocked (withBoot (fun b => { b with scope := 8 }) served0) (some 3) = false ∧ rangeOf 64 = .dram
    ∧ letThrough true Pkg.reset r0 .dbg (0x400 + 4 * 0x38) ∧ letThrough true Pkg.reset r0 .dbg 0x094 ∧ letThrough false Pkg.reset r0 .dbg (0x400 + 4 * 0x11)
    ∧ seqCtx (setReg Pkg.reset .dbg 0x090 0) = some x0 ∧ Pkg.reset.boot.stage = .held := by decide +kernel
def mrun (tgt : Word) (step : Nat) (high : Bool) : Margin := ⟨tgt, 0x0200, high, step, [], [], 0, none, 0, []⟩
theorem witness_MarginRunsSweepBothSides :
    let p := withBoot (fun b => { b with scope := 0x40 }) Pkg.reset
    letThrough true p r0 .dbg 0x110 ∧ p.boot.scope.testBit 6 = true ∧ p.serving = false ∧ p.dbg.margin = none ∧ targetReady p 0 false = true
    ∧ targetReady p 0x80000000 false = false ∧ Memory.wf p.mem = true ∧ stackNo (bits (0 : Word) 29 22) = some 0
    ∧ (let q := setStitch p (.hub 0) { stitchOf p (.hub 0) with lstate := 2, mods := 0xFFFF }
       targetReady q 0x80000000 false = true ∧ stitchNo (bits (0x80000000 : Word) 29 22) = some (.hub 0) ∧ stateOf q (.stch (.hub 0)) ≠ .off)
    ∧ (let m := mrun 0 1 false
       bits m.cfg 15 8 = 2 ∧ m.step ≠ 0 ∧ ¬(targetLanes m.tgt ≤ m.edges.length + 0 ∨ 2 ≤ m.step) ∧ 2 ≤ (mrun 0 2 true).step ∧ (mrun 0 0 true).step = 0) := by decide +kernel

/-! ## Further premises: stored pairs that fail, refused and waiting forms -/

/-- A page with a register whose stored complement fails. -/
def spoiled (g : Page) (off : Nat) (p : Pkg) : Pkg := setReg p g off (~~~getReg p g off ^^^ 1)
theorem witness_PairedValuesCommitWholeOrNotAtAll_bell : ∀ o, o ∈ [0x090, 0x098, 0x0A0] → pairOk Pkg.reset .bell o = true := by decide
theorem witness_ControlCommitsMoveTheBlock_rests :
    stackRests Pkg.reset (.mill m0) = true ∧ stackRests (on [.memc 0]) (.mill m0) = false ∧ stackRests Pkg.reset (.ledg 0) = false := by decide
theorem witness_EnablingAndDrainsEnd_tables :
    (∀ kv, kv ∈ Pkg.reset.boot.tables → kv.1.1 ≠ .ledg 0)
    ∧ (let p := withBoot (fun b => { b with tables := [((.memc 3, 2, 5), 0x80000001)] }) (put_ .enabling [.memc 3] Pkg.reset)
       stateOf p (.memc 3) = .enabling ∧ Page.memc 3 ∉ p.rg.undo ∧ p.boot.tables = [((.memc 3, 2, 5), 0x80000001#32)])
    ∧ (stateOf (put_ .enabling [.sel 15] Pkg.reset) (.sel 15) = .enabling ∧ Page.sel 15 ∉ (put_ .enabling [.sel 15] Pkg.reset).rg.undo)
    ∧ pairOk Pkg.reset (.mill ⟨11, 7⟩) 0x088 = true ∧ bellPairsOk Pkg.reset = true := by decide
theorem witness_EnablingAndDrainsEnd_held :
    (stopsOver (draining (.ledg 0) 0) (.ledg 0) = true ∧ copying (draining (.ledg 0) 0) (.ledg 0) = false ∧ pairOk (draining (.ledg 0) 0) (.ledg 0) 0x008 = true
      ∧ stackRests (draining (.ledg 0) 0) (.ledg 0) = false)
    ∧ pairOk (spoiled (.ledg 0) 0x008 (draining (.ledg 0) 0)) (.ledg 0) 0x008 = false
    ∧ stopsOver (withCtx x0 (fun x => { x with state := .stopping }) (draining (.core c0) 0)) (.core c0) = false
    ∧ copying (withStack (fun x => { x with copy := some (copy0 1) }) (draining (.memc 0) 0)) (.memc 0) = true
    ∧ (let p := withPw (fun w => { w with trans := some (trans 2 15 true false []) }) (draining .pwr 1000000)
       p.pw.trans = some (trans 2 15 true false []) ∧ 0 + 1000000 ≤ p.count ∧ (0x01 : Word) ≠ 0x02) := by decide
theorem witness_ContainedBlocksDrainTogether_pairs :
    ∀ h, h ∈ contained (.drt 3) → stateOf (on [.drt 3, .prk 31]) h = .enabled → pairOk (on [.drt 3, .prk 31]) h 0x008 = true := by decide
theorem witness_BellJudgementAndReferences_pairs :
    pairOk Pkg.reset hubCmn 0x090 = true ∧ (rootPkg.bellU.ppsEdges = 0 ∧ rootPkg.bellU.stepped = false)
    ∧ (withBell (fun u => { u with stepped := true }) rootPkg).bellU.stepped = true := by decide
/-- Two ports swap: a frame of flow 5 that has no slot in the new copy waits. -/
theorem witness_PrickingsWrittenSealedAndSwapped_swap :
    let p := withPort 31 (fun x => { x with queue := [⟨{ f7 with cls := 1, flow := 5 }, none⟩] }) (bellAt (9 * 32768) (armed 0x80 Pkg.reset))
    pairOk p (.drt 3) 0x100 = true ∧ (∀ n, n ∈ portsOf 3 → (0x80 : Nat).testBit (portIdx n) = true → copyOk p n (standbyCopy p n) = true)
    ∧ (copySlots p 31 (standbyCopy p 31) 5).isEmpty = true ∧ (router p 2).armed = none ∧ stateOf (put_ .off [.prk 31, .drt 3] p) (.prk 31) = .off
    ∧ stateOf (put_ .off [.prk 31, .drt 3] p) (.drt 3) = .off := by decide
theorem witness_ContextCommandsAndRetirement_vector :
    let i := inst0 .vector (some Status.done)
    let j := { inst0 .vector none with id := 5, started := false }
    let p := { inState .running with insts := [i, j] }
    (instsOf p x0)[0]? = some i ∧ i.ended = some Status.done ∧ i.unit = .vector ∧ vecFree (retire p i Status.done) c0 = true
    ∧ vecNext (retire p i Status.done) c0 x0.ctx.val = some j
    ∧ (∀ k, k ∈ ({ p with insts := [i] } : Pkg).insts → k.ctx.core = c0 → k.unit = .vector → k.started = true ∨ k.ended.isSome = true) := by decide
theorem witness_StoreBanksAndFills_pairs :
    pairOk Pkg.reset (.core c0) 0x088 = true ∧ winPairsOk Pkg.reset (.core c0) = true ∧ pairOk Pkg.reset (.core c0) 0x408 = true := by decide
/-- A word whose core has no array cycle of this tick left waits for its turn; and a fetch in an asleep bank stops its context. -/
theorem witness_TaskControlAndScalarInstructions_fetch :
    (let p := prog nopW
     mayFetch p x0 = true ∧ pairSound p x0 .core = true ∧ checksTo (fetch p x0 (ctxOf p x0).pc) nopW = true
     ∧ mayTurn (withCtx x0 (fun x => { x with issuedAt := 100 }) p) x0 = false)
    ∧ (let p := withStore (.core c0) (fun x => { x with asleep := 1 }) (prog nopW)
       mayFetch p x0 = true ∧ (ctxOf p x0).wait = none ∧ checksErr (fetch p x0 (ctxOf p x0).pc) Status.refusedAsleep = true)
    ∧ mayTurn undefP x0 = true := by decide
theorem witness_CommonsInstructionsAndBudget_lines :
    (let p := prog cldW (cS 7) cmPkg
     pairOk p (cmnDie 0) 0x088 = true ∧ bits cldW 75 64 = 0xFFF ∧ bit cstW 24 = false ∧ p.bobs = [])
    ∧ (let r := { budgetReq with ticket := 1 }
       let p := { cmPkg with creqs := [r] }
       r.ticket ≠ 0 ∧ flowLine p 0 r.flow = [((0, r.id), r.ticket)] ∧ waitingTwins p 0 = [] ∧ pairOk p (cmnDie 0) 0x088 = true ∧ admits p r.payloadLen = true) := by decide
theorem witness_BobbinsQueueMoveAndEnd_pairs :
    (pairOk putP (.bob b0) 0x088 = true ∧ (handSpaces (descWord (readLocal putP (StoreId.base (.core c0) + 256 * 64) 64))).all (pairSound putP x0) = true)
    ∧ (let p := withDesc (.gateway 0) (descAt 3 false [] false) (on [.core c0, .bob (.gateway 0)])
       pairOk p (.bob (.gateway 0)) 0x088 = true ∧ p.creqs = [] ∧ p.insts = [] ∧ startHeld p (descAt 3 false [] false) = false ∧ p.inbox = [])
    ∧ (let p := withDesc (.gateway 0) (descAt 3 true [] true) (on [.bob (.gateway 0)])
       (((bobOf p (.gateway 0)).queueDescs 0).find? (fun x => x.isOver)).any (fun d => d.op == 3 && d.source == .posting) = true) := by decide
theorem witness_MillsAttendAndTest_held :
    (let p := withStack (fun x => { x with copy := some (copy0 1) }) (withMill (fun x => { x with queue := [millCmd (withCompl (leBytes 1 1 ++ [0] ++ leBytes 6 0 ++ List.replicate 24 0))] }) (on [.mill m0, .memc 0]))
     enabled p (.memc 0) = true ∧ (millOf p m0).run = none ∧ rowHeld p 0 (stackOffset 0 0 3 0) = true)
    ∧ rowHeld (on [.memc 0]) 0 (blkList attendBlk) = false
    ∧ (let p := withMill (fun x => { x with path := [millCmd testBlk] }) (on [.mill m0])
       (millOf p m0).path.find? (fun c => c.ctx.core == c0) = some (millCmd testBlk) ∧ enabled p (.memc m0.stack) = false)
    ∧ pairOk Pkg.reset (.mill m0) 0x088 = true := by decide
theorem witness_MapCommitAndLineRequests_held :
    let p := withStack (fun x => { x with copy := some (copy0 1) }) (on [.memc 0])
    pairOk p (.memc 0) 0x088 = true ∧ pairOk p (.memc 0) 0x090 = true ∧ enabled p (.memc 0) = true
    ∧ inRelief p 0 (stackOffset 0 0 3 0) = false ∧ rowHeld p 0 (stackOffset 0 0 3 0) = true ∧ rowHeld p 0 64 = false := by decide
theorem witness_TheEngineRunsItsInstructions_finished :
    (let r : EngineRun := ⟨mmaInst.id, 0, 0, 0, none, noTile, false⟩
     ((jobOf mmaInst).any (fun j => !r.finished j && decide (r.row < j.rows))) = true)
    ∧ (let r : EngineRun := ⟨mmaInst.id, 0, 1, 0, none, noTile, false⟩
       ((jobOf mmaInst).any (fun j => !r.finished j && decide (j.rows ≤ r.row))) = true)
    ∧ (let r : EngineRun := ⟨mmaInst.id, 1, 0, 0, none, noTile, false⟩
       ((jobOf mmaInst).any (fun j => r.finished j)) = true ∧ mmaInst.unit = .engine)
    ∧ ((jobOf mmaInst).any (fun j => (⟨mmaInst.id, 0, 0, 0, none, noTile, true⟩ : EngineRun).finished j)) = true
    ∧ pairOk (put_ .enabling [.core c0] Pkg.reset) (.core c0) 0x408 = true
    ∧ (let e : Engine := { engineOf Pkg.reset c0 with shadow := some { noTile with inst := mmaInst.id, pass := 1 } }
       e.shadow = some { noTile with inst := mmaInst.id, pass := 1 }) := by decide
/-- The unit runs another instruction. -/
theorem witness_ElementwiseVectorInstructions_queued :
    let p := prog (vecW 0x60 true) vS
    let q : Pkg := { p with insts := [inst0 .vector none], nextId := 9 }
    runnable q x0 (vecW 0x60 true) = true ∧ vecFree q c0 = false ∧ opOf (vecW 0x60 true) = 0x60 ∧ vecFree p c0 = true := by decide
theorem witness_StacksRepairRefreshAndCool_copies :
    (let p := withStack (fun x => { x with copy := some (copy0 1), heldAt := some 0, held := [⟨stackOffset 0 0 3 0, none, false, false, false, .clean⟩] }) (on [.memc 0])
     (stackOf p 0).heldAt = some 0 ∧ (∀ b ∈ p.bobs, activeOrder b.2 = []) ∧ poisoned p (0 * 2 ^ 36 + stackOffset 0 0 3 0 % 2 ^ 36) = false
     ∧ inRelief p 0 (stackOffset 0 0 3 0) = false)
    ∧ (let p := tickAt 1000000 (withStack (fun x => { x with nextBank := 3 }) (on [.memc 0]))
       (stackOf p 0).nextBank ≠ 0 ∧ (stackOf p 0).refreshAt + 3 * refreshTicks p 0 / 16 ≤ p.count ∧ (stackOf Pkg.reset 0).nextBank = 0
       ∧ pairOk p (.memc 0) 0x088 = true)
    ∧ bit (0x80000001 : Word) 31 = true := by decide
theorem witness_SelvageRingsLockAndRecalibrate_pairs :
    (let p := withRing ring0 (fun x => { x with state := .locked })
     ringLocked p se0 ring0 = true ∧ pairOk p (.sel 0) 0x088 = true ∧ (portOfPkg p (ringPort se0 ring0)).optic = .off
     ∧ pairOk (spoiled (.sel 0) 0x088 p) (.sel 0) 0x088 = false ∧ selOn (spoiled (.sel 0) 0x088 p) se0 = true)
    ∧ (let p := tickAt 100 (withPort 0 (fun x => { x with optic := .dark }) (withRing (ringNo 0 false 2) (fun x => { x with state := .locked })))
       let q := setSelPort p 0 { selPort p 0 with burstAt := some 0 }
       ringLocked p se0 (ringNo 0 false 2) = true ∧ ringLocked q se0 (ringNo 0 false 2) = false ∧ (ringOf q se0 (ringNo 0 false 2)).state = .locked)
    ∧ ((5 : Int).natAbs ≤ channelSteps ∧ -32768 ≤ ringOffset Pkg.reset se0 0 + 5 ∧ ringOffset Pkg.reset se0 0 + 5 ≤ 32767 ∧ channelSteps < (65536 : Int).natAbs)
    ∧ ((5 : Int).natAbs ≤ recalSteps ∧ recalSteps < (65536 : Int).natAbs) := by decide
theorem witness_SelvageLaserLightAndTables_dark :
    (let p := withPort 0 (fun x => { x with optic := .dark }) (withRing (ringNo 0 true 3) (fun x => { x with state := .locked }))
     (portOfPkg p 0).optic = .dark ∧ (ringOf p se0 (ringNo (portHalf 0) true 3)).state = .locked)
    ∧ (let p := withPort 0 (fun x => { x with optic := .dark }) (on [.sel 0, .lnk 0])
       ∀ l : Fin 16, (ringOf p se0 (ringNo (portHalf 0) true l)).busy = false ∧ ((ringOf p se0 (ringNo (portHalf 0) true l)).state = .parked
         ∨ (ringOf p se0 (ringNo (portHalf 0) true l)).state = .retired ∨ (ringOf p se0 (ringNo (portHalf 0) true l)).state = .off))
    ∧ pairOk Pkg.reset (.sel 0) 0x088 = true
    ∧ (let p := setReg (put_ .disabled [.sel 0] Pkg.reset) (.sel 0) 0x200 0xE0000000
       stateOf p (.sel 0) = .disabled ∧ bits (getReg p (.sel 0) 0x200) 30 29 = 3 ∧ bits (getReg (setReg p (.sel 0) 0x200 65) (.sel 0) 0x200) 12 0 % 65 = 0
       ∧ bit (getReg p (.sel 0) 0x200) 31 = true) := by decide
theorem witness_LinkTrainingAndLimits_align :
    (let p := tickAt 50000 (linkIn .align (fun x => { x with rxRing := 0xFFFF, txRing := 0x7FFF }))
     let x := portOfPkg p 0
     x.lstate = .align ∧ p.count ≤ x.stateAt + 50000 ∧ 15 ≤ popcount 16 x.rxRing.toNat ∧ 15 ≤ popcount 16 x.txRing.toNat)
    ∧ (let x := portOfPkg (linkIn .retrain (fun x => { x with aligning := true, rxRing := 0xFFFF, txRing := 0x7FFF })) 0
       x.lstate = .retrain ∧ x.aligning = true ∧ x.training = false)
    ∧ (let p := linkIn .negotiate
       (portOfPkg p 0).training = true ∧ (portOfPkg p 0).trainAt ≤ p.count ∧ pairOk p (.lnk 0) 0x088 = true ∧ pairOk p (.drt 0) 0x090 = true
       ∧ (portOfPkg p 0).gotStep ≠ 3 ∧ pairOk (spoiled (.lnk 0) 0x088 p) (.lnk 0) 0x088 = false ∧ stateOf (spoiled (.lnk 0) 0x088 p) (.lnk 0) ≠ .off)
    ∧ (portOfPkg (linkIn .up) 0).retrainAt = none := by decide
theorem witness_LinkWordsRetryAndFrames_line :
    (let x := portOfPkg (tickAt 64 (linkIn .up (fun x => { x with wordAt := 64, markAt := 64, restart := true }))) 0
     x.lstate ≠ .down ∧ x.wordAt ≤ 64 ∧ x.markAt ≤ 64 ∧ x.restart = true ∧ firstDiff x.txMap (x.txRing &&& x.peerRx) = none)
    ∧ (let p := linkIn .up (fun x => { x with busyUntil := 9, queue := [⟨f7, none⟩] })
       p.count < (portOfPkg p 0).busyUntil ∧ (portOfPkg p 0).lstate = .up)
    ∧ (let p := linkIn .up (fun x => { x with queue := [⟨f7, none⟩] })
       (portOfPkg p 0).busyUntil ≤ p.count ∧ (portOfPkg p 0).queue ≠ [] ∧ slotsSound p 0 = true ∧ (portOfPkg p 0).restart = false)
    ∧ (let p := withDbg (fun d => { d with margin := some (mrun 0x40000000 3 false) }) (linkIn .up)
       laneTested p 0 0 = true ∧ laneTested p 0 1 = false)
    ∧ carries (linkIn .up) (.drt 0) = true ∧ carries (put_ .disabled [.drt 0] (linkIn .up)) (.drt 0) = false
    ∧ ((portOfPkg (linkIn .up (fun x => { x with rxWait := [f7] })) 0).rxWait ≠ []) := by decide
/-- A copy in use whose listed entry fails its complement. -/
theorem witness_LinkWordsRetryAndFrames_slots :
    let p := withRg (fun r => { r with tables := [((.prk 0, (portOfPkg (linkIn .up) 0).active, 0), (0x8007, 0))] }) (linkIn .up (fun x => { x with queue := [⟨f7, none⟩] }))
    slotsSound p 0 = false ∧ stateOf p (.prk 0) ≠ .off ∧ (portOfPkg p 0).queue ≠ [] := by decide
theorem witness_RoutersCommitRouteAndIdentify_held :
    ((router Pkg.reset 0).inq = [] ∧ ∀ n, (portOfPkg Pkg.reset n).rxWait = [])
    ∧ (carries (linkIn .up (fun x => { x with rxWait := [f7] })) (.drt 0) = true ∧ carries Pkg.reset (.drt 0) = false)
    ∧ (let p := withInq ⟨f7, none⟩ (spoiled (.drt 0) 0x0A0 routed)
       lookupOk p 0 f7 = true ∧ portEnBad p 0 f7 = some 0 ∧ stateOf p (.drt 0) ≠ .off ∧ portEnBad routed 0 f7 = none)
    ∧ (let p := withRv (fun r => { r with sampler := some (smp true) }) (withInq ⟨f7, none⟩ routed)
       candidateBars p f7 = true ∧ passHolds p f7.dst f7 = false ∧ lookupOk p 0 f7 = true ∧ candidateBars routed f7 = false)
    ∧ (portOpen routed 0 = true ∧ portOpen Pkg.reset 0 = false ∧ copyOk routed 0 (activeCopy routed 0) = true)
    ∧ pairOk routed (.drt 0) 0x088 = true ∧ pairOk routed (.drt 0) 0x090 = true ∧ pairOk routed (.drt 0) 0x098 = true ∧ pairOk routed (.drt 0) 0x0B0 = true
    ∧ carries routed (.prk 0) = true := by decide
/-- A command packet for this package whose payload finds a slot, finds none, and needs none. -/
theorem witness_RoutersCommitRouteAndIdentify_landing :
    let f : Frame := { f7 with off := 4, dst := ownChip served0, payload := req 0x21 [] [1] }
    isCommand f = true ∧ f.last = true ∧ 64 < f.payload.length ∧ waitsForSlot f = true ∧ served0.inbox = []
    ∧ (landPlace served0 (landsAt ⟨deliveryDie served0 f, f, some 0, 0, none⟩).val).isSome = true
    ∧ landPlace Pkg.reset (landsAt ⟨deliveryDie served0 f, f, some 0, 0, none⟩).val = none
    ∧ waitsForSlot { f with payload := req 1 [] [] } = false := by decide +kernel
theorem witness_CommonsAccessesServed_late :
    (let x : Delivered := ⟨0, { (dlv 4 64 5 0 (List.replicate 64 1)).frame with cls := 1, flow := 5 }, some 0, 0, none⟩
     let p := bellAt 9 (served x)
     p.inbox.find? (isKind 0 4) = some x ∧ pastDue p x.frame = true ∧ pastDue (bellAt 5 p) x.frame = false)
    ∧ (let x : Delivered := ⟨0, { (dlv 5 64 5 0 (leBytes 2 64 ++ List.replicate 6 0)).frame with cls := 1, flow := 5 }, some 0, 0, none⟩
       pastDue (bellAt 9 (served x)) x.frame = true ∧ (served x).inbox.find? (isKind 0 5) = some x)
    ∧ (let x : Delivered := ⟨0, { (dlv 6 64 5 0 (atomPl false)).frame with cls := 1, flow := 5 }, some 0, 0, none⟩
       pastDue (bellAt 9 (served x)) x.frame = true)
    ∧ (let x := dlv 4 64 0 0 (List.replicate 64 1)
       let p := withStack (fun y => { y with copy := some ⟨0, 0, 0, 1, 2, 0⟩ }) (served x)
       pastDue p x.frame = false ∧ dramHeld p 64 (accessLen x.frame) = dramHeld p 64 64 ∧ dramHeld (served x) 64 (accessLen x.frame) = false) := by decide
/-- The row of offset 0, under a copy. -/
theorem witness_CommonsAccessesServed_held :
    let x := dlv 4 0 0 0 (List.replicate 64 1)
    let p := withStack (fun y => { y with copy := some ⟨chanOf 0, dramBankOf 0, rowOf 0, 1, 2, 0⟩ }) (served x)
    p.inbox.find? (isKind 0 4) = some x ∧ pastDue p x.frame = false ∧ dramHeld p x.frame.off (accessLen x.frame) = true
    ∧ (let y := dlv 5 0 0 0 (leBytes 2 64 ++ List.replicate 6 0)
       let q : Pkg := { p with inbox := [y] }
       q.inbox.find? (isKind 0 5) = some y ∧ dramHeld q y.frame.off (accessLen y.frame) = true) := by decide
theorem witness_CommonsRequestsEndAndWait_pairs :
    pairOk cmPkg (cmnDie 0) 0x088 = true ∧ (7 : Chip) ≠ ownChip cmPkg ∧ inDomain cmPkg (cmnDie 0) 7 = true ∧ enabled cmPkg (.drt 0) = true := by decide
theorem witness_FencesAndQuarantine_pairs :
    pairOk (bellAt 4096 (setReg (setReg (on [.cmn 4] routed) (.cmn 4) 0x090 0x10) (.cmn 4) 0x094 (~~~0x10))) hubCmn 0x090 = true
    ∧ pairOk (bellAt 4096 (on [.cmn 4] routed)) (.cmn 4) 0x008 = true := by decide
theorem witness_CollectivesMoveFoldAndConclude_late :
    (let x : Delivered := ⟨0, ⟨7, 1, false, false, 0, 0, 5, 9, 0, 0x400, 0, [1, 2], 0⟩, none, 0, none⟩
     let p := bellAt 10 { withInst inst1 with inbox := [x] }
     p.inbox.find? (fun x => x.die == 0 && x.frame.kind == 7 && !x.frame.last) = some x ∧ pastDue p x.frame = true ∧ pastDue (bellAt 9 p) x.frame = false
     ∧ dramHeld p x.frame.off (accessLen x.frame) = false)
    ∧ (let b := controlPayload 4 1 0 0 0x3FF false true 1 0 0 Status.doneWsRange 0
       leField b 12 2 = Status.doneWsRange.toNat ∧ complOk 32 b = true ∧ inst1.concluded = false) := by decide
theorem witness_PacketsCheckedInOrder_slots :
    let x : Delivered := ⟨0, { f7 with off := 4, last := false }, none, 0, some (4, 2)⟩
    let p := tickAt 70000 { served0 with inbox := [x] }
    (p.inbox.find? (fun x => carriesPacket x && !x.frame.last && decide (x.at_ + 65536 ≤ p.count)
       && !(p.inbox.any (fun y => followsOn x y && decide (y.at_ < x.at_ + 65536))))) = some x ∧ x.slot = some (4, 2) := by decide
theorem witness_BootImagesAndUnlocks_tap :
    (let p := withDbg (fun d => { d with ir := 4 }) Pkg.reset
     p.dbg.ir = 4 ∧ p.boot.scope.testBit 5 = false ∧ p.boot.stage = .held)
    ∧ (withDbg (fun d => { d with ir := 4 }) served0).boot.stage ≠ .held ∧ (8 : Nat).testBit 5 = false := by decide
theorem witness_JobDataQueriesAndMaintenance_guests : guestHolds served5 0x20000 8 = false ∧ guestHolds served0 0x20000 8 = false := by decide
theorem witness_SamplersJoinJudgeAndAdmit_barred :
    beginBarred [0, 1, 2] = true ∧ beginBarred [0, dayTicks] = false ∧ beginBarred [0, 1, dayTicks] = false := by decide
theorem witness_PhaseChangesStopReshardAndStart_windows :
    let p := changing 198 (chg 1 none)
    200 ≤ roundNow p + 2 ∧ (chg 1 none).stage = 1 ∧ windowEntries p (chg 1 none) = [] := by decide
theorem witness_CaselmWorksByItself_chip :
    (let p := withBoot (fun b => { b with chip := some 5 }) (tickAt 1000000 served0)
     p.boot.chip = some 5 ∧ chipAssigned p = false ∧ (∀ d, stateOf p (.drt d) = .disabled) ∧ p.rv.sampler = none ∧ p.rv.job = none)
    ∧ served0.boot.chip = none ∧ pairOk served0 .reeve 0x088 = true
    ∧ (let p := withStore (.core c0) (fun x => { x with errs := [(2, true, 0), (2, true, 0)] }) served0
       bankErrs p (.core c0) 2 true = 2 ∧ 2 < StoreId.banks (.core c0) ∧ p.retired.contains c0 = false ∧ (∀ b : Fin 64, bankErrs served0 (.core c0) b.val true < 2))
    ∧ (let p := withStore (.cluster 0 1) (fun x => { x with errs := List.replicate 16 (3, false, 0) }) served0
       bankErrs p (.cluster 0 1) 3 false = 16 ∧ 3 < StoreId.banks (.cluster 0 1) ∧ p.rv.withdrawn.contains (0, 1) = false)
    ∧ (let p := setBlock served0 (.memc 2) { block served0 (.memc 2) with evt := 1 <<< 26 }
       bit (block p (.memc 2)).evt 26 = true ∧ bit (block served0 (.memc 2)).evt 26 = false) := by decide +kernel
/-- An uncorrectable line of a mirrored range, whose restore is posted already; and a restore that a loss of the rail left. -/
theorem witness_RestoresAndRemirrorCopies_pages :
    (let p := setReg (on [.memc 0]) (.memc 0) 0x0A0 0xC0000000
     let q := setBlock p (.memc 0) { block p (.memc 0) with evt := 1 <<< 17 }
     ueHeld q 0 = true ∧ ueHeld p 0 = false)
    ∧ Map.look (withRv (fun r => { r with restoring := [(0, 5)] }) served0).rv.restoring 0 = some 5
    ∧ Status.refusedOffline ≠ Status.refusedFull := by decide
theorem witness_PowerTransitionsEnterAndExit_pairs :
    (let p := on [.pwr]
     (5 ≤ bits (5 : Word) 2 0) ∧ pairOk p .pwr 0x088 = true ∧ pairOk (spoiled .pwr 0x088 p) .pwr 0x088 = false ∧ stateOf (spoiled .pwr 0x088 p) .pwr ≠ .off)
    ∧ (let p := withPw (fun w => { w with forcedDue := true }) served0
       p.pw.forcedDue = true ∧ p.boot.stage = .caselm ∧ served0.pw.forcedDue = false)
    ∧ (pairOk Pkg.reset .hrth 0x088 = true ∧ pairOk Pkg.reset .hrth 0x090 = true)
    ∧ (let p := withPw (fun w => { w with die := [(0, 2)] }) Pkg.reset
       dieState p (dieOfPort 0) = 2 ∧ p.pw.p3 = false ∧ dieState Pkg.reset (dieOfPort 0) ≠ 2)
    ∧ (domainPages (.die 0)).all (fun g => pairOk Pkg.reset g 0x008) = true := by decide +kernel
theorem witness_SensorsThrottleAndTrips_fresh :
    (let p := withPins (fun x => { x with losses := [(.die 0, [5])] }) (withPw (fun w => { w with cut := [.die 0] }) (tickAt 10004 Pkg.reset))
     p.pw.cut.contains (.die 0) = true ∧ lossFresh p (.die 0) = true ∧ lossFresh (tickAt 10005 p) (.die 0) = false)
    ∧ (let p := withPins (fun x => { x with losses := [(.hub, [5])] }) (withPw (fun w => { w with cut := [.hub] }) (tickAt 10004 Pkg.reset))
       p.pw.cut.contains .hub = true ∧ lossFresh p .hub = true ∧ lossFresh (tickAt 10005 p) .hub = false)
    ∧ (let p := withPins (fun x => { x with losses := [(.stack 0, [5])] }) (withStack (fun x => { x with tripped := true }) (tickAt 10004 Pkg.reset))
       (stackOf p 0).tripped = true ∧ lossFresh p (.stack 0) = true ∧ lossFresh (tickAt 10005 p) (.stack 0) = false)
    ∧ pairOk (on [.thrm 0]) (.thrm 0) 0x088 = true := by decide
theorem witness_StitchLinksAndGuests_pairs :
    (let p := spoiled (.stch (.hub 0)) 0x088 (on [.stch (.hub 0)])
     inService p (.stch (.hub 0)) = true ∧ (stitchOf p (.hub 0)).gone.testBit 15 = false ∧ (stitchOf p (.hub 0)).mods.testBit 15 = false
     ∧ pairOk p (.stch (.hub 0)) 0x088 = false ∧ pairOk (on [.stch (.hub 0)]) (.stch (.hub 0)) 0x088 = true)
    ∧ (let p := spoiled (.thim 0) 0x090 guestP
       enabled p (.thim 0) = true ∧ thimPairsOk p 0 = false)
    ∧ inService guestP (.thim 0) = true ∧ inService guestP (.thim 1) = false
    ∧ (let p := setThim (tickAt 2000 guestP) 0 { thimOf guestP 0 with snoops := [(1, true, 0)], dir := [(1, true)] }
       (∀ e ∈ (thimOf p 0).snoops, e.2.2 + 2000 ≤ p.count) ∧ (∀ e ∈ (thimOf (tickAt 1999 p) 0).snoops, (tickAt 1999 p).count < e.2.2 + 2000)
       ∧ guestHolds p 64 8 = true ∧ guestHolds guestP 64 8 = false)
    ∧ (bits (0xFFFB000000000001 : DWord) 2 0 = 1 ∧ StitchId.guest 0 = .guest 0 ∧ (0xC02 : Nat) % 4 ≠ 0 ∧ (0xC04 : Nat) % 4 = 0)
    ∧ (∀ h : Fin 2, h ≠ 0 → guestLines guestP h 64 8 = []) := by decide
theorem witness_PinsRailsAndResets_guests :
    (let p := withPins (fun x => { x with guestEn := [0], guestAt := 5 }) (tickAt 1000004 Pkg.reset)
     p.count < p.pins.guestAt + 1000000 ∧ p.pins.guestAt + 1000000 ≤ (tickAt 1000005 p).count) := by decide
theorem witness_MarginRunsSweepBothSides_lanes :
    (pairOk Pkg.reset .dbg 0x100 = true ∧ pairOk Pkg.reset .dbg 0x108 = true)
    ∧ (let m : Margin := ⟨0x40000000, 0x0200, true, 2, [(3, 1)], [], 0, none, 3, []⟩
       testLanes m = [3] ∧ bits m.tgt 31 30 = 1 ∧ m.lane + 1 < 16 ∧ (∀ i, i ∈ testLanes m → (Map.look m.edges i).isSome = true ∨ i ∈ ([] : List Nat)))
    ∧ (let m : Margin := ⟨0, 0x0200, false, 1, [], [], 0, none, 0, []⟩
       m.held = none ∧ bits m.tgt 31 30 = 0 ∧ stackNo (bits m.tgt 29 22) = some 0 ∧ ¬(∀ i, i ∈ testLanes m → (Map.look m.edges i).isSome = true ∨ i ∈ ([] : List Nat))) := by decide
end Sys2Proof.Tests
end

/-! PROOFS, the scope of a command's outcome: every command but a permitted private JTAG instruction acts on the package alone. -/
namespace Sys2Proof.Machine
open Sys2Proof

/-- Whatever the meaning f does to the package, acting by it completes with the waiting commands as they were. -/
theorem act_keeps_pending (s : State) (f : Pkg → Pkg) : ∃ t, act s f = .next t ∧ t.pending = s.pending := ⟨_, rfl, rfl⟩

/-- The meaning of each of these commands is a change of the package: an item that fails gets a status (R12), and nothing stops. -/
theorem exec_eq_act_of_ne_jtagPrivate (c : Instr) (s : State) (h : ∀ code, c ≠ .jtagPrivate code) : ∃ f, exec c s = act s f := by
  cases c
  case jtagPrivate code => exact absurd rfl (h code)
  all_goals
    dsimp only [exec]
    exact ⟨_, rfl⟩

/-- R491 permits a private code by scope bit 5 and gives it no effect, so the model refuses it by name (log entry 25). -/
theorem exec_jtagPrivate_of_permitted {code : BitVec 8} {s : State} (h : 0x80 ≤ code.toNat ∧ code.toNat ≤ 0xFE ∧ s.pkg.boot.scope.testBit 5) :
    exec (.jtagPrivate code) s = .refused .jtagPrivate := if_pos h

/-- A code that is not permitted is taken as BYPASS with jtag_refused (R491). -/
theorem exec_jtagPrivate_of_not_permitted {code : BitVec 8} {s : State}
    (h : ¬(0x80 ≤ code.toNat ∧ code.toNat ≤ 0xFE ∧ s.pkg.boot.scope.testBit 5)) : exec (.jtagPrivate code) s = act s jtagRefused := if_neg h

/-- Settles O7: a private instruction by whether it is permitted, every other command by `exec_eq_act_of_ne_jtagPrivate`. -/
theorem onlyPrivateJtagStops : Obligations.OnlyPrivateJtagStops := by
  intro c s
  by_cases hc : ∃ code, c = .jtagPrivate code
  · obtain ⟨code, rfl⟩ := hc
    by_cases hp : 0x80 ≤ code.toNat ∧ code.toNat ≤ 0xFE ∧ s.pkg.boot.scope.testBit 5
    · have ⟨_, _, hscope⟩ := hp
      exact .inr ⟨code, rfl, hscope, exec_jtagPrivate_of_permitted hp⟩
    · left
      rw [exec_jtagPrivate_of_not_permitted hp]
      exact act_keeps_pending s jtagRefused
  · obtain ⟨f, hf⟩ := exec_eq_act_of_ne_jtagPrivate c s (not_exists.mp hc)
    left
    rw [hf]
    exact act_keeps_pending s f

end Sys2Proof.Machine

/-! PROOFS, command packets: how a packet leaves where it stood, how its reply goes out, and the checks between (R209, R370–R372). -/
namespace Sys2Proof.Machine
open Sys2Proof

/-! ## What a frame says of one register or block -/

theorem block_of_keepsBut {l : List Part} {p q : Pkg} (h : keepsBut l p q) (hl : Part.blocks ∉ l) (g : Page) : block q g = block p g := by
  have e : q.rg.blocks = p.rg.blocks := h .blocks hl
  rw [block, block, e]

theorem getReg_of_keepsBut {l : List Part} {p q : Pkg} (h : keepsBut l p q) (hl : Part.regs ∉ l) (g : Page) (o : Nat) :
    getReg q g o = getReg p g o := by
  have e : q.rg.regs = p.rg.regs := h .regs hl
  rw [getReg, getReg, e]

theorem getReg64_of_keepsBut {l : List Part} {p q : Pkg} (h : keepsBut l p q) (hl : Part.regs ∉ l) (g : Page) (o : Nat) :
    getReg64 q g o = getReg64 p g o := by
  rw [getReg64, getReg64, getReg_of_keepsBut h hl g o, getReg_of_keepsBut h hl g (o + 4)]

theorem getReg64_of_regsBut {l : List (Page × Nat)} {p q : Pkg} (h : regsBut l p q) {g : Page} {o : Nat} (hlo : (g, o) ∉ l)
    (hhi : (g, o + 4) ∉ l) : getReg64 q g o = getReg64 p g o := by
  rw [getReg64, getReg64, h g o hlo, h g (o + 4) hhi]

theorem regsBut_trans {l : List (Page × Nat)} {p q r : Pkg} (h : regsBut l p q) (k : regsBut l q r) : regsBut l p r :=
  fun g o ho => (k g o ho).trans (h g o ho)

theorem blocksBut_trans {l : List Page} {p q r : Pkg} (h : blocksBut l p q) (k : blocksBut l q r) : blocksBut l p r :=
  fun g hg => (k g hg).trans (h g hg)

theorem regsBut_mono {l m : List (Page × Nat)} {p q : Pkg} (h : regsBut l p q) (k : ∀ x, x ∈ l → x ∈ m) : regsBut m p q :=
  fun g o ho => h g o (fun hl => ho (k _ hl))

theorem blocksBut_mono {l m : List Page} {p q : Pkg} (h : blocksBut l p q) (k : ∀ x, x ∈ l → x ∈ m) : blocksBut m p q :=
  fun g hg => h g (fun hl => hg (k g hl))

theorem keepsBut_inbox (p : Pkg) (l : List Delivered) : keepsBut [.inbox] p { p with inbox := l } := by
  intro x hx
  cases x
  case inbox => exact absurd List.mem_cons_self hx
  all_goals rfl

theorem keepsBut_pw (p : Pkg) (w : Power) : keepsBut [.pw] p { p with pw := w } := by
  intro x hx
  cases x
  case pw => exact absurd List.mem_cons_self hx
  all_goals rfl

theorem keepsBut_rv (p : Pkg) (v : Reeve) : keepsBut [.rv] p { p with rv := v } := by
  intro x hx
  cases x
  case rv => exact absurd List.mem_cons_self hx
  all_goals rfl

/-- A command whose row acts by f completes with what f makes of the package, the alert pins settled. -/
theorem completes_act {i : Instr} {s : State} {f : Pkg → Pkg} {P : Pkg → Prop} (h : exec i s = act s f) (hp : P (settle (f s.pkg))) :
    Completes i s P := ⟨_, h, rfl, hp⟩

/-- A row that changes nothing of the package moves at most the alert pins. -/
theorem completes_unchanged {i : Instr} {s : State} {f : Pkg → Pkg} (h : exec i s = act s f) (hf : f s.pkg = s.pkg) :
    Completes i s (fun q => keepsBut [] s.pkg q) :=
  completes_act h (by rw [hf]; exact keepsBut_settle (keepsBut_refl [] s.pkg))

/-! ## Landing slots and receive buffers (R209, R287) -/

theorem freeUnits_keeps (p : Pkg) (ri : RouterIn) : keepsBut [.ports] p (freeUnits p ri) := by
  unfold freeUnits
  split
  · exact keepsBut_refl _ p
  · dsimp only
    split
    · exact setPort_keeps _ _ _
    · exact keepsBut_refl _ p

/-- Freed units change the credits of the arrival port alone. -/
theorem portOfPkg_freeUnits_other (p : Pkg) (ri : RouterIn) (n : Fin 32) (h : ri.arrival ≠ some n) :
    portOfPkg (freeUnits p ri) n = portOfPkg p n := by
  unfold freeUnits
  split
  · rfl
  case h_2 m hm =>
    have hn : n ≠ m := fun e => h (e ▸ hm)
    dsimp only
    split
    · exact Map.getD_put_other _ _ _ _ _ hn
    · rfl

theorem fillSlot_keeps (p : Pkg) (k : Fin 8) (n : Nat) (b : List Byte) : keepsBut [.bobs] p (fillSlot p k n b) := setBob_keeps _ _ _
theorem dropSlot_keeps (p : Pkg) (k : Fin 8) (n : Nat) : keepsBut [.bobs] p (dropSlot p k n) := setBob_keeps _ _ _

theorem bobOf_dropSlot_same (p : Pkg) (k : Fin 8) (n : Nat) :
    bobOf (dropSlot p k n) (.gateway k) = { bobOf p (.gateway k) with slots := Map.drop (bobOf p (.gateway k)).slots n } :=
  Map.getD_put_same _ _ _ _
theorem bobOf_dropSlot_other (p : Pkg) (k : Fin 8) (n : Nat) (b : BobId) (h : b ≠ .gateway k) : bobOf (dropSlot p k n) b = bobOf p b :=
  Map.getD_put_other _ _ _ _ _ h

theorem landOne_keeps (p : Pkg) (before : List Delivered) (x : Delivered) (after : List Delivered) :
    keepsBut [.bobs, .ports] p (landOne p before x after).1 := by
  unfold landOne
  split
  · exact keepsBut_refl _ p
  · split
    · rename_i b k n _ _
      have hfill := keepsBut_trans (keepsBut_mono (fillSlot_keeps p k n (b.drop 64)) (m := [.bobs, .ports]) (by decide))
        (keepsBut_mono (freeUnits_keeps (fillSlot p k n (b.drop 64)) ⟨x.frame, x.arrival⟩) (by decide))
      dsimp only
      split
      · exact keepsBut_trans hfill (keepsBut_mono (freeUnits_keeps _ _) (by decide))
      · exact hfill
    · exact keepsBut_refl _ p

theorem landAll_keeps (l : List Delivered) : ∀ (before : List Delivered) (p : Pkg), keepsBut [.inbox, .bobs, .ports] p (landAll before l p) := by
  induction l with
  | nil => exact fun before p => keepsBut_mono (keepsBut_inbox p before) (by decide)
  | cons x r ih =>
    intro before p
    exact keepsBut_trans (keepsBut_mono (landOne_keeps p before x r) (by decide)) (ih _ _)

theorem landWaiting_keeps (p : Pkg) : keepsBut [.inbox, .bobs, .ports] p (landWaiting p) := landAll_keeps _ _ _

/-! ## A packet taken -/

/-- What the taking of a packet may touch: where packets and payloads stand, and the tallies of the management page. -/
structure Taken (p r : Pkg) : Prop where
  keeps : keepsBut [.inbox, .pw, .blocks, .bobs, .ports] p r
  blocks : blocksBut [.mgmt] p r
  states : ∀ g, stateOf r g = stateOf p g

theorem Taken.of_keepsBut {p r : Pkg} (h : keepsBut [.inbox, .pw, .bobs, .ports] p r) : Taken p r where
  keeps := keepsBut_mono h (by decide)
  blocks g _ := block_of_keepsBut h (by decide) g
  states g := by rw [stateOf, stateOf, block_of_keepsBut h (by decide) g]

theorem Taken.tallyIn {p r : Pkg} (h : Taken p r) (n : Nat) : Taken p (tallyIn r .mgmt n) where
  keeps := keepsBut_trans h.keeps (keepsBut_mono (tallyIn_keeps _ _ _) (by decide))
  blocks := blocksBut_setBlock _ _ (by decide) h.blocks
  states g := (stateOf_tallyIn ..).trans (h.states g)

theorem Taken.tallyOut {p r : Pkg} (h : Taken p r) (n : Nat) : Taken p (tallyOut r .mgmt n) where
  keeps := keepsBut_trans h.keeps (keepsBut_mono (tallyOut_keeps _ _ _) (by decide))
  blocks := blocksBut_setBlock _ _ (by decide) h.blocks
  states g := (stateOf_tallyOut ..).trans (h.states g)

/-- A packet of the optical ports leaves the inbox; its slot is freed, and packets that waited for slots may land. -/
theorem taken_of_fabric {p r : Pkg} {pk : Packet} {path : Nat} (h : takePacket p .fabric = some (pk, path, r)) : Taken p r := by
  have hland : keepsBut [.inbox, .pw, .bobs, .ports] p (landWaiting p) := keepsBut_mono (landWaiting_keeps p) (by decide)
  have hleft (l : List Delivered) : keepsBut [.inbox, .pw, .bobs, .ports] p { landWaiting p with inbox := l } :=
    keepsBut_trans hland (keepsBut_mono (keepsBut_inbox _ l) (by decide))
  apply Taken.of_keepsBut
  unfold takePacket at h
  split at h
  · cases h
  · dsimp only at h
    split at h
    · cases h
    · split at h
      · cases h
        exact keepsBut_trans (keepsBut_trans (hleft _) (keepsBut_mono (dropSlot_keeps _ _ _) (by decide)))
          (keepsBut_mono (landWaiting_keeps _) (by decide))
      · cases h
        exact hleft _
      · cases h

theorem taken_of_takePacket {p r : Pkg} {src : CmdSrc} {pk : Packet} {path : Nat} (h : takePacket p src = some (pk, path, r)) : Taken p r := by
  cases src with
  | fabric => exact taken_of_fabric h
  | mgmt b =>
    unfold takePacket at h
    simp only [Option.ite_none_left_eq_some, Option.ite_none_right_eq_some] at h
    obtain ⟨_, _, h⟩ := h
    cases h
    exact ((Taken.of_keepsBut (keepsBut_refl _ p)).tallyIn 1).tallyOut 1
  | i3c b =>
    unfold takePacket at h
    simp only [Option.ite_none_left_eq_some] at h
    obtain ⟨_, h⟩ := h
    cases h
    exact ((Taken.of_keepsBut (keepsBut_refl _ p)).tallyIn 1).tallyOut 1
  | held =>
    have hleft (w : Power) : Taken p { p with pw := w } := Taken.of_keepsBut (keepsBut_mono (keepsBut_pw p w) (by decide))
    unfold takePacket at h
    simp only [Option.ite_none_left_eq_some] at h
    obtain ⟨_, h⟩ := h
    split at h
    · simp only [Option.ite_none_right_eq_some] at h
      obtain ⟨_, h⟩ := h
      cases h
      exact (hleft _).tallyOut 1
    · cases h
      exact (hleft _).tallyOut 1
    · cases h

/-! ## Frames handed to a router -/

/-- A control frame that a carrying router takes stands at the end of its input, and the router counts it. -/
theorem inject_of_carries {p : Pkg} {d : Fin 4} {f : Frame} (hd : carries p (.drt d) = true) (hf : f.kind = 3) :
    inject p d f = tallyIn (setRouter p d { router p d with inq := (router p d).inq ++ [⟨f, none⟩] }) (.drt d) 1 := by
  simp [inject, hd, hf]

/-- Frames have been handed to the router of one die, in order. -/
structure Injected (p q : Pkg) (d : Fin 4) (fs : List Frame) : Prop where
  keeps : keepsBut [.routers, .blocks] p q
  blocks : blocksBut [.drt d] p q
  states : ∀ g, stateOf q g = stateOf p g
  inq : ∀ e, (router q e).inq = (router p e).inq ++ (if some d = some e then fs.map (fun f => (⟨f, none⟩ : RouterIn)) else [])

theorem injected_nil (p : Pkg) (d : Fin 4) : Injected p p d [] :=
  ⟨keepsBut_refl _ p, blocksBut_refl _ p, fun _ => rfl, fun e => by simp⟩

theorem injected_one {p : Pkg} {d : Fin 4} {f : Frame} (hd : carries p (.drt d) = true) (hf : f.kind = 3) : Injected p (inject p d f) d [f] := by
  rw [inject_of_carries hd hf]
  refine ⟨keepsBut_trans (keepsBut_mono (setRouter_keeps _ _ _) (by decide)) (keepsBut_mono (tallyIn_keeps _ _ _) (by decide)),
    blocksBut_setBlock _ _ (by simp) (blocksBut_refl _ p), fun g => stateOf_tallyIn _ _ _ _, fun e => ?_⟩
  by_cases he : d = e
  · subst he
    simp [router, tallyIn, setRouter]
  · simp [router, tallyIn, setRouter, he, Map.getD_put_other _ _ _ _ _ (Ne.symm he)]

theorem Injected.append {p q r : Pkg} {d : Fin 4} {fs gs : List Frame} (h : Injected p q d fs) (k : Injected q r d gs) :
    Injected p r d (fs ++ gs) where
  keeps := keepsBut_trans h.keeps k.keeps
  blocks := blocksBut_trans h.blocks k.blocks
  states g := (k.states g).trans (h.states g)
  inq e := by
    rw [k.inq e, h.inq e]
    split <;> simp

theorem carries_congr {p q : Pkg} (h : ∀ g, stateOf q g = stateOf p g) (g : Page) : carries q g = carries p g := by
  simp only [carries, h]

theorem replyDie_congr {p q : Pkg} (h : ∀ g, stateOf q g = stateOf p g) : replyDie q = replyDie p := by
  simp only [replyDie, carries_congr h]

theorem carries_of_replyDie {p : Pkg} {d : Fin 4} (h : replyDie p = some d) : carries p (.drt d) = true :=
  List.find?_some (p := fun d => carries p (.drt d)) h

theorem injected_foldl {d : Fin 4} : ∀ (fs : List Frame) (p : Pkg), carries p (.drt d) = true → (∀ f, f ∈ fs → f.kind = 3) →
    Injected p (fs.foldl (fun q f => inject q d f) p) d fs
  | [], p, _, _ => injected_nil p d
  | f :: fs, p, hd, hfs => by
    have hone := injected_one hd (hfs f List.mem_cons_self)
    exact hone.append (injected_foldl fs _ ((carries_congr hone.states _).trans hd) (fun g hg => hfs g (List.mem_cons_of_mem f hg)))

/-! ## The bytes of a reply on their path (R370) -/

theorem kind_of_packetFrames {p : Pkg} {k : CmdKey} {b : List Byte} {f : Frame} (h : f ∈ packetFrames p k b) : f.kind = 3 := by
  unfold packetFrames at h
  dsimp only at h
  split at h
  · simp only [List.mem_singleton] at h
    rw [h]
    rfl
  · simp only [List.mem_cons, List.not_mem_nil, or_false] at h
    rcases h with rfl | rfl <;> rfl

/-- Bytes have gone out on a packet's path, and nothing else is changed: the counts of the router that takes them and the frames that wait
for one belong to it. -/
structure BytesSent (p q : Pkg) (pk : Packet) (path : Nat) (b : List Byte) : Prop where
  keeps : keepsBut [.rv, .blocks, .out, .routers] p q
  blocks : blocksBut ((replyDie p).toList.map Page.drt) p q
  rv : q.rv = { p.rv with unsent := q.rv.unsent }
  out : puts (if path = 0 then [] else [.packet path b]) p q
  frames : framesLeave p q pk path b

theorem bytesSent_sendBytes (p : Pkg) (pk : Packet) (path : Nat) (b : List Byte) : BytesSent p (sendBytes p (keyOf pk path) b) pk path b := by
  by_cases hpath : path = 0
  · subst hpath
    cases hdie : replyDie p with
    | some d =>
      have hsend : sendBytes p (keyOf pk 0) b = (packetFrames p (keyOf pk 0) b).foldl (fun q f => inject q d f) p := by
        simp [sendBytes, hdie, keyOf]
      have hinj := injected_foldl (packetFrames p (keyOf pk 0) b) p (carries_of_replyDie hdie) (fun _ hf => kind_of_packetFrames hf)
      rw [← hsend] at hinj
      have hrv : (sendBytes p (keyOf pk 0) b).rv = p.rv := hinj.keeps .rv (by decide)
      have hout : (sendBytes p (keyOf pk 0) b).out = p.out := hinj.keeps .out (by decide)
      exact
        { keeps := keepsBut_mono hinj.keeps (by decide)
          blocks := by simpa [hdie] using hinj.blocks
          rv := by rw [hrv]
          out := by simp [puts, hout]
          frames := ⟨fun e => by simpa [hdie] using hinj.inq e, by simp [hdie, hrv]⟩ }
    | none =>
      have hsend : sendBytes p (keyOf pk 0) b = { p with rv := { p.rv with unsent := p.rv.unsent ++ packetFrames p (keyOf pk 0) b } } := by
        simp [sendBytes, hdie, keyOf]
      rw [hsend]
      exact
        { keeps := keepsBut_mono (keepsBut_rv p _) (by decide)
          blocks := blocksBut_refl _ p
          rv := rfl
          out := by simp [puts]
          frames := ⟨fun e => by simp [hdie, router], by simp [hdie]⟩ }
  · have hsend : sendBytes p (keyOf pk path) b = emit p (.packet path b) := by simp [sendBytes, keyOf, hpath]
    rw [hsend]
    exact
      { keeps := keepsBut_mono (emit_keeps _ _) (by decide)
        blocks := blocksBut_refl _ p
        rv := rfl
        out := by simp [puts, hpath, emit]
        frames := ⟨fun e => by simp [hpath, router], by simp [hpath]⟩ }

/-- The frames of a reply depend on the state of the routers, their inputs, the chip's number and the frames that wait already. -/
theorem framesLeave_congr {p x q r : Pkg} {pk : Packet} {path : Nat} {b : List Byte} (h : framesLeave x q pk path b)
    (hstate : ∀ g, stateOf x g = stateOf p g) (hchip : ownChip x = ownChip p) (hin : x.routers = p.routers) (hun : x.rv.unsent = p.rv.unsent)
    (hin' : r.routers = q.routers) (hun' : r.rv.unsent = q.rv.unsent) : framesLeave p r pk path b := by
  simpa only [framesLeave, packetFrames, controlFrame, router, replyDie_congr hstate, hchip, hin, hun, hin', hun'] using h

/-! ## A packet accepted, and its reply (R371) -/

/-- The package as it accepts a packet that has been taken: CMD_ACCEPTED and Reeve's tally count it. -/
def accepted (r : Pkg) : Pkg := tallyIn (bump r .reeve 0x100 1) .reeve 1

theorem accepted_keeps (r : Pkg) : keepsBut [.regs, .blocks] r (accepted r) :=
  keepsBut_trans (keepsBut_mono (bump_keeps r .reeve 0x100 1) (by decide)) (keepsBut_mono (tallyIn_keeps _ _ _) (by decide))

/-- A packet of p has been taken and accepted; the counters of l are the only registers of the package that may have moved. -/
structure Accepted (l : List (Page × Nat)) (p x : Pkg) : Prop where
  keeps : keepsBut [.inbox, .pw, .bobs, .ports, .regs, .blocks] p x
  blocks : blocksBut [.reeve, .mgmt] p x
  regs : regsBut l p x
  states : ∀ g, stateOf x g = stateOf p g
  tin : (block x .reeve).tin = (block p .reeve).tin + 1
  tout : (block x .reeve).tout = (block p .reeve).tout
  count : gains 1 p x .reeve 0x100

theorem accepted_of_taken {p r : Pkg} (h : Taken p r) : Accepted [(.reeve, 0x100), (.reeve, 0x104)] p (accepted r) where
  keeps := keepsBut_trans (keepsBut_mono h.keeps (by decide)) (keepsBut_mono (accepted_keeps r) (by decide))
  blocks := blocksBut_setBlock _ _ (by decide) (blocksBut_mono h.blocks (by decide))
  regs := regsBut_bump _ _ _ (by decide) (by decide) (fun g o _ => getReg_of_keepsBut h.keeps (by decide) g o)
  states g := (stateOf_tallyIn ..).trans (h.states g)
  tin := by
    rw [accepted, tin_tallyIn, block_bump, h.blocks .reeve (by decide)]
    rfl
  tout := by
    rw [accepted, tallyIn, block_setBlock_same, block_bump, h.blocks .reeve (by decide)]
  count := by
    have hr : getReg64 r .reeve 0x100 = getReg64 p .reeve 0x100 := getReg64_of_keepsBut h.keeps (by decide) _ _
    rw [gains, ← hr]
    exact getReg64_bump r .reeve 0x100 1

theorem getReg64_bump_other (p : Pkg) (g : Page) (o k n : Nat) (h : k + 8 ≤ o ∨ o + 8 ≤ k) :
    getReg64 (bump p g o n) g k = getReg64 p g k :=
  getReg64_of_regsBut (l := [(g, o), (g, o + 4)]) (regsBut_bump g o n (by simp) (by simp) (regsBut_refl _ p))
    (by simp; omega) (by simp; omega)

/-- A further count of Reeve leaves the acceptance as it was. -/
theorem Accepted.bump {l m : List (Page × Nat)} {p x : Pkg} (h : Accepted l p x) (o : Nat) (ho : 0x108 ≤ o) (hl : ∀ e, e ∈ l → e ∈ m)
    (hlo : (Page.reeve, o) ∈ m) (hhi : (Page.reeve, o + 4) ∈ m) : Accepted m p (bump x .reeve o 1) where
  keeps := keepsBut_trans h.keeps (keepsBut_mono (bump_keeps _ _ _ _) (by decide))
  blocks := h.blocks
  regs := regsBut_bump _ _ _ hlo hhi (regsBut_mono h.regs hl)
  states := h.states
  tin := h.tin
  tout := h.tout
  count := (getReg64_bump_other x .reeve o 0x100 1 (.inl ho)).trans h.count

theorem Accepted.rv {l : List (Page × Nat)} {p x : Pkg} (h : Accepted l p x) : x.rv = p.rv := h.keeps .rv (by decide)

theorem Accepted.ownChip {l : List (Page × Nat)} {p x : Pkg} (h : Accepted l p x) (hl : (Page.drt 0, 0x090) ∉ l) : ownChip x = ownChip p := by
  rw [Machine.ownChip, Machine.ownChip, chipReg, chipReg, h.regs _ _ hl]

theorem Accepted.replyBytes {l : List (Page × Nat)} {p x : Pkg} (h : Accepted l p x) (hl : (Page.drt 0, 0x090) ∉ l) (pk : Packet) (path : Nat)
    (st : Status) (args : List Nat) (payload : List Byte) : replyBytes x pk path st args payload = replyBytes p pk path st args payload := by
  have hbell : x.bell = p.bell := h.keeps .bell (by decide)
  simp only [Machine.replyBytes, jobField, h.rv, hbell, h.ownChip hl]

/-- An accepted command has ended with a status, and bytes have gone out on its path. -/
structure Ended (l : List (Page × Nat)) (p x q : Pkg) (pk : Packet) (path : Nat) (st : Status) (b : List Byte) : Prop where
  keeps : keepsBut [.inbox, .pw, .rv, .regs, .blocks, .out, .routers, .bobs, .ports] p q
  left : keepsBut [.rv, .blocks, .out, .routers] x q
  blocks : blocksBut ([.reeve, .mgmt] ++ (replyDie p).toList.map Page.drt) p q
  regs : regsBut l p q
  rv : q.rv = { p.rv with unsent := q.rv.unsent }
  out : puts ([.item .reeve pk.code st] ++ (if path = 0 then [] else [.packet path b])) p q
  frames : framesLeave p q pk path b
  tin : (block q .reeve).tin = (block p .reeve).tin + 1
  tout : (block q .reeve).tout = (block p .reeve).tout + 1
  count : gains 1 p q .reeve 0x100

theorem reeve_not_replyDie (p : Pkg) : Page.reeve ∉ (replyDie p).toList.map Page.drt := by
  simp [Page.reeve, Page.drt]

theorem Accepted.ended {l : List (Page × Nat)} {p x : Pkg} (h : Accepted l p x) (hl : (Page.drt 0, 0x090) ∉ l) (pk : Packet) (path : Nat)
    (st : Status) (b : List Byte) : Ended l p x (sendBytes (endItem x .reeve pk.code st) (keyOf pk path) b) pk path st b := by
  have hsent := bytesSent_sendBytes (endItem x .reeve pk.code st) pk path b
  generalize hq : sendBytes (endItem x .reeve pk.code st) (keyOf pk path) b = q at hsent ⊢
  have hend : keepsBut [.blocks, .out] x (endItem x .reeve pk.code st) := endItem_keeps _ _ _ _
  have hstate (g : Page) : stateOf (endItem x .reeve pk.code st) g = stateOf p g := (stateOf_tallyOut ..).trans (h.states g)
  have hdie : replyDie (endItem x .reeve pk.code st) = replyDie p := replyDie_congr hstate
  have hreeve : block q .reeve = block (endItem x .reeve pk.code st) .reeve := hsent.blocks _ (reeve_not_replyDie _)
  have hleft : keepsBut [.rv, .blocks, .out, .routers] x q := keepsBut_trans (keepsBut_mono hend (by decide)) hsent.keeps
  have hblocks : blocksBut ([.reeve, .mgmt] ++ (replyDie p).toList.map Page.drt) x q :=
    blocksBut_trans (blocksBut_setBlock _ _ (by simp) (blocksBut_refl _ x))
      (blocksBut_mono (hdie ▸ hsent.blocks) (fun g hg => List.mem_append_right _ hg))
  exact
    { keeps := keepsBut_trans (keepsBut_mono h.keeps (by decide)) (keepsBut_mono hleft (by decide))
      left := hleft
      blocks := blocksBut_trans (blocksBut_mono h.blocks (fun g hg => List.mem_append_left _ hg)) hblocks
      regs := regsBut_trans h.regs (fun g o _ => getReg_of_keepsBut hleft (by decide) g o)
      rv := by rw [← h.rv]; exact hsent.rv
      out := by
        have hx : x.out = p.out := h.keeps .out (by decide)
        have hout := hsent.out
        rw [puts, endItem, emit, tallyOut_out, hx] at hout
        rw [puts, hout, List.append_assoc]
      frames := framesLeave_congr hsent.frames hstate (h.ownChip hl) (h.keeps .routers (by decide)) (congrArg Reeve.unsent h.rv) rfl rfl
      tin := by rw [hreeve, ← h.tin, endItem, block_emit, tallyOut, block_setBlock_same]
      tout := by rw [hreeve, ← h.tout, endItem, block_emit, tout_tallyOut]; rfl
      count := by
        have hx : getReg64 q .reeve 0x100 = getReg64 x .reeve 0x100 := getReg64_of_keepsBut hleft (by decide) _ _
        rw [gains, hx]
        exact h.count }

/-! ## The reply of a command (R371, R372) -/

/-- CMD_REFUSED counts a reply of the refused class. -/
def countRefused (q : Pkg) (st : Status) : Pkg := if Status.cls st = 1 then bump q .reeve 0x108 1 else q

/-- A reply enters the cache, and the oldest entry leaves a full one. -/
def keepReply (q : Pkg) (c : Cached) : Pkg :=
  { q with rv := { q.rv with cache := (q.rv.cache ++ [c]).drop (q.rv.cache.length + 1 - 1024) } }

theorem gains_countRefused (q : Pkg) (st : Status) : gains (if Status.cls st = 1 then 1 else 0) q (countRefused q st) .reeve 0x108 := by
  unfold countRefused
  split
  · exact getReg64_bump _ _ _ _
  · simp [gains]

theorem countRefused_keeps (q : Pkg) (st : Status) : keepsBut [.regs] q (countRefused q st) := by
  unfold countRefused
  split
  · exact bump_keeps _ _ _ _
  · exact keepsBut_refl _ q

theorem regsBut_countRefused (q : Pkg) (st : Status) : regsBut [(.reeve, 0x108), (.reeve, 0x10C)] q (countRefused q st) := by
  unfold countRefused
  split
  · exact regsBut_bump _ _ _ (by decide) (by decide) (regsBut_refl _ q)
  · exact regsBut_refl _ q

theorem sendReply_not_ran (x : Pkg) (pk : Packet) (path : Nat) (st : Status) (args : List Nat) (payload : List Byte) :
    sendReply x (keyOf pk path) pk.code st args payload false
      = countRefused (sendBytes (endItem x .reeve pk.code st) (keyOf pk path) (replyBytes x pk path st args payload)) st := by
  unfold sendReply
  rfl

theorem finish_eq (x : Pkg) (pk : Packet) (path : Nat) (st : Status) (args : List Nat) (payload : List Byte) :
    finish x (keyOf pk path) pk.code st args payload
      = keepReply (sendReply x (keyOf pk path) pk.code st args payload false)
          ⟨keyOf pk path, replyBytes x pk path st args payload, (sendReply x (keyOf pk path) pk.code st args payload false).count⟩ := by
  unfold finish sendReply keepReply
  rfl

/-- A packet of p, taken so that r is left, is answered, and beside its reply and what its taking changes only the reply cache may differ. -/
structure Replied (p r q : Pkg) (pk : Packet) (path : Nat) (st : Status) (b : List Byte) : Prop where
  sent : sendsReply [] p q pk path st b
  rest : cmdRest [] p q
  keeps : keepsBut [.inbox, .pw, .rv, .regs, .blocks, .out, .routers, .bobs, .ports] p q
  left : keepsBut [.rv, .blocks, .out, .routers, .regs] r q

theorem replied_sendReply {p r : Pkg} (h : Taken p r) (pk : Packet) (path : Nat) (st : Status) (args : List Nat) (payload : List Byte) :
    Replied p r (sendReply (accepted r) (keyOf pk path) pk.code st args payload false) pk path st (replyBytes p pk path st args payload)
      ∧ (sendReply (accepted r) (keyOf pk path) pk.code st args payload false).rv.cache = p.rv.cache := by
  have hacc := accepted_of_taken h
  rw [sendReply_not_ran, hacc.replyBytes (by decide)]
  have hend := hacc.ended (by decide) pk path st (replyBytes p pk path st args payload)
  generalize sendBytes (endItem (accepted r) .reeve pk.code st) (keyOf pk path) (replyBytes p pk path st args payload) = q at hend ⊢
  have hkeep := countRefused_keeps q st
  have hrv : (countRefused q st).rv = q.rv := hkeep .rv (by decide)
  have hblock (g : Page) : block (countRefused q st) g = block q g := block_of_keepsBut hkeep (by decide) g
  have hcount : getReg64 (countRefused q st) .reeve 0x100 = getReg64 q .reeve 0x100 :=
    getReg64_of_regsBut (regsBut_countRefused q st) (by decide) (by decide)
  have hrefused : getReg64 q .reeve 0x108 = getReg64 p .reeve 0x108 := getReg64_of_regsBut hend.regs (by decide) (by decide)
  have hout : puts ([.item .reeve pk.code st] ++ (if path = 0 then [] else [.packet path (replyBytes p pk path st args payload)])) p
      (countRefused q st) := (hkeep .out (by decide)).trans hend.out
  have hframes : framesLeave p (countRefused q st) pk path (replyBytes p pk path st args payload) :=
    framesLeave_congr hend.frames (fun _ => rfl) rfl rfl rfl (hkeep .routers (by decide)) (by rw [hrv])
  have hblocks : blocksBut ([.reeve, .mgmt] ++ (replyDie p).toList.map Page.drt ++ []) p (countRefused q st) := by
    intro g hg
    rw [hblock]
    exact hend.blocks g (by simpa using hg)
  have hregs := regsBut_trans (regsBut_mono hend.regs (m := [(.reeve, 0x100), (.reeve, 0x104), (.reeve, 0x108), (.reeve, 0x10C)]) (by decide))
    (regsBut_mono (regsBut_countRefused q st) (by decide))
  have hleft : keepsBut [.rv, .blocks, .out, .routers, .regs] r (countRefused q st) :=
    keepsBut_trans (keepsBut_mono (accepted_keeps r) (by decide))
      (keepsBut_trans (keepsBut_mono hend.left (by decide)) (keepsBut_mono hkeep (by decide)))
  exact
    ⟨{ sent := ⟨hout, hframes, by rw [hblock]; exact hend.tin, by rw [hblock]; exact hend.tout, by rw [gains, hcount]; exact hend.count,
         by rw [gains, ← hrefused]; exact gains_countRefused q st⟩
       rest := ⟨by rw [hrv, hend.rv], hregs, hblocks⟩
       keeps := keepsBut_trans hend.keeps (keepsBut_mono hkeep (by decide))
       left := hleft }, by rw [hrv, hend.rv]⟩

/-- A further change of the reply cache alone leaves the packet answered as it was. -/
theorem Replied.withCache {p r q : Pkg} {pk : Packet} {path : Nat} {st : Status} {b : List Byte} (h : Replied p r q pk path st b)
    (l : List Cached) : Replied p r { q with rv := { q.rv with cache := l } } pk path st b where
  sent := h.sent
  rest := ⟨by
    have hrv := h.rest.1
    dsimp only
    rw [hrv], h.rest.2⟩
  keeps := keepsBut_trans h.keeps (keepsBut_mono (keepsBut_rv q _) (by decide))
  left := keepsBut_trans h.left (keepsBut_mono (keepsBut_rv q _) (by decide))

theorem Replied.settle {p r q : Pkg} {pk : Packet} {path : Nat} {st : Status} {b : List Byte} (h : Replied p r q pk path st b) :
    Replied p r (settle q) pk path st b where
  sent := h.sent
  rest := h.rest
  keeps := keepsBut_settle h.keeps
  left := keepsBut_settle h.left

theorem cmdFrame_of_left {p q r : Pkg} {src : CmdSrc} {pk : Packet} {path : Nat} (ht : takePacket p src = some (pk, path, r))
    (hkeeps : keepsBut [.inbox, .pw, .rv, .regs, .blocks, .out, .routers, .bobs, .ports] p q)
    (hleft : keepsBut [.rv, .blocks, .out, .routers, .regs] r q) : cmdFrame src [] p q := by
  refine ⟨hkeeps, fun pk' path' r' ht' => ?_⟩
  rw [ht] at ht'
  cases ht'
  exact ⟨hleft .inbox (by decide), fun _ => hleft .pw (by decide), fun _ => hleft .bobs (by decide), fun _ => hleft .ports (by decide)⟩

/-- A command that ran is answered and its reply kept. -/
theorem answered_finish {p r : Pkg} (h : Taken p r) (pk : Packet) (path : Nat) (st : Status) (args : List Nat) (payload : List Byte) :
    Replied p r (finish (accepted r) (keyOf pk path) pk.code st args payload) pk path st (replyBytes p pk path st args payload)
      ∧ answered [] p (finish (accepted r) (keyOf pk path) pk.code st args payload) pk path st args payload := by
  obtain ⟨hrep, hcache⟩ := replied_sendReply h pk path st args payload
  rw [finish_eq, (accepted_of_taken h).replyBytes (by decide)]
  refine ⟨hrep.withCache _, (hrep.withCache _).sent, ?_⟩
  have hcount : (sendReply (accepted r) (keyOf pk path) pk.code st args payload false).count = p.count := hrep.keeps .count (by decide)
  rw [keepReply]
  dsimp only
  rw [hcache, hcount]

/-- A replay is answered with the reply kept, and CMD_REPLAY counts it (R372). -/
theorem ended_replay {p r : Pkg} (h : Taken p r) (pk : Packet) (path : Nat) (b : List Byte) :
    Ended [(.reeve, 0x100), (.reeve, 0x104), (.reeve, 0x120), (.reeve, 0x124)] p (bump (accepted r) .reeve 0x120 1)
      (sendBytes (endItem (bump (accepted r) .reeve 0x120 1) .reeve pk.code Status.done) (keyOf pk path) b) pk path Status.done b :=
  ((accepted_of_taken h).bump 0x120 (by decide) (by decide) (by decide) (by decide)).ended (by decide) pk path Status.done b

/-! ## The checks of a packet (R371) -/

theorem packetCheck_congr {p r : Pkg} (h : r.rv = p.rv) (pk : Packet) (path : Nat) : packetCheck r pk path = packetCheck p pk path := by
  simp only [packetCheck, h]

theorem cached_congr {p r : Pkg} (hrv : r.rv = p.rv) (hcount : r.count = p.count) (k : CmdKey) : cached r k = cached p k := by
  simp only [cached, hrv, hcount]

section
variable {r : Pkg} {pk : Packet} {path : Nat} (run : Pkg → CmdKey → Packet → Pkg)

theorem acceptPacket_of_check (h : packetCheck r pk path ≠ Status.done) :
    acceptPacket r pk path run = sendReply (accepted r) (keyOf pk path) pk.code (packetCheck r pk path) [] [] false := by
  unfold acceptPacket
  exact if_pos h

theorem acceptPacket_of_cached {c : Cached} (h : packetCheck r pk path = Status.done) (hc : cached r (keyOf pk path) = some c) :
    acceptPacket r pk path run
      = sendBytes (endItem (bump (accepted r) .reeve 0x120 1) .reeve pk.code Status.done) (keyOf pk path) c.reply := by
  unfold keyOf at hc
  unfold acceptPacket
  simp only [h, hc, ne_eq, not_true_eq_false, if_false]
  rfl

/-- A sound packet that is no replay meets the rest of R371's checks: room, a manifest command under way, the recovery ROM. -/
theorem acceptPacket_of_fresh (h : packetCheck r pk path = Status.done) (hc : cached r (keyOf pk path) = none) :
    acceptPacket r pk path run =
      if 64 ≤ r.rv.runs.length then sendReply (accepted r) (keyOf pk path) pk.code Status.refusedBusy [] [] false
      else if changesState pk.code && manifestBusy r then sendReply (accepted r) (keyOf pk path) pk.code Status.refusedBusy [] [] false
      else if r.boot.stage = .recovery ∧ !recoveryRuns pk.code pk.arg2 then
        finish (accepted r) (keyOf pk path) pk.code Status.refusedOffline [] []
      else run (accepted r) (keyOf pk path) pk := by
  unfold keyOf at hc
  unfold acceptPacket
  simp only [h, hc, ne_eq, not_true_eq_false, if_false]
  rfl

theorem acceptPacket_of_busy (h : packetCheck r pk path = Status.done) (hc : cached r (keyOf pk path) = none)
    (hbusy : 64 ≤ r.rv.runs.length ∨ (changesState pk.code && manifestBusy r) = true) :
    acceptPacket r pk path run = sendReply (accepted r) (keyOf pk path) pk.code Status.refusedBusy [] [] false := by
  rw [acceptPacket_of_fresh run h hc]
  by_cases hroom : 64 ≤ r.rv.runs.length
  · exact if_pos hroom
  · rw [if_neg hroom, if_pos (hbusy.resolve_left hroom)]

theorem acceptPacket_of_recovery (h : packetCheck r pk path = Status.done) (hc : cached r (keyOf pk path) = none)
    (hroom : r.rv.runs.length < 64) (hfree : (changesState pk.code && manifestBusy r) = false) (hstage : r.boot.stage = .recovery)
    (hrom : recoveryRuns pk.code pk.arg2 = false) :
    acceptPacket r pk path run = finish (accepted r) (keyOf pk path) pk.code Status.refusedOffline [] [] := by
  have hrun : r.boot.stage = .recovery ∧ (!recoveryRuns pk.code pk.arg2) = true := ⟨hstage, by rw [hrom]; rfl⟩
  rw [acceptPacket_of_fresh run h hc, if_neg (Nat.not_le.mpr hroom), if_neg (by rw [hfree]; exact Bool.false_ne_true), if_pos hrun]
end

/-! ## The rows that serve a packet -/

theorem serve_of_takesCmd {p r : Pkg} {src : CmdSrc} {code : Nat} {pk : Packet} {path : Nat} (run : Pkg → CmdKey → Packet → Pkg)
    (h : takesCmd p src code pk path) (ht : takePacket p src = some (pk, path, r)) : serve p src code run = acceptPacket r pk path run := by
  obtain ⟨_, hcrc, hcode, hflags⟩ := h
  simp [serve, ht, hcrc, hcode, hflags]

theorem serve_of_not_takesCmd {p : Pkg} {src : CmdSrc} {code : Nat} (run : Pkg → CmdKey → Packet → Pkg)
    (h : ∀ pk path, ¬takesCmd p src code pk path) : serve p src code run = p := by
  unfold serve
  split
  · rename_i pk path q ht
    refine if_neg (fun hok => h pk path ?_)
    simp only [Bool.and_eq_true, beq_iff_eq] at hok
    obtain ⟨⟨hcrc, hcode⟩, hflags⟩ := hok
    exact ⟨⟨q, ht⟩, hcrc, hcode, hflags⟩
  · rfl

/-- Each of the 36 rows acts by `serve` with its source and code; they differ in what they run. -/
theorem exec_of_servesCode {i : Instr} {src : CmdSrc} {code : Nat} (h : servesCode i = some (src, code)) :
    ∃ run, ∀ s, exec i s = act s (fun p => serve p src code run) := by
  unfold servesCode at h
  split at h <;> cases h <;> exact ⟨_, fun _ => rfl⟩

/-- The frame of an answered packet, for the source that it was taken from. -/
theorem Replied.frames {p r q : Pkg} {src : CmdSrc} {pk : Packet} {path : Nat} {st : Status} {b : List Byte} (h : Replied p r q pk path st b)
    (ht : takePacket p src = some (pk, path, r)) : cmdFrame src [] p q ∧ cmdRest [] p q :=
  ⟨cmdFrame_of_left ht h.keeps h.left, h.rest⟩

/-- An accepted packet that is not run and not kept: its status goes out and nothing else of the package changes. -/
theorem turnedAway_says {p r : Pkg} {src : CmdSrc} {pk : Packet} {path : Nat} (ht : takePacket p src = some (pk, path, r)) (st : Status) :
    let q := settle (sendReply (accepted r) (keyOf pk path) pk.code st [] [] false)
    sendsReply [] p q pk path st (replyBytes p pk path st [] []) ∧ q.rv.cache = p.rv.cache ∧ cmdFrame src [] p q ∧ cmdRest [] p q := by
  obtain ⟨hrep, hcache⟩ := replied_sendReply (taken_of_takePacket ht) pk path st [] []
  exact ⟨hrep.settle.sent, hcache, hrep.settle.frames ht⟩

section
variable {s : State} {i : Instr} {src : CmdSrc} {code : Nat} {pk : Packet} {path : Nat}

theorem completes_of_not_takesCmd (hi : servesCode i = some (src, code)) (h : ∀ pk path, ¬takesCmd s.pkg src code pk path) :
    Completes i s (fun q => keepsBut [] s.pkg q) := by
  obtain ⟨run, hexec⟩ := exec_of_servesCode hi
  exact completes_unchanged (hexec s) (serve_of_not_takesCmd run h)

variable (hi : servesCode i = some (src, code)) (h : takesCmd s.pkg src code pk path)
include hi h

/-- The row of a packet that it takes accepts it, whatever it runs. -/
theorem completes_of_acceptPacket {P : Pkg → Prop}
    (hp : ∀ run r, takePacket s.pkg src = some (pk, path, r) → P (settle (acceptPacket r pk path run))) : Completes i s P := by
  obtain ⟨run, hexec⟩ := exec_of_servesCode hi
  obtain ⟨r, ht⟩ := h.1
  exact completes_act (hexec s) (by rw [serve_of_takesCmd run h ht]; exact hp run r ht)

theorem completes_of_failed_check (hst : packetCheck s.pkg pk path ≠ Status.done) :
    let p := s.pkg
    let st := packetCheck p pk path
    Completes i s (fun q => sendsReply [] p q pk path st (replyBytes p pk path st [] []) ∧ q.rv.cache = p.rv.cache ∧ cmdFrame src [] p q
      ∧ cmdRest [] p q) := by
  refine completes_of_acceptPacket hi h (fun run r ht => ?_)
  have hrv : r.rv = s.pkg.rv := (taken_of_takePacket ht).keeps .rv (by decide)
  rw [← packetCheck_congr hrv] at hst ⊢
  rw [acceptPacket_of_check run hst]
  exact turnedAway_says ht _

theorem completes_of_replay {c : Cached} (hst : packetCheck s.pkg pk path = Status.done) (hc : cached s.pkg (keyOf pk path) = some c) :
    let p := s.pkg
    Completes i s (fun q => sendsReply [] p q pk path Status.done c.reply ∧ gains 1 p q .reeve 0x120 ∧ q.rv = { p.rv with unsent := q.rv.unsent }
      ∧ cmdFrame src [] p q
      ∧ regsBut [(.reeve, 0x100), (.reeve, 0x104), (.reeve, 0x108), (.reeve, 0x10C), (.reeve, 0x120), (.reeve, 0x124)] p q) := by
  refine completes_of_acceptPacket hi h (fun run r ht => ?_)
  have htaken := taken_of_takePacket ht
  have hrv : r.rv = s.pkg.rv := htaken.keeps .rv (by decide)
  rw [← packetCheck_congr hrv] at hst
  rw [← cached_congr hrv (htaken.keeps .count (by decide))] at hc
  rw [acceptPacket_of_cached run hst hc]
  have hend := ended_replay htaken pk path c.reply
  generalize sendBytes (endItem (bump (accepted r) .reeve 0x120 1) .reeve pk.code Status.done) (keyOf pk path) c.reply = q at hend ⊢
  have hleft : keepsBut [.rv, .blocks, .out, .routers, .regs] r q :=
    keepsBut_trans (keepsBut_mono (accepted_keeps r) (by decide))
      (keepsBut_trans (keepsBut_mono (bump_keeps _ _ _ _) (by decide)) (keepsBut_mono hend.left (by decide)))
  have hreplay : gains 1 s.pkg q .reeve 0x120 := by
    rw [gains, getReg64_of_keepsBut hend.left (by decide), getReg64_bump,
      getReg64_of_regsBut (accepted_of_taken htaken).regs (by decide) (by decide)]
  have hrefused : gains 0 s.pkg q .reeve 0x108 := by
    rw [gains, getReg64_of_regsBut hend.regs (by decide) (by decide)]
    exact (BitVec.add_zero _).symm
  exact ⟨⟨hend.out, hend.frames, hend.tin, hend.tout, hend.count, hrefused⟩, hreplay, hend.rv,
    cmdFrame_of_left ht (keepsBut_settle hend.keeps) (keepsBut_settle hleft), regsBut_mono hend.regs (by decide)⟩

theorem completes_of_busy (hst : packetCheck s.pkg pk path = Status.done) (hc : cached s.pkg (keyOf pk path) = none)
    (hbusy : 64 ≤ s.pkg.rv.runs.length ∨ (changesState code && manifestBusy s.pkg) = true) :
    let p := s.pkg
    Completes i s (fun q => sendsReply [] p q pk path Status.refusedBusy (replyBytes p pk path Status.refusedBusy [] [])
      ∧ q.rv.cache = p.rv.cache ∧ cmdFrame src [] p q ∧ cmdRest [] p q) := by
  obtain ⟨-, -, hcode, -⟩ := id h
  refine completes_of_acceptPacket hi h (fun run r ht => ?_)
  have htaken := taken_of_takePacket ht
  have hrv : r.rv = s.pkg.rv := htaken.keeps .rv (by decide)
  rw [← packetCheck_congr hrv] at hst
  rw [← cached_congr hrv (htaken.keeps .count (by decide))] at hc
  rw [manifestBusy, ← hrv, ← hcode] at hbusy
  rw [acceptPacket_of_busy run hst hc hbusy]
  exact turnedAway_says ht _

theorem completes_of_recovery (hpass : passesChecks s.pkg pk path) (hstage : s.pkg.boot.stage = .recovery)
    (hrom : recoveryRuns code pk.arg2 = false) :
    let p := s.pkg
    Completes i s (fun q => answered [] p q pk path Status.refusedOffline [] [] ∧ cmdFrame src [] p q ∧ cmdRest [] p q) := by
  obtain ⟨-, -, hcode, -⟩ := id h
  obtain ⟨hst, hc, hroom, hfree⟩ := hpass
  refine completes_of_acceptPacket hi h (fun run r ht => ?_)
  have htaken := taken_of_takePacket ht
  have hrv : r.rv = s.pkg.rv := htaken.keeps .rv (by decide)
  have hboot : r.boot = s.pkg.boot := htaken.keeps .boot (by decide)
  rw [← packetCheck_congr hrv] at hst
  rw [← cached_congr hrv (htaken.keeps .count (by decide))] at hc
  rw [manifestBusy, ← hrv] at hfree
  rw [← hrv] at hroom
  rw [← hboot] at hstage
  rw [← hcode] at hrom
  rw [acceptPacket_of_recovery run hst hc hroom hfree hstage hrom]
  obtain ⟨hrep, hans⟩ := answered_finish htaken pk path Status.refusedOffline [] []
  exact ⟨hans, hrep.settle.frames ht⟩
end

/-! ## Bad headers, fragments and the reply cache (R370–R372) -/

theorem exec_commandBadHeader (src : CmdSrc) (s : State) : exec (.commandBadHeader src) s = act s (fun p => badHeader p src) := rfl
theorem exec_cmdFragmentTimeout (s : State) : exec .cmdFragmentTimeout s = act s fragmentTimeout := rfl
theorem exec_replyCacheExpiry (s : State) : exec .replyCacheExpiry s = act s cacheExpiry := rfl

/-- A discarded packet is counted by a counter of Reeve, with its event. -/
def countedEvent (p : Pkg) (o i : Nat) : Pkg := raise (bump p .reeve o 1) .reeve i

theorem countedEvent_keeps (p : Pkg) (o i : Nat) : keepsBut [.regs, .blocks, .alerts] p (countedEvent p o i) :=
  keepsBut_trans (keepsBut_mono (bump_keeps _ _ _ _) (by decide)) (keepsBut_mono (raise_keeps _ _ _) (by decide))

theorem hasEvent_countedEvent (p : Pkg) (o i : Nat) (h : i < 32) : hasEvent (countedEvent p o i) .reeve i := evt_raise _ _ _ h

theorem gains_countedEvent {l : List Part} {p r : Pkg} (h : keepsBut l p r) (hl : Part.regs ∉ l) (o i : Nat) :
    gains 1 p (countedEvent r o i) .reeve o := by
  rw [gains, countedEvent, getReg64_raise, getReg64_bump, getReg64_of_keepsBut h hl]

theorem regsBut_countedEvent {l : List Part} {p r : Pkg} (h : keepsBut l p r) (hl : Part.regs ∉ l) (o i : Nat) :
    regsBut [(.reeve, o), (.reeve, o + 4)] p (countedEvent r o i) :=
  regsBut_raise _ _ (regsBut_bump _ _ _ (by simp) (by simp) (fun g k _ => getReg_of_keepsBut h hl g k))

theorem badHeader_of_none {p : Pkg} {src : CmdSrc} (h : takePacket p src = none) : badHeader p src = p := by
  simp [badHeader, h]

section
variable {p r : Pkg} {src : CmdSrc} {pk : Packet} {path : Nat} (ht : takePacket p src = some (pk, path, r))
include ht

theorem badHeader_of_bad_hcrc (h : pk.hcrcOk = false) : badHeader p src = countedEvent r 0x110 19 := by
  simp [badHeader, ht, h, countedEvent]

theorem badHeader_of_reply (h : pk.hcrcOk = true) (hflags : pk.flags % 2 = 1) (hcode : pk.code ≠ 0x41) : badHeader p src = r := by
  simp [badHeader, ht, h, hflags, hcode]

theorem badHeader_of_undefined (h : pk.hcrcOk = true) (hflags : pk.flags % 2 = 0) (hform : cmdForm pk.code = none) :
    badHeader p src = acceptPacket r pk path (fun r _ _ => r) := by
  simp [badHeader, ht, h, hflags, hform]

/-- A sound packet of a defined code, and a reply of 0x0041, are left to the rows that serve them. -/
theorem badHeader_of_sound (h : pk.hcrcOk = true) (hcode : if pk.flags % 2 = 1 then pk.code = 0x41 else (cmdForm pk.code).isSome = true) :
    badHeader p src = p := by
  split at hcode
  · rename_i hflags
    simp [badHeader, ht, h, hflags, hcode]
  · rename_i hflags
    obtain ⟨f, hf⟩ := Option.isSome_iff_exists.mp hcode
    simp [badHeader, ht, h, hflags, hf]
end

/-- The first check of R371 that a packet of an undefined code fails: its version, or else its code. -/
theorem packetCheck_of_undefined {p : Pkg} {pk : Packet} {path : Nat} (h : cmdForm pk.code = none) :
    packetCheck p pk path = if pk.version = 2 then Status.failedOpcode else Status.refusedVersion := by
  simp only [packetCheck, h, ne_eq, ite_not]

theorem packetCheck_undefined_ne_done {p : Pkg} {pk : Packet} {path : Nat} (h : cmdForm pk.code = none) :
    packetCheck p pk path ≠ Status.done := by
  rw [packetCheck_of_undefined h]
  split <;> decide

/-- The slot of a packet freed, where it has one. -/
def withoutSlot (p : Pkg) : Option (Fin 8 × Nat) → Pkg
  | some (k, n) => dropSlot p k n
  | none => p

theorem withoutSlot_keeps (p : Pkg) (o : Option (Fin 8 × Nat)) : keepsBut [.bobs] p (withoutSlot p o) := by
  cases o with
  | none => exact keepsBut_refl _ p
  | some c => exact dropSlot_keeps p c.1 c.2

/-- A first frame that has waited for 65,536 ticks and has no second one that came within them (R370). -/
def fragmentStale (p : Pkg) (x : Delivered) : Bool :=
  carriesPacket x && !x.frame.last && decide (x.at_ + 65536 ≤ p.count)
    && !(p.inbox.any (fun y => followsOn x y && decide (y.at_ < x.at_ + 65536)))

/-- The package without a discarded fragment: it has left the inbox, its slot and its receive buffer. -/
def fragmentDropped (p : Pkg) (x : Delivered) : Pkg :=
  freeUnits (withoutSlot { p with inbox := dropFirst (fragmentStale p) p.inbox } x.slot) ⟨x.frame, x.arrival⟩

theorem fragmentTimeout_of_none {p : Pkg} (h : p.inbox.find? (fragmentStale p) = none) : fragmentTimeout p = p := by
  have htake : takeInbox p (fragmentStale p) = none := by rw [takeInbox, h]
  unfold fragmentTimeout
  dsimp only
  split
  · rename_i hq
    cases hq.symm.trans htake
  · rfl

theorem fragmentTimeout_of_some {p : Pkg} {x : Delivered} (h : p.inbox.find? (fragmentStale p) = some x) :
    fragmentTimeout p = countedEvent (fragmentDropped p x) 0x118 20 := by
  have htake : takeInbox p (fragmentStale p) = some (x, { p with inbox := dropFirst (fragmentStale p) p.inbox }) := by rw [takeInbox, h]
  unfold fragmentTimeout fragmentDropped
  dsimp only
  split
  · rename_i hq
    cases hq.symm.trans htake
    cases x.slot <;> rfl
  · rename_i hq
    cases hq.symm.trans htake

theorem fragmentDropped_keeps (p : Pkg) (x : Delivered) : keepsBut [.inbox, .bobs, .ports] p (fragmentDropped p x) :=
  keepsBut_trans (keepsBut_mono (keepsBut_inbox p _) (by decide))
    (keepsBut_trans (keepsBut_mono (withoutSlot_keeps _ _) (by decide)) (keepsBut_mono (freeUnits_keeps _ _) (by decide)))

theorem inbox_fragmentDropped (p : Pkg) (x : Delivered) : (fragmentDropped p x).inbox = dropFirst (fragmentStale p) p.inbox :=
  (freeUnits_keeps _ _ .inbox (by decide)).trans (withoutSlot_keeps _ _ .inbox (by decide))

theorem portOfPkg_fragmentDropped_other (p : Pkg) (x : Delivered) (n : Fin 32) (h : x.arrival ≠ some n) :
    portOfPkg (fragmentDropped p x) n = portOfPkg p n :=
  (portOfPkg_freeUnits_other _ _ n h).trans
    (congrArg (fun m => Map.getD m n Port.reset) (withoutSlot_keeps { p with inbox := dropFirst (fragmentStale p) p.inbox } x.slot .ports (by decide)))

/-- Of the gateway bobbins only slots change, as the fragment's slot is freed. -/
theorem bobs_fragmentDropped (p : Pkg) (x : Delivered) :
    (fragmentDropped p x).bobs = (withoutSlot { p with inbox := dropFirst (fragmentStale p) p.inbox } x.slot).bobs :=
  freeUnits_keeps _ _ .bobs (by decide)

theorem bobs_fragmentDropped_of_no_slot {p : Pkg} {x : Delivered} (h : x.slot = none) : (fragmentDropped p x).bobs = p.bobs := by
  rw [bobs_fragmentDropped, h]
  rfl

theorem slot_fragmentDropped {p : Pkg} {x : Delivered} {k : Fin 8} {n : Nat} (h : x.slot = some (k, n)) :
    Map.look (bobOf (fragmentDropped p x) (.gateway k)).slots n = none
      ∧ ∀ b, b ≠ .gateway k → bobOf (fragmentDropped p x) b = bobOf p b := by
  have hbob (b : BobId) : bobOf (fragmentDropped p x) b = bobOf (dropSlot { p with inbox := dropFirst (fragmentStale p) p.inbox } k n) b := by
    rw [bobOf, bobs_fragmentDropped, h]
    rfl
  refine ⟨?_, fun b hb => (hbob b).trans (bobOf_dropSlot_other _ _ _ _ hb)⟩
  rw [hbob, bobOf_dropSlot_same]
  exact Map.look_drop_same _ _

/-! ## What the three rows beside the served ones leave -/

section
variable {s : State} {src : CmdSrc} {pk : Packet} {path : Nat} {r : Pkg} (ht : takePacket s.pkg src = some (pk, path, r))
include ht

theorem commandBadHeader_of_bad_hcrc (h : pk.hcrcOk = false) :
    let p := s.pkg
    Completes (.commandBadHeader src) s (fun q => gains 1 p q .reeve 0x110 ∧ hasEvent q .reeve 19
      ∧ q.inbox = r.inbox ∧ q.pw = r.pw ∧ q.bobs = r.bobs ∧ q.ports = r.ports
      ∧ regsBut [(.reeve, 0x110), (.reeve, 0x114)] p q ∧ keepsBut [.inbox, .pw, .bobs, .ports, .regs, .blocks, .alerts] p q) := by
  refine completes_act (exec_commandBadHeader src s) ?_
  rw [badHeader_of_bad_hcrc ht h]
  have htaken := (taken_of_takePacket ht).keeps
  have hcount := countedEvent_keeps r 0x110 19
  exact ⟨gains_countedEvent htaken (by decide) 0x110 19, hasEvent_countedEvent r 0x110 19 (by decide), hcount .inbox (by decide),
    hcount .pw (by decide), hcount .bobs (by decide), hcount .ports (by decide), regsBut_countedEvent htaken (by decide) 0x110 19,
    keepsBut_settle (keepsBut_trans (keepsBut_mono htaken (by decide)) (keepsBut_mono hcount (by decide)))⟩

theorem commandBadHeader_of_reply (h : pk.hcrcOk = true) (hflags : pk.flags % 2 = 1) (hcode : pk.code ≠ 0x41) :
    let p := s.pkg
    Completes (.commandBadHeader src) s (fun q => q.inbox = r.inbox ∧ q.pw = r.pw ∧ q.bobs = r.bobs ∧ q.ports = r.ports
      ∧ keepsBut [.inbox, .pw, .blocks, .bobs, .ports] p q) := by
  refine completes_act (exec_commandBadHeader src s) ?_
  rw [badHeader_of_reply ht h hflags hcode]
  exact ⟨rfl, rfl, rfl, rfl, keepsBut_settle (taken_of_takePacket ht).keeps⟩

theorem commandBadHeader_of_undefined (h : pk.hcrcOk = true) (hflags : pk.flags % 2 = 0) (hform : cmdForm pk.code = none) :
    let p := s.pkg
    let st := if pk.version = 2 then Status.failedOpcode else Status.refusedVersion
    Completes (.commandBadHeader src) s (fun q => sendsReply [] p q pk path st (replyBytes p pk path st [] []) ∧ cmdFrame src [] p q
      ∧ cmdRest [] p q) := by
  refine completes_act (exec_commandBadHeader src s) ?_
  rw [badHeader_of_undefined ht h hflags hform, acceptPacket_of_check _ (packetCheck_undefined_ne_done hform), packetCheck_of_undefined hform]
  obtain ⟨hsent, -, hframe, hrest⟩ := turnedAway_says ht (if pk.version = 2 then Status.failedOpcode else Status.refusedVersion)
  exact ⟨hsent, hframe, hrest⟩

theorem commandBadHeader_of_sound (h : pk.hcrcOk = true)
    (hcode : if pk.flags % 2 = 1 then pk.code = 0x41 else (cmdForm pk.code).isSome = true) :
    Completes (.commandBadHeader src) s (fun q => keepsBut [] s.pkg q) :=
  completes_unchanged (exec_commandBadHeader src s) (badHeader_of_sound ht h hcode)
end

theorem cmdFragmentTimeout_of_stale {s : State} {x : Delivered} (h : s.pkg.inbox.find? (fragmentStale s.pkg) = some x) :
    let p := s.pkg
    Completes .cmdFragmentTimeout s (fun q => takes (fragmentStale p) x p q ∧ gains 1 p q .reeve 0x118 ∧ hasEvent q .reeve 20
      ∧ (∀ n, x.arrival ≠ some n → portOfPkg q n = portOfPkg p n) ∧ (x.slot = none → q.bobs = p.bobs)
      ∧ (∀ k n, x.slot = some (k, n) → Map.look (bobOf q (.gateway k)).slots n = none ∧ (∀ b, b ≠ .gateway k → bobOf q b = bobOf p b))
      ∧ regsBut [(.reeve, 0x118), (.reeve, 0x11C)] p q ∧ keepsBut [.inbox, .regs, .blocks, .alerts, .ports, .bobs] p q) := by
  intro p
  refine completes_act (exec_cmdFragmentTimeout s) ?_
  rw [fragmentTimeout_of_some h]
  have hdrop := fragmentDropped_keeps p x
  have hcount := countedEvent_keeps (fragmentDropped p x) 0x118 20
  have hbobs : (countedEvent (fragmentDropped p x) 0x118 20).bobs = (fragmentDropped p x).bobs := hcount .bobs (by decide)
  have hbob (b : BobId) : bobOf (settle (countedEvent (fragmentDropped p x) 0x118 20)) b = bobOf (fragmentDropped p x) b :=
    congrArg (fun m => Map.getD m b Bobbin.reset) hbobs
  have hport (n : Fin 32) : portOfPkg (settle (countedEvent (fragmentDropped p x) 0x118 20)) n = portOfPkg (fragmentDropped p x) n :=
    congrArg (fun m => Map.getD m n Port.reset) (hcount .ports (by decide))
  refine ⟨⟨h, (hcount .inbox (by decide)).trans (inbox_fragmentDropped p x)⟩, gains_countedEvent hdrop (by decide) 0x118 20,
    hasEvent_countedEvent _ 0x118 20 (by decide), fun n hn => (hport n).trans (portOfPkg_fragmentDropped_other p x n hn),
    fun hx => hbobs.trans (bobs_fragmentDropped_of_no_slot hx), fun k n hx => ?_, regsBut_countedEvent hdrop (by decide) 0x118 20,
    keepsBut_settle (keepsBut_trans (keepsBut_mono hdrop (by decide)) (keepsBut_mono hcount (by decide)))⟩
  obtain ⟨hnone, hother⟩ := slot_fragmentDropped (p := p) hx
  exact ⟨by rw [hbob]; exact hnone, fun b hb => (hbob b).trans (hother b hb)⟩

theorem replyCacheExpiry_says (s : State) :
    let p := s.pkg
    Completes .replyCacheExpiry s (fun q => q.rv = { p.rv with cache := q.rv.cache }
      ∧ (∀ c, c ∈ q.rv.cache ↔ c ∈ p.rv.cache ∧ p.count < c.at_ + 1000000000) ∧ keepsBut [.rv] p q) :=
  completes_act (exec_replyCacheExpiry s) ⟨rfl, fun c => by simp [cacheExpiry, settle], keepsBut_settle (keepsBut_rv _ _)⟩

/-- Settles O46: a row that serves packets by the first check that turns its packet away, COMMAND_BAD_HEADER by what is wrong with the header,
and the two rows of time by what is old enough. -/
theorem packetsCheckedInOrder : Obligations.PacketsCheckedInOrder := by
  refine ⟨fun s i src code hi => ⟨completes_of_not_takesCmd hi, fun pk path h => ⟨?_, ?_, ?_, ?_⟩⟩, ?_, ?_, ?_, replyCacheExpiry_says⟩
  · exact completes_of_failed_check hi h
  · exact fun c hst hc => completes_of_replay hi h hst hc
  · exact completes_of_busy hi h
  · exact completes_of_recovery hi h
  · exact fun s src h => completes_unchanged (exec_commandBadHeader src s) (badHeader_of_none h)
  · exact fun s src pk path r ht => ⟨commandBadHeader_of_bad_hcrc ht, commandBadHeader_of_reply ht, commandBadHeader_of_undefined ht,
      commandBadHeader_of_sound ht⟩
  · exact fun s => ⟨fun h => completes_unchanged (exec_cmdFragmentTimeout s) (fragmentTimeout_of_none h),
      fun x h => cmdFragmentTimeout_of_stale h⟩

end Sys2Proof.Machine
